-- ==== Sys2Proof/Word.lean ====
section
/-! DEFINITION. The 72-bit word of the PM-8512 (spec 03_tagged_word.md, R57 to R59): 64 value bits and the tag
byte, with the classes of Table 3-1 and the plainest constructors of words. -/
set_option autoImplicit false
namespace Sys2Proof

/-- A machine word (R57): value bits [63:0] and the tag byte, which is word bits [71:64]. -/
structure Word where
  val : BitVec 64
  tag : BitVec 8
  deriving DecidableEq, Repr

/-- The class of a word, tag bits [7:6] (Table 3-1). -/
inductive WordClass where
  | data | pointer | system | poison
  deriving DecidableEq, Repr

/-- CLASS of a tag byte (Table 3-1). -/
def tagClass (t : BitVec 8) : WordClass :=
  if t.extractLsb' 6 2 = 0 then .data
  else if t.extractLsb' 6 2 = 1 then .pointer
  else if t.extractLsb' 6 2 = 2 then .system
  else .poison

/-- CLASS of a word. -/
def Word.cls (w : Word) : WordClass := tagClass w.tag

/-- AUX of a word, tag bits [5:0] (R57). -/
def Word.aux (w : Word) : BitVec 6 := w.tag.extractLsb' 0 6

/-- A data-class register value, tag 0x00 (R58). -/
def Word.data (v : BitVec 64) : Word := ⟨v, 0⟩
/-- A pointer-class register value, AUX 0 (Table 3-2). -/
def Word.pointer (v : BitVec 64) : Word := ⟨v, 0x40⟩
/-- A system-class word with its payload (Table 3-2). -/
def Word.system (v : BitVec 64) (pay : BitVec 6) : Word := ⟨v, (0x80 : BitVec 8) ||| pay.setWidth 8⟩
/-- A poison word with its source code; a unit that creates poison writes the value bits as zero (R59). -/
def Word.poison (code : BitVec 6) : Word := ⟨0, (0xC0 : BitVec 8) ||| code.setWidth 8⟩

/-- Whether a word is poison (Table 3-1). -/
def Word.isPoison (w : Word) : Bool := w.cls == .poison
/-- Whether a word has pointer class. -/
def Word.isPointer (w : Word) : Bool := w.cls == .pointer
/-- Whether a word has system class. -/
def Word.isSystem (w : Word) : Bool := w.cls == .system

/-- The colour of a storage word (R58): AUX of a data or pointer word, 0 for system or poison. -/
def Word.colour (w : Word) : BitVec 6 :=
  match w.cls with
  | .data => w.aux
  | .pointer => w.aux
  | .system => 0
  | .poison => 0

/-- The zero word, tag 0x00. -/
def Word.zero : Word := ⟨0, 0⟩

/-- A sparse table of plain data: pairs of a number and an entry. Its canonical form (numbers strictly rising, no entry
equal to the table's default) is `Sys2Proof.Machine.twf`. -/
abbrev Tbl (α : Type) := List (Nat × α)

end Sys2Proof
end

