-- ==== Sys2Proof/Operand.lean ====
section
/-! DEFINITION. The operand types of the commands: the raw fields of instruction words (Table 4-4), cache-line and snoop-filter states, and the
coherence messages of Table 10-4. -/
set_option autoImplicit false
namespace Sys2Proof
/-- The fields of an R-format word below OP (Table 4-4). -/
structure ROp where
  rd : BitVec 5
  ra : BitVec 5
  rb : BitVec 5
  md : BitVec 7
  deriving DecidableEq, Repr
/-- The fields of an I12-format word below OP (Table 4-4). -/
structure IOp where
  rd : BitVec 5
  ra : BitVec 5
  imm : BitVec 12
  deriving DecidableEq, Repr
/-- The fields of an I17-format word below OP (Table 4-4). -/
structure I17Op where
  rd : BitVec 5
  imm : BitVec 17
  deriving DecidableEq, Repr
/-- The two forms of a class 0x6 or 0x7 access: base and offset, or base and scaled index (Tables 5-2 and 5-3). -/
inductive MemForm where
  | imm (o : IOp)
  | idx (o : ROp)
  deriving DecidableEq, Repr

/-- States of a cache line (Table 10-3). -/
inductive LineState where
  | m | o | e | s
  deriving DecidableEq, Repr

/-- States of a snoop-filter entry (Table 10-2). -/
inductive SfState where
  | s | x | o
  deriving DecidableEq, Repr

/-- The agents that send and receive coherence messages (Table 10-4). Tiles and LLC slices are numbered 32 × die + die
index. -/
inductive Agent where
  | tile (lt : Nat)
  | llc (lt : Nat)
  | home (i : Nat)
  | socket (n : Nat)
  | iommu (i : Nat)
  /-- A non-caching agent: kiosk, port or Urn half, by a number of the sender. -/
  | nca (n : Nat)
  deriving DecidableEq, Repr

/-- The kinds of coherence message (Table 10-4). -/
inductive MsgKind where
  | rdS | rdX | upg | rdNC | wrInv | wbM | evC | fwdS | fwdX | inv | data | ack | cmp | wbAck | nack
  deriving DecidableEq, Repr

/-- A grant carried by Data (Table 10-4). -/
inductive Grant where
  | none | s | e | m
  deriving DecidableEq, Repr

/-- A coherence message (Table 10-4): its line (PA[51:7]), world, the byte mask and words it carries, the D and NC flags,
the grant, whether it is a retried request (R321), whether a PL3 access made it, the core whose load, fetch or
walk made it, and in a Nack the kind of the refused request. -/
structure Msg where
  kind : MsgKind
  src : Agent
  dst : Agent
  line : Nat
  walled : Bool
  pl3 : Bool
  retried : Bool
  nc : Bool
  dirty : Bool
  grant : Grant
  mask : Nat
  data : List Word
  core : Option Nat
  refused : MsgKind
  deriving DecidableEq, Repr

/-- Who makes a queue operation (R406). Kiosks 0 to 255 by logical tile, 256 to 511 hub kiosks; a doorbell by its
requester ID; `hardware` is the Urn itself, the Gatehouse or an error record bank. -/
inductive QWho where
  | core (lc : Nat)
  | kiosk (k ctx : Nat)
  | function (rid : Nat)
  /-- A core's SYSWR to s.ipi (R197). -/
  | ipi (lc : Nat)
  | hardware
  deriving DecidableEq, Repr

/-- A mesh flit (R376): its header (Table 12-2) and its four payload words. -/
structure Flit where
  header : BitVec 32
  payload : List Word
  deriving DecidableEq, Repr

/-- The fields of a Kiosk R-format word below OP (Table 14-2). -/
structure KR where
  rd : BitVec 4
  ra : BitVec 4
  rb : BitVec 4
  fn : BitVec 14
  deriving DecidableEq, Repr
/-- The fields of a Kiosk I-format word below OP. -/
structure KI where
  rd : BitVec 4
  ra : BitVec 4
  imm : BitVec 18
  deriving DecidableEq, Repr
/-- The fields of a Kiosk J-format word below OP. -/
structure KJ where
  rd : BitVec 4
  off : BitVec 22
  deriving DecidableEq, Repr
/-- The fields of a Kiosk B-format word below OP. -/
structure KB where
  a : Bool
  h : Bool
  cond : BitVec 3
  ra : BitVec 4
  rb : BitVec 4
  off : BitVec 13
  deriving DecidableEq, Repr

/-- An inbound memory request at a root port: the root port, the requester ID, its PASID if it has one, the address, whether it
writes, its length in bytes, its data in 64-bit pieces from the first byte on, and whether it is poisoned (EP). -/
structure Tlp where
  rp : Nat
  rid : Nat
  pasid : Option Nat
  addr : Nat
  write : Bool
  size : Nat
  data : List (BitVec 64)
  poison : Bool
  deriving DecidableEq, Repr

/-- Who makes a control-space access (Table 12-6, TRL_BUSERR_INFO): IKIND, the number of the initiator, and its world. -/
structure CtlWho where
  kind : Nat
  num : Nat
  walled : Bool
  deriving DecidableEq, Repr

/-- The arrays whose errors R290 handles. -/
inductive CacheId where
  | l2 | llc | vb
  deriving DecidableEq, Repr

/-- An error found in a word or tag of a cache line as it is read (R290, R291): the cache, the tile or slice, the entry
(16 × set + way, or the position in the victim buffer), the word (16 for the tag, state or presence entry), and whether
it is uncorrectable. -/
structure CacheErr where
  cache : CacheId
  lt : Nat
  entry : Nat
  word : Nat
  dbl : Bool
  deriving DecidableEq, Repr

/-- What a mismatch found (R262 to R265): whether the pair comparison found it, the register words that failed parity in one core
only, whether the same register failed in both, the L1 lines with parity errors, and whether re-execution reached a logged access
with a different request. -/
structure Mismatch where
  pair : Bool
  resync : Nat
  both : Bool
  lines : List Nat
  replay : Bool
  deriving DecidableEq, Repr

/-- What the SPD of a DIMM says (R340, Table 11-1): the module, 1 RDIMM or 2 MRDIMM, x8 devices, whether it is an 80-bit ECC module,
the density in Gb, the ranks, the highest data rate in MT/s, and the serial number. -/
structure Spd where
  kind : Nat
  x8 : Bool
  ecc : Bool
  gb : Nat
  ranks : Nat
  rate : Nat
  serial : Nat
  deriving DecidableEq, Repr

/-- The kinds of TLBI (Table 6-2). -/
inductive TlbiKind where
  | va | asid | all | vmid | ipa
  deriving DecidableEq, Repr

/-- A TLBI as its targets see it (R208): kind, the issuing level and world, the VMID it is limited to, and its operands. -/
structure TlbiOp where
  kind : TlbiKind
  level : Nat
  walled : Bool
  vm : Option Nat
  va : Nat
  id : Nat
  deriving DecidableEq, Repr

/-- What reaches a core as a broadcast TLBI (R209): that of core src of this package; that of core src of socket n, numbered k by its
socket, which this package has received already; one that a Footbridge brings now; or socket n's report that TLBI k of the core it reaches
has been done there. -/
inductive TlbiFrom where
  | core (src : Nat)
  | peer (n src k : Nat)
  | link (n src k : Nat) (op : TlbiOp)
  | done (n k : Nat)
  deriving DecidableEq, Repr

/-- What a self-test covers (R573): a tile stop with everything that belongs to it, by 34 × die + scan index, or an uncore node by its
node ID. -/
inductive TestUnit where
  | tile (stop : Nat)
  | node (id : Nat)
  deriving DecidableEq, Repr

end Sys2Proof
end

