-- ==== Sys2Proof/Syntax.lean ====
section
/-! DEFINITION. The commands of the PM-8512 and their operands: one constructor of Instr per row of the spec's command
table. A core or kiosk instruction is commanded by the core or kiosk that runs it and the raw fields of its word (R100,
R436); an event of another unit names the unit and what it carries. -/
set_option autoImplicit false
namespace Sys2Proof

/-- The commands of the PM-8512, one constructor per row of the spec's command table. -/
inductive Instr where
  /-- SYSRD (R178): Reads system register n into gd with data class and tag 0x00, subject to level checks. -/
  | sysrd (lc : Nat) (o : IOp)
  /-- SYSWR (R178): Writes the value bits of ga to system register n; serialising; RO fields are unchanged. -/
  | syswr (lc : Nat) (o : IOp)
  /-- IPI_SEND (R197): A SYSWR to s.ipi sends an IPI entry to the named core and socket; it retires with OK, NO_CORE
    or FULL in s.ipistat. -/
  | ipiSend (lc : Nat) (rd : BitVec 5) (ra : BitVec 5)
  /-- ERET (R181): Returns from PLn to s.estatus[n].pl with its IE and the same world, at s.epc[n]. -/
  | eret (lc : Nat) (o : ROp)
  /-- SCALL (R180): Raises the SCALL exception to PL1 carrying IMM12. -/
  | scall (lc : Nat) (o : IOp)
  /-- HCALL (R180): Raises the HCALL exception to PL2 carrying IMM12. -/
  | hcall (lc : Nat) (o : IOp)
  /-- WCALL (R500): At commit, enters the PL3 monitor in the Walled world, with the world-switch flushes. -/
  | wcall (lc : Nat) (o : IOp)
  /-- WRET (R182): Returns from PL3 to the Open world at s.epc3, with the world-switch flushes. -/
  | wret (lc : Nat) (o : ROp)
  /-- MKPTR (R179): Makes a pointer-class copy of ga; at PL0 only for a colour allowed by s.ptrcap. -/
  | mkptr (lc : Nat) (o : ROp)
  /-- TLBI_VA (R208): Removes translations of an address for an ASID, locally or broadcast. -/
  | tlbiVa (lc : Nat) (o : ROp)
  /-- TLBI_ASID (R208): Removes non-global translations of an ASID. -/
  | tlbiAsid (lc : Nat) (o : ROp)
  /-- TLBI_ALL (R208): Removes all translations in the scope of the issuing level. -/
  | tlbiAll (lc : Nat) (o : ROp)
  /-- TLBI_VMID (R208): Removes PL0 and PL1 translations tagged with a VMID. -/
  | tlbiVmid (lc : Nat) (o : ROp)
  /-- TLBI_IPA (R208): Removes stage-2 translations of an IPA and the combined entries built from them. -/
  | tlbiIpa (lc : Nat) (o : ROp)
  /-- TLBI_REMOTE (R212): A broadcast TLBI reaches a target core, which removes the entries and discards any walk that
    read an old entry. -/
  | tlbiRemote (src : TlbiFrom) (dst : Nat)
  /-- TLBSYNC (R210): Waits until every earlier TLBI is done on all targets and the accesses that used removed
    translations are performed. -/
  | tlbsync (lc : Nat) (o : ROp)
  /-- ADD (R109): Adds ga and gb, giving pointer class from pointer plus data under R64; optional overflow trap. -/
  | add (lc : Nat) (o : ROp)
  /-- SUB (R109): Subtracts gb from ga with data class; optional overflow trap. -/
  | sub (lc : Nat) (o : ROp)
  /-- ADDW (R109): 32-bit add, sign-extended. -/
  | addw (lc : Nat) (o : ROp)
  /-- SUBW (R109): 32-bit subtract, sign-extended. -/
  | subw (lc : Nat) (o : ROp)
  /-- AND (R109): Bitwise AND of ga and gb. -/
  | and (lc : Nat) (o : ROp)
  /-- OR (R109): Bitwise OR of ga and gb. -/
  | or (lc : Nat) (o : ROp)
  /-- XOR (R109): Bitwise XOR of ga and gb. -/
  | xor (lc : Nat) (o : ROp)
  /-- ANDN (R109): ga AND NOT gb. -/
  | andn (lc : Nat) (o : ROp)
  /-- ORN (R109): ga OR NOT gb. -/
  | orn (lc : Nat) (o : ROp)
  /-- XNOR (R109): NOT (ga XOR gb). -/
  | xnor (lc : Nat) (o : ROp)
  /-- MIN (R109): Signed minimum. -/
  | min (lc : Nat) (o : ROp)
  /-- MAX (R109): Signed maximum. -/
  | max (lc : Nat) (o : ROp)
  /-- MINU (R109): Unsigned minimum. -/
  | minu (lc : Nat) (o : ROp)
  /-- MAXU (R109): Unsigned maximum. -/
  | maxu (lc : Nat) (o : ROp)
  /-- MUL (R110): Low 64 bits of the product; optional overflow trap. -/
  | mul (lc : Nat) (o : ROp)
  /-- MULH (R109): High 64 bits of the signed product. -/
  | mulh (lc : Nat) (o : ROp)
  /-- MULHU (R109): High 64 bits of the unsigned product. -/
  | mulhu (lc : Nat) (o : ROp)
  /-- MULHSU (R109): High 64 bits of signed times unsigned. -/
  | mulhsu (lc : Nat) (o : ROp)
  /-- MULW (R110): 32-bit product, sign-extended; optional overflow trap. -/
  | mulw (lc : Nat) (o : ROp)
  /-- DIV (R111): Signed quotient; zero divisor and overflow give fixed results or traps. -/
  | div (lc : Nat) (o : ROp)
  /-- DIVU (R111): Unsigned quotient. -/
  | divu (lc : Nat) (o : ROp)
  /-- REM (R111): Signed remainder. -/
  | rem (lc : Nat) (o : ROp)
  /-- REMU (R111): Unsigned remainder. -/
  | remu (lc : Nat) (o : ROp)
  /-- MOV (R112): Copies all 72 bits of ga; a system source at PL0 becomes data. -/
  | mov (lc : Nat) (o : ROp)
  /-- CLZ (R109): Leading zero count. -/
  | clz (lc : Nat) (o : ROp)
  /-- CTZ (R109): Trailing zero count. -/
  | ctz (lc : Nat) (o : ROp)
  /-- POPC (R109): Population count. -/
  | popc (lc : Nat) (o : ROp)
  /-- REV (R109): Byte reversal. -/
  | rev (lc : Nat) (o : ROp)
  /-- ADDI (R113): Adds a sign-extended immediate, keeping pointer class from a pointer ga. -/
  | addi (lc : Nat) (o : IOp)
  /-- ADDIW (R113): 32-bit immediate add, sign-extended. -/
  | addiw (lc : Nat) (o : IOp)
  /-- ANDI (R113): AND with an immediate. -/
  | andi (lc : Nat) (o : IOp)
  /-- ORI (R113): OR with an immediate. -/
  | ori (lc : Nat) (o : IOp)
  /-- XORI (R113): XOR with an immediate. -/
  | xori (lc : Nat) (o : IOp)
  /-- LI (R113): Loads a sign-extended 17-bit immediate. -/
  | li (lc : Nat) (o : I17Op)
  /-- ADDPC (R114): Writes PC plus a word offset. -/
  | addpc (lc : Nat) (o : I17Op)
  /-- ADDPC_H (R114): Writes the PC page plus a shifted immediate. -/
  | addpcH (lc : Nat) (o : I17Op)
  /-- MOVK (R113): Replaces one 16-bit field of gd with an immediate. -/
  | movk (lc : Nat) (k : BitVec 2) (o : I17Op)
  /-- SHL (R115): Shift left by the low bits of gb. -/
  | shl (lc : Nat) (o : ROp)
  /-- SHR (R115): Logical shift right by gb. -/
  | shr (lc : Nat) (o : ROp)
  /-- SRA (R115): Arithmetic shift right by gb. -/
  | sra (lc : Nat) (o : ROp)
  /-- ROR (R115): Rotate right by gb. -/
  | ror (lc : Nat) (o : ROp)
  /-- SHLW (R115): 32-bit shift left, sign-extended. -/
  | shlw (lc : Nat) (o : ROp)
  /-- SHRW (R115): 32-bit logical shift right, sign-extended. -/
  | shrw (lc : Nat) (o : ROp)
  /-- SRAW (R115): 32-bit arithmetic shift right. -/
  | sraw (lc : Nat) (o : ROp)
  /-- SHLI (R115): Shift left by an immediate. -/
  | shli (lc : Nat) (o : ROp)
  /-- SHRI (R115): Logical shift right by an immediate. -/
  | shri (lc : Nat) (o : ROp)
  /-- SRAI (R115): Arithmetic shift right by an immediate. -/
  | srai (lc : Nat) (o : ROp)
  /-- RORI (R115): Rotate right by an immediate. -/
  | rori (lc : Nat) (o : ROp)
  /-- SHLIW (R115): 32-bit shift left by an immediate. -/
  | shliw (lc : Nat) (o : ROp)
  /-- SHRIW (R115): 32-bit logical shift right by an immediate. -/
  | shriw (lc : Nat) (o : ROp)
  /-- SRAIW (R115): 32-bit arithmetic shift right by an immediate. -/
  | sraiw (lc : Nat) (o : ROp)
  /-- EXT (R117): Extracts a bit field, zero-extended. -/
  | ext (lc : Nat) (o : IOp)
  /-- EXTS (R117): Extracts a bit field, sign-extended. -/
  | exts (lc : Nat) (o : IOp)
  /-- INS (R117): Inserts the low bits of ga into a field of gd. -/
  | ins (lc : Nat) (o : IOp)
  /-- CMP_CC (R119): Writes 1 or 0 by condition cc; poison operands give poison. -/
  | cmpCc (lc : Nat) (cc : BitVec 3) (o : ROp)
  /-- CMPI_CC (R119): Compare with an immediate into gd. -/
  | cmpiCc (lc : Nat) (cc : BitVec 3) (o : IOp)
  /-- CMPP_CC (R120): Compare into a predicate, 0xFF or 0x00, poison into PZ. -/
  | cmppCc (lc : Nat) (cc : BitVec 3) (o : ROp)
  /-- CMPPI_CC (R120): Compare with an immediate into a predicate. -/
  | cmppiCc (lc : Nat) (cc : BitVec 3) (o : IOp)
  /-- SEL (R121): Selects ga or gb by a predicate; consumes a poisoned predicate. -/
  | sel (lc : Nat) (o : ROp)
  /-- PAND (R122): Predicate AND, carrying PZ. -/
  | pand (lc : Nat) (o : ROp)
  /-- POR (R122): Predicate OR, carrying PZ. -/
  | por (lc : Nat) (o : ROp)
  /-- PXOR (R122): Predicate XOR, carrying PZ. -/
  | pxor (lc : Nat) (o : ROp)
  /-- PANDN (R122): Predicate AND NOT, carrying PZ. -/
  | pandn (lc : Nat) (o : ROp)
  /-- MOVP (R122): Moves a predicate into a general register, poison as poison. -/
  | movp (lc : Nat) (o : ROp)
  /-- PMOV (R122): Moves a general register into a predicate, poison into PZ. -/
  | pmov (lc : Nat) (o : ROp)
  /-- BT (R124): Branches when bit 0 of pn is 1; a poisoned predicate raises poison-consumption. -/
  | bt (lc : Nat) (n : BitVec 3) (h : Bool) (off : BitVec 22)
  /-- BF (R124): Branches when bit 0 of pn is 0; a poisoned predicate raises poison-consumption. -/
  | bf (lc : Nat) (n : BitVec 3) (h : Bool) (off : BitVec 22)
  /-- B (R123): Branches always by OFF22. -/
  | b (lc : Nat) (off : BitVec 22)
  /-- BL (R127): Writes the link to g31 and branches. -/
  | bl (lc : Nat) (off : BitVec 22)
  /-- JRL (R126): Writes the link to gd and jumps to the target in ga. -/
  | jrl (lc : Nat) (o : ROp)
  /-- RET (R126): Jumps to the target in ga. -/
  | ret (lc : Nat) (o : ROp)
  /-- LD_B (R135): Loads a byte, sign-extended. -/
  | ldB (lc : Nat) (m : MemForm)
  /-- LD_BU (R135): Loads a byte, zero-extended. -/
  | ldBu (lc : Nat) (m : MemForm)
  /-- LD_H (R135): Loads a half-word, sign-extended. -/
  | ldH (lc : Nat) (m : MemForm)
  /-- LD_HU (R135): Loads a half-word, zero-extended. -/
  | ldHu (lc : Nat) (m : MemForm)
  /-- LD_W (R135): Loads a word, sign-extended. -/
  | ldW (lc : Nat) (m : MemForm)
  /-- LD_WU (R135): Loads a word, zero-extended. -/
  | ldWu (lc : Nat) (m : MemForm)
  /-- LD_D (R135): Loads a doubleword with its class. -/
  | ldD (lc : Nat) (m : MemForm)
  /-- LDT (R135): Loads a doubleword with class and payload, system class at PL1 and above. -/
  | ldt (lc : Nat) (m : MemForm)
  /-- ST_B (R136): Stores a byte as a sub-word store. -/
  | stB (lc : Nat) (m : MemForm)
  /-- ST_H (R136): Stores a half-word as a sub-word store. -/
  | stH (lc : Nat) (m : MemForm)
  /-- ST_W (R136): Stores a word as a sub-word store. -/
  | stW (lc : Nat) (m : MemForm)
  /-- ST_D (R68): Stores a doubleword with its class, system written as data. -/
  | stD (lc : Nat) (m : MemForm)
  /-- STT (R68): Stores a doubleword with its class, system only at PL1 and above. -/
  | stt (lc : Nat) (m : MemForm)
  /-- ST_NT (R137): Stores as ST.D, weakly ordered with a no-allocate hint. -/
  | stNt (lc : Nat) (m : MemForm)
  /-- AMO_ADD (R145): Atomically adds gb to the memory word and returns the old word. -/
  | amoAdd (lc : Nat) (o : ROp)
  /-- AMO_SWP (R145): Atomically swaps gb with the memory word. -/
  | amoSwp (lc : Nat) (o : ROp)
  /-- AMO_CAS (R146): Atomically writes gb when the old value equals the comparison value. -/
  | amoCas (lc : Nat) (o : ROp)
  /-- AMO_MAX (R145): Atomic maximum, signed or unsigned. -/
  | amoMax (lc : Nat) (o : ROp)
  /-- AMO_MIN (R145): Atomic minimum, signed or unsigned. -/
  | amoMin (lc : Nat) (o : ROp)
  /-- AMO_AND (R145): Atomic AND, optionally keeping system class. -/
  | amoAnd (lc : Nat) (o : ROp)
  /-- AMO_OR (R145): Atomic OR, optionally keeping system class. -/
  | amoOr (lc : Nat) (o : ROp)
  /-- AMO_XOR (R145): Atomic XOR, optionally keeping system class. -/
  | amoXor (lc : Nat) (o : ROp)
  /-- LDCOL (R141): Reads the colour of the word at an address. -/
  | ldcol (lc : Nat) (o : IOp)
  /-- STCOL (R140): Sets the colour of a word or a whole line. -/
  | stcol (lc : Nat) (o : ROp)
  /-- CLASS (R143): Writes the tag byte of ga as a value. -/
  | class (lc : Nat) (o : ROp)
  /-- POISON (R139): Writes a poison value with code 0x07. -/
  | poison (lc : Nat) (o : ROp)
  /-- MKDATA (R142): Writes the value of ga as data with tag 0x00. -/
  | mkdata (lc : Nat) (o : ROp)
  /-- MKSYS (R142): Writes the value of ga as system class with a payload, privileged. -/
  | mksys (lc : Nat) (o : IOp)
  /-- CMO_CLN (R155): Writes back dirty copies of the line everywhere; copies stay clean. -/
  | cmoCln (lc : Nat) (o : IOp)
  /-- CMO_INV (R155): Discards all copies of the line; at PL0 acts as CMO.CLI. -/
  | cmoInv (lc : Nat) (o : IOp)
  /-- CMO_CLI (R155): Writes back and discards all copies of the line. -/
  | cmoCli (lc : Nat) (o : IOp)
  /-- PREF_L (R157): Prefetch hint for reading, acting at retirement. -/
  | prefL (lc : Nat) (o : IOp)
  /-- PREF_S (R157): Prefetch hint for writing, acting at retirement. -/
  | prefS (lc : Nat) (o : IOp)
  /-- CMO_SET (R306): Cleans and/or invalidates the named set and way of a cache. -/
  | cmoSet (lc : Nat) (o : ROp)
  /-- FENCE_L (R152): Orders older loads before younger accesses. -/
  | fenceL (lc : Nat) (o : ROp)
  /-- FENCE_S (R152): Orders older stores before younger stores, pushes and CMOs. -/
  | fenceS (lc : Nat) (o : ROp)
  /-- FENCE_A (R152): Orders every older access before every younger access. -/
  | fenceA (lc : Nat) (o : ROp)
  /-- FENCE_I (R153): Makes later fetches see the core's stores and observed stores. -/
  | fenceI (lc : Nat) (o : ROp)
  /-- FENCE_D (R152): Waits for device and control-space accesses to complete at their targets. -/
  | fenceD (lc : Nat) (o : ROp)
  /-- QPUSH (R158): Pushes one entry to a queue, optionally waiting. -/
  | qpush (lc : Nat) (o : ROp)
  /-- QPOP (R158): Removes the head entry of a queue, optionally waiting. -/
  | qpop (lc : Nat) (o : ROp)
  /-- QPEEK (R158): Reads the head entry without removing it. -/
  | qpeek (lc : Nat) (o : ROp)
  /-- QWAIT (R158): Waits until a queue holds an entry, with an optional timeout. -/
  | qwait (lc : Nat) (o : ROp)
  /-- QUEUE_ANSWER (R161): The Urn's answer to a waiting or pending queue operation arrives and the instruction
    completes with its status. -/
  | queueAnswer (lc : Nat)
  /-- QWAIT_TIMEOUT (R161): The timebase passes a QWAIT's timeout with the queue empty, ending it with TIMEOUT. -/
  | qwaitTimeout (lc : Nat)
  /-- QUEUE_CANCEL (R408): A core about to take an interrupt cancels its waiting queue operation and receives
    INTERRUPTED or OK. -/
  | queueCancel (lc : Nat)
  /-- VADD (R167): Vector element add; pointer class from pointer plus data at 64-bit. -/
  | vadd (lc : Nat) (o : ROp)
  /-- VSUB (R167): Vector element subtract. -/
  | vsub (lc : Nat) (o : ROp)
  /-- VMUL (R167): Vector low product. -/
  | vmul (lc : Nat) (o : ROp)
  /-- VMULH (R167): Vector signed high product. -/
  | vmulh (lc : Nat) (o : ROp)
  /-- VMULHU (R167): Vector unsigned high product. -/
  | vmulhu (lc : Nat) (o : ROp)
  /-- VAND (R167): Vector bitwise AND. -/
  | vand (lc : Nat) (o : ROp)
  /-- VOR (R167): Vector bitwise OR. -/
  | vor (lc : Nat) (o : ROp)
  /-- VXOR (R167): Vector bitwise XOR. -/
  | vxor (lc : Nat) (o : ROp)
  /-- VANDN (R167): Vector AND NOT. -/
  | vandn (lc : Nat) (o : ROp)
  /-- VMIN (R167): Vector signed minimum. -/
  | vmin (lc : Nat) (o : ROp)
  /-- VMAX (R167): Vector signed maximum. -/
  | vmax (lc : Nat) (o : ROp)
  /-- VMINU (R167): Vector unsigned minimum. -/
  | vminu (lc : Nat) (o : ROp)
  /-- VMAXU (R167): Vector unsigned maximum. -/
  | vmaxu (lc : Nat) (o : ROp)
  /-- VSHL (R167): Vector shift left per element. -/
  | vshl (lc : Nat) (o : ROp)
  /-- VSHR (R167): Vector logical shift right per element. -/
  | vshr (lc : Nat) (o : ROp)
  /-- VSRA (R167): Vector arithmetic shift right per element. -/
  | vsra (lc : Nat) (o : ROp)
  /-- VCMPP_CC (R167): Vector compare into a predicate. -/
  | vcmppCc (lc : Nat) (cc : BitVec 3) (o : ROp)
  /-- VSPLAT (R167): Copies ga into every active lane. -/
  | vsplat (lc : Nat) (o : ROp)
  /-- VGET (R167): Copies one lane into gd. -/
  | vget (lc : Nat) (o : ROp)
  /-- VPUT (R167): Copies ga into one lane. -/
  | vput (lc : Nat) (o : ROp)
  /-- VPERM (R167): Permutes lanes by an index vector. -/
  | vperm (lc : Nat) (o : ROp)
  /-- VREDADD (R167): Sums the active lanes into lane 0. -/
  | vredadd (lc : Nat) (o : ROp)
  /-- VSEL (R167): Selects lanes by the predicate. -/
  | vsel (lc : Nat) (o : ROp)
  /-- VFADD (R168): Vector FP add. -/
  | vfadd (lc : Nat) (o : ROp)
  /-- VFSUB (R168): Vector FP subtract. -/
  | vfsub (lc : Nat) (o : ROp)
  /-- VFMUL (R168): Vector FP multiply. -/
  | vfmul (lc : Nat) (o : ROp)
  /-- VFDIV (R168): Vector FP divide. -/
  | vfdiv (lc : Nat) (o : ROp)
  /-- VFSQRT (R168): Vector FP square root. -/
  | vfsqrt (lc : Nat) (o : ROp)
  /-- VFMA (R168): Fused multiply-add. -/
  | vfma (lc : Nat) (o : ROp)
  /-- VFMS (R168): Fused multiply-subtract. -/
  | vfms (lc : Nat) (o : ROp)
  /-- VFNMA (R168): Fused negated multiply-add. -/
  | vfnma (lc : Nat) (o : ROp)
  /-- VFMIN (R168): FP minimumNumber. -/
  | vfmin (lc : Nat) (o : ROp)
  /-- VFMAX (R168): FP maximumNumber. -/
  | vfmax (lc : Nat) (o : ROp)
  /-- VFABS (R168): Clears the sign. -/
  | vfabs (lc : Nat) (o : ROp)
  /-- VFNEG (R168): Inverts the sign. -/
  | vfneg (lc : Nat) (o : ROp)
  /-- VFCMPP (R168): FP compare EQ, LT, LE or UN into a predicate. -/
  | vfcmpp (lc : Nat) (rel : BitVec 2) (o : ROp)
  /-- VFCVT (R168): Converts element 0 of each lane to another format. -/
  | vfcvt (lc : Nat) (o : ROp)
  /-- VFCVTI (R168): Converts FP to integer in the current rounding mode. -/
  | vfcvti (lc : Nat) (o : ROp)
  /-- VFCVTZ (R168): Converts FP to integer rounding towards zero. -/
  | vfcvtz (lc : Nat) (o : ROp)
  /-- VLD (R171): Loads eight consecutive words. -/
  | vld (lc : Nat) (o : IOp)
  /-- VST (R171): Stores eight consecutive words. -/
  | vst (lc : Nat) (o : IOp)
  /-- VLDP (R171): Predicated contiguous vector load. -/
  | vldp (lc : Nat) (o : ROp)
  /-- VSTP (R171): Predicated contiguous vector store. -/
  | vstp (lc : Nat) (o : ROp)
  /-- VLDS (R171): Strided vector load. -/
  | vlds (lc : Nat) (o : ROp)
  /-- VSTS (R171): Strided vector store. -/
  | vsts (lc : Nat) (o : ROp)
  /-- VLDX (R171): Indexed vector load. -/
  | vldx (lc : Nat) (o : ROp)
  /-- VSTX (R172): Indexed vector store; higher lane wins on overlap. -/
  | vstx (lc : Nat) (o : ROp)
  /-- STORE_BUFFER_WRITE (R227): A committed store leaves the store buffer and writes the L2 and L1D. -/
  | storeBufferWrite (lc : Nat) (n : Nat)
  /-- MEM_ORDER_SQUASH (R231): A load that overlaps a late-resolved older store or a snooped line is squashed and re-
    executed. -/
  | memOrderSquash (lc : Nat)
  /-- INTERRUPT_TAKEN (R191): At an instruction boundary a pending queue interrupt is taken at its target level. -/
  | interruptTaken (lc : Nat)
  /-- DIRECT_TIMER2_INTERRUPT (R195): A pending P2 direct timer-2 interrupt is taken at PL2. -/
  | directTimer2Interrupt (lc : Nat)
  /-- TIMER_FIRE (R194): A core timer reaches its compare value at a tick, clears ENk and pushes a timer entry or sets
    P2. -/
  | timerFire (lc : Nat) (k : Nat)
  /-- PENDING_STATE_MESSAGE (R414): The tile applies a newer interrupt-queue state message as the core's pending
    state. -/
  | pendingStateMessage (lc : Nat)
  /-- THROTTLE_LEVEL_CHANGE (R246): A governor level reaches a tile and takes effect in core A and then core B. -/
  | throttleLevelChange (lt : Nat)
  /-- MISMATCH (R263): A signature, pair or parity mismatch starts lockstep recovery, or the fatal path on a second
    mismatch. -/
  | mismatch (lt : Nat) (m : Mismatch)
  /-- PAIR_TIMEOUT (R257): No core B copy arrives 8 cycles after core A's copy, which is a mismatch. -/
  | pairTimeout (lt : Nat)
  /-- DEBUG_SPLIT (R269): A debug request in M10 splits a safe-mode arbour and sets LOCKSTEP_BROKEN. -/
  | debugSplit (lt : Nat)
  /-- RDS (R325): A shared read request is served by an LLC or home. -/
  | rds (m : Msg) (errs : List CacheErr)
  /-- RDX (R325): An ownership read request is served by an LLC or home. -/
  | rdx (m : Msg) (errs : List CacheErr)
  /-- UPG (R327): An upgrade request is served, as RdX when the requester lost its copy. -/
  | upg (m : Msg)
  /-- RDNC (R326): A non-caching read is served at the home. -/
  | rdnc (m : Msg)
  /-- WRINV (R326): A non-caching masked write invalidates all copies and writes memory. -/
  | wrinv (m : Msg)
  /-- WBM (R322): A dirty writeback is accepted, applied or held with a blocked line, and acknowledged. -/
  | wbm (m : Msg) (errs : List CacheErr)
  /-- EVC (R322): A clean eviction notice is accepted and acknowledged. -/
  | evc (m : Msg)
  /-- FWDS (R328): A holder answers a shared forward and downgrades. -/
  | fwds (m : Msg)
  /-- FWDX (R328): A holder answers an exclusive forward and invalidates. -/
  | fwdx (m : Msg)
  /-- INV (R328): A holder or IOMMU invalidates its copy and answers Ack. -/
  | inv (m : Msg)
  /-- DATA (R315): Line data arrives at a requester or forwarder with its grant or dirty flag. -/
  | data (m : Msg)
  /-- ACK (R315): An acknowledgement without data arrives. -/
  | ack (m : Msg)
  /-- CMP (R320): A requester's completion unblocks the line at the granting level. -/
  | cmp (m : Msg)
  /-- WBACK (R317): A writeback acknowledgement frees the sender's writeback buffer entry. -/
  | wback (m : Msg)
  /-- NACK (R321): A request is refused for lack of a conflict-queue entry. -/
  | nack (m : Msg)
  /-- NACK_RETRY (R321): 64 cycles after a Nack the requester resends the request marked retried. -/
  | nackRetry
  /-- COHERENCE_TIMEOUT (R337): A home or LLC timer expires; the line is poisoned and the silent agent marked dead. -/
  | coherenceTimeout (a : Agent) (line : Nat)
  /-- WAY_FLUSH_DONE (R293): A way-disable flush ends; HWDIS or DIS applies, PENDING clears and WAY_DONE may set. -/
  | wayFlushDone (lt : Nat) (way : Nat) (llc : Bool)
  /-- L2_FLUSH (R297): Writing L2_CTL.FLUSH starts a full L2 flush. -/
  | l2Flush (lt : Nat)
  /-- LLC_FLUSH (R297): Writing LLC_CTL.FLUSH starts a full flush of the slice and its victim buffer. -/
  | llcFlush (lt : Nat)
  /-- FLUSH_DONE (R297): A full flush removes its last line and sets FLUSH_DONE. -/
  | flushDone (lt : Nat) (llc : Bool)
  /-- L2_WAY_DIS_WRITE (R296): A write to L2_WAY_DIS disables or enables ways, or is refused under R295. -/
  | l2WayDisWrite (lt : Nat) (v : BitVec 64)
  /-- LLC_WAY_DIS_WRITE (R296): A write to LLC_WAY_DIS disables or enables ways, or is refused. -/
  | llcWayDisWrite (lt : Nat) (v : BitVec 64)
  /-- LLC_WALLED_WAYS_WRITE (R300): A Walled write to the mask flushes the changed ways. -/
  | llcWalledWaysWrite (lt : Nat) (v : BitVec 64)
  /-- MASK_DONE (R300): The mask-change flush ends and the ways allocate under the new mask. -/
  | maskDone (lt : Nat)
  /-- CHANNEL_READ (R357): A memory channel serves a line read by granule state, decoding and correcting. -/
  | channelRead (ch : Nat) (chline : Nat) (errs : List (Nat × Nat)) (bad : List Nat) (walled : Bool)
  /-- CHANNEL_WRITE (R357): A memory channel serves a line write, allocating a fill entry for an INVALID granule. -/
  | channelWrite (ch : Nat) (chline : Nat) (ws : List Word) (mask : Nat) (walled : Bool)
  /-- GRANULE_FILL_WRITE (R358): The controller writes a zero line of a FILLING granule; the last one sets the valid
    bit and frees the entry. -/
  | granuleFillWrite (ch : Nat) (g : Nat)
  /-- GRANULE_INIT (R360): The Groundskeeper moves the next INVALID granule to FILLING. -/
  | granuleInit (ch : Nat)
  /-- PATROL_READ (R361): The Groundskeeper issues a patrol read of a VALID line. -/
  | patrolRead (ch : Nat) (errs : List (Nat × Nat)) (bad : List Nat) (late : Bool)
  /-- ZQ_CALIBRATION (R362): Periodic ZQ calibration of a rank. -/
  | zqCalibration (ch : Nat) (rank : Nat)
  /-- DQS_OSCILLATOR_READ (R362): Periodic DQS oscillator read and timing update of a rank. -/
  | dqsOscillatorRead (ch : Nat) (rank : Nat)
  /-- DIMM_TEMPERATURE_READ (R363): Periodic DIMM temperature read, doubling or restoring the refresh rate. -/
  | dimmTemperatureRead (ch : Nat) (dimm : Nat) (t10 : Nat)
  /-- MEM_MARK_WRITE (R346): A write to MEM_MARK sets or clears marks or is refused. -/
  | memMarkWrite (ch : Nat) (v : BitVec 64)
  /-- MEM_RANGE_WRITE (R353): A write to MEM_RANGEn is checked, then copied to every decoder. -/
  | memRangeWrite (n : Nat) (v : BitVec 64)
  /-- FLIT_RECEIVE (R379): A stop decodes a flit's SEC-DED, corrects, forwards or requests a replay, and routes it. -/
  | flitReceive (die : Nat) (st : Nat) (port : Nat) (f : Flit) (err : Nat) (late : Option Nat)
  /-- FLIT_REPLAY (R379): The sending port replays a failed flit; after two replays the flit is poisoned or the head
    lost. -/
  | flitReplay (die : Nat) (st : Nat) (port : Nat) (err : Nat) (late : Option Nat)
  /-- MESH_ROUTE_WRITE (R390): A write to a route or tile-map bank is accepted or refused under R390. -/
  | meshRouteWrite (die : Nat) (bank : Nat) (tilemap : Bool) (idx : Nat) (v : BitVec 64)
  /-- MESH_FLIP_GO (R391): Writing GO starts a flip: checks, then a hold broadcast. -/
  | meshFlipGo
  /-- FLIP_DRAIN_DONE (R391): The held channels drain; the root broadcasts FLIP and RELEASE. -/
  | flipDrainDone
  /-- FLIP_TIMEOUT (R391): The drain limit passes; the flip is abandoned and injection released. -/
  | flipTimeout
  /-- FLIP_DONE (R391): No old-epoch flits remain; BUSY clears and DONE sets. -/
  | flipDone
  /-- POLL (R395): A root POLL reads the drain state of a stop. -/
  | poll (die : Nat) (st : Nat)
  /-- BWR (R395): A root broadcast write to a class of nodes completes when every target answers. -/
  | bwr (die : Nat) (unit : Nat) (off : Nat) (v : BitVec 64)
  /-- REGISTER_WRITE (R47): A write to a register without a row of its own updates fields under their access codes and
    LOCK. -/
  | registerWrite (w : CtlWho) (off : Nat) (size : Nat) (v : BitVec 64) (crc : Nat)
  /-- TRELLIS_TIMEOUT (R44): No completion within 65,536 Trellis cycles ends the access in bus error TIMEOUT. -/
  | trellisTimeout (w : CtlWho) (off : Nat) (write : Bool)
  /-- TRELLIS_REPLAY (R397): A beat failing parity is replayed from the sending hop; three failures fail the link. -/
  | trellisReplay (die : Nat) (unit : Nat) (fails : Nat)
  /-- SNAP (R50): Writing SNAP requests a fresh shadow copy of a slow node. -/
  | snap (w : CtlWho) (die : Nat) (unit : Nat)
  /-- SNAP_DONE (R50): The shadow copy is taken, or the clock is stopped and SNAP_FAIL sets; SNAP clears. -/
  | snapDone (die : Nat) (unit : Nat) (stopped : Bool)
  /-- LOCK (R54): Writing LOCK locks the node's WL fields until reset. -/
  | lock (w : CtlWho) (die : Nat) (unit : Nat)
  /-- GUARD_ARM (R52): A write at G arms a guarded pair register. -/
  | guardArm (w : CtlWho) (node : Option (Nat × Nat)) (v : BitVec 64)
  /-- GUARD_COMMIT (R51): The complement write at G+0x8 commits or discards the pair. -/
  | guardCommit (w : CtlWho) (node : Option (Nat × Nat)) (v : BitVec 64)
  /-- GUARD_WINDOW_EXPIRY (R52): 1,024 Trellis cycles pass without the second write; the pair is discarded. -/
  | guardWindowExpiry (node : Option (Nat × Nat))
  /-- BUSERR_CLEAR (R56): Writing 1 to TRL_BUSERR_INFO.VALID clears the whole bus-error record. -/
  | buserrClear (w : CtlWho)
  /-- URN_PUSH (R404): The Urn serves a push: checks, caddy placement, overflow policy and bindings. -/
  | urnPush (who : QWho) (q : Nat) (ws : List Word) (wait : Bool) (single : Bool)
  /-- URN_POP (R404): The Urn serves a pop from the caddy or the ring. -/
  | urnPop (who : QWho) (q : Nat) (wait : Bool) (single : Bool)
  /-- URN_PEEK (R162): The Urn serves a peek of the head entry. -/
  | urnPeek (who : QWho) (q : Nat) (single : Bool)
  /-- URN_WAIT (R407): The Urn registers a waiting operation or ends it at once on a full waiting list. -/
  | urnWait (who : QWho) (q : Nat)
  /-- CADDY_WRITEBACK_DONE (R404): The Cmp of a caddy entry's WrInv to its ring frees the caddy slot. -/
  | caddyWritebackDone (h : Nat)
  /-- DOORBELL (R410): A PCIe doorbell write pushes an entry or is discarded. -/
  | doorbell (rid : Nat) (walled : Bool) (q : Nat) (ws : List (BitVec 64)) (sized : Bool) (late : Bool)
  /-- MSI (R470): A 4-byte write to the MSI window becomes an MSI interrupt entry. -/
  | msi (i : Nat) (rid : Nat) (off : Nat) (data : Nat) (sized : Bool)
  /-- HOLD_EXPIRY (R411): A held doorbell or MSI exceeds HOLD_US and is discarded with a record. -/
  | holdExpiry (h : Nat)
  /-- QUEUE_ENABLE (R400): A write setting URN_QCFG.EN enables the queue or is refused. -/
  | queueEnable (q : Nat) (v : BitVec 64) (walled : Bool)
  /-- QUEUE_DISABLE (R402): A write clearing EN drains and disables the queue. -/
  | queueDisable (q : Nat)
  /-- QUEUE_DESCRIPTOR_WRITE (R401): A write to an enabled descriptor changes only EN, IBEN and ITARGET or is refused.
    -/
  | queueDescriptorWrite (q : Nat) (base : Bool) (v : BitVec 64) (walled : Bool)
  /-- ADMIT (R422): Runs admission of a timed contract and programs its reservations. -/
  | admitContract (walled : Bool) (pl3 : Bool)
  /-- WITHDRAW (R427): Withdraws a contract; its slots free at the next slot 0. -/
  | withdraw (n : Nat)
  /-- KIOSK_ADD (R440): Kiosk add, pointer plus data giving pointer. -/
  | kioskAdd (k : Nat) (o : KR)
  /-- KIOSK_SUB (R440): Kiosk subtract. -/
  | kioskSub (k : Nat) (o : KR)
  /-- KIOSK_AND (R440): Kiosk bitwise AND. -/
  | kioskAnd (k : Nat) (o : KR)
  /-- KIOSK_OR (R440): Kiosk bitwise OR. -/
  | kioskOr (k : Nat) (o : KR)
  /-- KIOSK_XOR (R440): Kiosk bitwise XOR. -/
  | kioskXor (k : Nat) (o : KR)
  /-- KIOSK_ANDN (R440): Kiosk AND NOT. -/
  | kioskAndn (k : Nat) (o : KR)
  /-- KIOSK_SHL (R440): Kiosk shift left. -/
  | kioskShl (k : Nat) (o : KR)
  /-- KIOSK_SHR (R440): Kiosk logical shift right. -/
  | kioskShr (k : Nat) (o : KR)
  /-- KIOSK_SRA (R440): Kiosk arithmetic shift right. -/
  | kioskSra (k : Nat) (o : KR)
  /-- KIOSK_MIN (R440): Kiosk signed minimum. -/
  | kioskMin (k : Nat) (o : KR)
  /-- KIOSK_MAX (R440): Kiosk signed maximum. -/
  | kioskMax (k : Nat) (o : KR)
  /-- KIOSK_MINU (R440): Kiosk unsigned minimum. -/
  | kioskMinu (k : Nat) (o : KR)
  /-- KIOSK_MAXU (R440): Kiosk unsigned maximum. -/
  | kioskMaxu (k : Nat) (o : KR)
  /-- SLT (R440): Kiosk signed set-less-than. -/
  | slt (k : Nat) (o : KR)
  /-- SLTU (R440): Kiosk unsigned set-less-than. -/
  | sltu (k : Nat) (o : KR)
  /-- KIOSK_MUL (R440): Kiosk low product. -/
  | kioskMul (k : Nat) (o : KR)
  /-- KIOSK_MULHU (R440): Kiosk unsigned high product. -/
  | kioskMulhu (k : Nat) (o : KR)
  /-- KIOSK_MOV (R440): Kiosk 72-bit copy; system becomes data at KP0. -/
  | kioskMov (k : Nat) (o : KR)
  /-- KIOSK_CLZ (R440): Kiosk leading zero count. -/
  | kioskClz (k : Nat) (o : KR)
  /-- KIOSK_POPC (R440): Kiosk population count. -/
  | kioskPopc (k : Nat) (o : KR)
  /-- KIOSK_REV (R440): Kiosk byte reversal. -/
  | kioskRev (k : Nat) (o : KR)
  /-- KIOSK_DIV (R449): Kiosk signed divide as a long operation. -/
  | kioskDiv (k : Nat) (o : KR)
  /-- KIOSK_DIVU (R449): Kiosk unsigned divide as a long operation. -/
  | kioskDivu (k : Nat) (o : KR)
  /-- KIOSK_REM (R449): Kiosk signed remainder as a long operation. -/
  | kioskRem (k : Nat) (o : KR)
  /-- KIOSK_REMU (R449): Kiosk unsigned remainder as a long operation. -/
  | kioskRemu (k : Nat) (o : KR)
  /-- KIOSK_ADDI (R440): Kiosk add immediate. -/
  | kioskAddi (k : Nat) (o : KI)
  /-- KIOSK_ANDI (R440): Kiosk AND immediate. -/
  | kioskAndi (k : Nat) (o : KI)
  /-- KIOSK_ORI (R440): Kiosk OR immediate. -/
  | kioskOri (k : Nat) (o : KI)
  /-- KIOSK_XORI (R440): Kiosk XOR immediate. -/
  | kioskXori (k : Nat) (o : KI)
  /-- KIOSK_SHLI (R440): Kiosk shift left immediate. -/
  | kioskShli (k : Nat) (o : KI)
  /-- KIOSK_SHRI (R440): Kiosk logical shift right immediate. -/
  | kioskShri (k : Nat) (o : KI)
  /-- KIOSK_SRAI (R440): Kiosk arithmetic shift right immediate. -/
  | kioskSrai (k : Nat) (o : KI)
  /-- KIOSK_LI (R440): Kiosk load immediate. -/
  | kioskLi (k : Nat) (o : KI)
  /-- LIH (R440): Replaces one 16-bit field of rd. -/
  | lih (k : Nat) (o : KI)
  /-- LDL (R441): Loads a local data-SRAM word with its tag. -/
  | ldl (k : Nat) (o : KI)
  /-- STL (R441): Stores a local data-SRAM word. -/
  | stl (k : Nat) (o : KI)
  /-- LDM_B (R437): Kiosk memory byte load by RdNC. -/
  | ldmB (k : Nat) (o : KI)
  /-- LDM_H (R437): Kiosk memory half-word load. -/
  | ldmH (k : Nat) (o : KI)
  /-- LDM_W (R437): Kiosk memory word load. -/
  | ldmW (k : Nat) (o : KI)
  /-- LDM_D (R441): Kiosk memory doubleword load with class. -/
  | ldmD (k : Nat) (o : KI)
  /-- STM_B (R438): Kiosk memory byte store by WrInv. -/
  | stmB (k : Nat) (o : KI)
  /-- STM_H (R438): Kiosk memory half-word store. -/
  | stmH (k : Nat) (o : KI)
  /-- STM_W (R438): Kiosk memory word store. -/
  | stmW (k : Nat) (o : KI)
  /-- STM_D (R441): Kiosk memory doubleword store with class. -/
  | stmD (k : Nat) (o : KI)
  /-- KIOSK_CLASS (R440): Kiosk tag byte as value. -/
  | kioskClass (k : Nat) (o : KR)
  /-- KIOSK_MKDATA (R440): Kiosk data-class copy. -/
  | kioskMkdata (k : Nat) (o : KR)
  /-- KIOSK_MKPTR (R433): Kiosk pointer-class copy, KP1 only. -/
  | kioskMkptr (k : Nat) (o : KR)
  /-- KIOSK_MKSYS (R433): Kiosk system-class copy with payload 0x01, KP1 only. -/
  | kioskMksys (k : Nat) (o : KR)
  /-- KIOSK_POISON (R440): Kiosk poison value with code 0x07. -/
  | kioskPoison (k : Nat) (o : KR)
  /-- B_CC (R446): Kiosk compare and branch with a delay slot, optionally annulled. -/
  | bCc (k : Nat) (o : KB)
  /-- J (R446): Kiosk jump with a delay slot. -/
  | j (k : Nat) (o : KJ)
  /-- JAL (R446): Kiosk jump and link with a delay slot. -/
  | jal (k : Nat) (o : KJ)
  /-- JR (R446): Kiosk register jump with link and delay slot. -/
  | jr (k : Nat) (o : KR)
  /-- KQPUSH (R442): Kiosk queue push, optionally waiting. -/
  | kqpush (k : Nat) (o : KR)
  /-- KQPOP (R442): Kiosk queue pop, optionally waiting. -/
  | kqpop (k : Nat) (o : KR)
  /-- KQPEEK (R442): Kiosk queue peek. -/
  | kqpeek (k : Nat) (o : KR)
  /-- KQWAIT (R442): Kiosk wait for a queue entry with timeout. -/
  | kqwait (k : Nat) (o : KR)
  /-- KQBPUSH (R442): Kiosk bulk push as a long operation. -/
  | kqbpush (k : Nat) (o : KR)
  /-- KQBPOP (R442): Kiosk bulk pop as a long operation. -/
  | kqbpop (k : Nat) (o : KR)
  /-- BCOPY (R443): Block copy as a long operation. -/
  | bcopy (k : Nat) (o : KR)
  /-- BFILL (R443): Block fill as a long operation. -/
  | bfill (k : Nat) (o : KR)
  /-- BCRC (R443): CRC-32C of a block as a long operation. -/
  | bcrc (k : Nat) (o : KR)
  /-- BHASH (R443): SHA-256 of a block as a long operation. -/
  | bhash (k : Nat) (o : KR)
  /-- FENCE_K (R451): Waits for the context's long operations and stores. -/
  | fenceK (k : Nat) (o : KR)
  /-- KRDC (R444): Reads a kiosk control register. -/
  | krdc (k : Nat) (o : KR)
  /-- KWRC (R444): Writes a kiosk control register. -/
  | kwrc (k : Nat) (o : KR)
  /-- KRET (R453): Returns from a kiosk handler, or chains to the next pending cause. -/
  | kret (k : Nat) (o : KR)
  /-- YIELD (R444): Ends the running context's slice. -/
  | yield (k : Nat) (o : KR)
  /-- HALT (R444): Waits for older stores and stops the context. -/
  | halt (k : Nat) (o : KR)
  /-- LONG_OPERATION_COMPLETE (R449): A divider, block or bulk-queue operation completes and writes its context's rd.
    -/
  | longOperationComplete (k : Nat) (unit : Nat)
  /-- KIOSK_IMPRECISE_EXCEPTION (R450): A faulted long operation is taken imprecisely at the context's next boundary.
    -/
  | kioskImpreciseException (k : Nat)
  /-- KIOSK_INTERNAL_ERROR (R455): An uncorrectable kiosk register or pipeline error stops all contexts. -/
  | kioskInternalError (k : Nat)
  /-- KIOSK_INTERRUPT_ENTRY (R457): A pending enabled kiosk interrupt is sampled and the handler entered. -/
  | kioskInterruptEntry (k : Nat)
  /-- KTIMER_EXPIRY (R456): KTIME reaches KTIMER and sets the TIMER cause. -/
  | ktimerExpiry (k : Nat)
  /-- CONTEXT_DISPATCH (R434): The kiosk dispatches the next READY context round-robin. -/
  | contextDispatch (k : Nat) (late : Option Nat)
  /-- SLICE_END (R434): A context reaches the end of its slice at an instruction boundary. -/
  | sliceEnd (k : Nat)
  /-- KIOSK_WAKE (R442): The Urn answers a waiting kiosk context, which becomes READY. -/
  | kioskWake (k : Nat) (n : Nat)
  /-- KSK_DOORBELL (R456): A write to KSK_DOORBELL sets KMSG and the DOORBELL cause. -/
  | kskDoorbell (k : Nat) (v : BitVec 64)
  /-- KIOSK_RESET (R460): KSK_CTL.RESET stops all contexts at once and clears registers and faults. -/
  | kioskReset (k : Nat)
  /-- KIOSK_ENABLE (R460): A write to KSK_CTL.EN enables the kiosk or stops every context. -/
  | kioskEnable (k : Nat) (en : Bool)
  /-- KIOSK_WORLD_CHANGE (R432): A change of KSK_CTL.WORLD zeroes both SRAMs and every context register. -/
  | kioskWorldChange (k : Nat) (world : Bool) (walled : Bool)
  /-- SRAM_CLR_DONE (R432): The SRAM zeroing ends and SRAM_CLR clears. -/
  | sramClrDone (k : Nat)
  /-- GO (R431): KSK_CTXn.GO makes a stopped context READY. -/
  | go (k : Nat) (n : Nat)
  /-- STOP (R460): KSK_CTXn.STOP stops a context at its next boundary. -/
  | stop (k : Nat) (n : Nat)
  /-- TLP_MEMORY_REQUEST (R477): An inbound untranslated memory request is translated by the IOMMU and classified. -/
  | tlpMemoryRequest (t : Tlp)
  /-- TRANSLATED_REQUEST (R478): An inbound translated request is accepted from an ATS function or refused. -/
  | translatedRequest (t : Tlp)
  /-- TRANSLATION_REQUEST (R478): An ATS Translation Request returns the stage-combined translation. -/
  | translationRequest (rp : Nat) (rid : Nat) (pasid : Option Nat) (addr : Nat)
  /-- CONFIGURATION_REQUEST (R465): A configuration read or write reaches a function or reads absent as all ones. -/
  | configurationRequest (rid : Nat) (d : Nat) (write : Option (BitVec 32)) (be : Nat) (walled : Bool)
  /-- BME_CLEAR (R485): Clearing Bus Master Enable stops the function's requests once in-flight ones are done. -/
  | bmeClear (rid : Nat) (walled : Bool)
  /-- FLR (R486): A Function Level Reset blocks the function and waits for its outstanding requests. -/
  | flr (rid : Nat)
  /-- FLR_DONE (R486): The function's requests end; kiosks or queues are reset and FLR_DONE sets. -/
  | flrDone (rid : Nat)
  /-- ADDR (R480): IOM_INV ADDR invalidates a range for a routing ID through ATS. -/
  | addr (i : Nat) (rid : Nat) (pasid : Option Nat) (a : Nat) (bits : Nat)
  /-- FUNCTION (R480): IOM_INV FUNCTION invalidates every translation of a routing ID. -/
  | function (i : Nat) (rid : Nat) (pasid : Option Nat)
  /-- SYNC (R480): IOM_INV SYNC waits for earlier translated requests to be performed. -/
  | sync (i : Nat)
  /-- UNBLOCK (R480): IOM_INV UNBLOCK accepts translated requests from a routing ID again. -/
  | unblock (i : Nat) (rid : Nat)
  /-- INVALIDATION_COMPLETE (R480): The last ATS invalidation completion arrives and the command ends. -/
  | invalidationComplete (i : Nat)
  /-- ATS_TIMEOUT (R480): ATS_TO_MS passes before completion; the routing ID is blocked. -/
  | atsTimeout (i : Nat)
  /-- INVALIDATE_REQUEST (R481): A kiosk cluster answers an Invalidate Request after removing entries. -/
  | invalidateRequest (c : Nat) (range : Option (Nat × Nat)) (pasid : Option Nat)
  /-- COMMIT (R483): IOM_PWIN_CTL.COMMIT switches peer-window banks at each ingress's next TLP boundary. -/
  | commit (i : Nat)
  /-- MMIO_COMPLETION_TIMEOUT (R468): A core MMIO read meets a completion timeout and returns all ones. -/
  | mmioCompletionTimeout (rp : Nat)
  /-- CXL_TIMEOUT (R464): A CXL.mem read without response returns poison 0x05 and writes a record. -/
  | cxlTimeout (line : Nat)
  /-- HOT_PLUG_FRAME (R488): Every 8 µs a port exchanges a sideband frame and updates slot status. -/
  | hotPlugFrame (port : Nat) (bits : Nat)
  /-- SLOT_CONTROL_WRITE (R489): A Slot Control write replaces unsent slot outputs. -/
  | slotControlWrite (rp : Nat) (v : Nat)
  /-- LINK_RETRAIN (R490): Eight failed replays start a Footbridge retrain. -/
  | linkRetrain (l : Nat)
  /-- LINK_DOWN (R494): A third failed retrain takes the Footbridge link down until warm reset. -/
  | linkDown (l : Nat)
  /-- WW_RANGE_WRITE (R497): A write to WW_RANGEn is checked and copied to homes, decoders and IOMMUs. -/
  | wwRangeWrite (w : CtlWho) (n : Nat) (v : BitVec 64)
  /-- MONCORE_WRITE (R504): A write to WW_CTL.MONCORE rebinds the monitor queue or is refused. -/
  | moncoreWrite (w : CtlWho) (v : BitVec 64)
  /-- WATCHDOG_START (R508): Writing WW_WDOG_CTL.EN starts the Walled watchdog. -/
  | watchdogStart (w : CtlWho) (v : BitVec 64)
  /-- WDOG_WARN (R508): The remaining time falls to WARN_MS; WARNED sets and a warning is pushed. -/
  | wdogWarn
  /-- WATCHDOG_EXPIRY (R509): The watchdog count reaches PERIOD_MS, setting EXPIRED and causing a warm reset. -/
  | watchdogExpiry
  /-- WALLED_SCRUB_DONE (R509): The scrub of Walled memory ends; key slots clear and the device enters M2. -/
  | walledScrubDone
  /-- PWR_DOM_TARGET (R526): A write to PWR_DOM_CTL.TARGET requests a domain state under latest-wins rules. -/
  | pwrDomTarget (w : CtlWho) (dom : Nat) (v : BitVec 64)
  /-- PWR_TILE_PERF_REQ (R520): A write to PWR_TILE_PERF.REQ requests a performance level. -/
  | pwrTilePerfReq (lt : Nat) (v : BitVec 64)
  /-- PWR_DOM_VOTE (R529): A write to PWR_DOM_VOTE sets or clears votes, Open changes to Walled-held domains refused.
    -/
  | pwrDomVote (w : CtlWho) (dom : Nat) (v : BitVec 64)
  /-- IDLE_TIMER_EXPIRY (R529): A domain idle for TIMER_US requests LOWSTATE. -/
  | idleTimerExpiry (dom : Nat)
  /-- DOMAIN_CHANGE_COMPLETE (R527): A domain state change completes; EPOCH increments and the pending request is
    served. -/
  | domainChangeComplete (dom : Nat)
  /-- LEVEL_CHANGE_COMPLETE (R522): A tile's level change completes after its ramp and hop. -/
  | levelChangeComplete (lt : Nat)
  /-- WAKE (R531): A wake request raises a sleeping domain towards T0. -/
  | wake (dom : Nat)
  /-- HELD_PACKET (R531): A stop holds a packet for a fenced domain, wakes it or answers DOMAIN_OFF. -/
  | heldPacket (dom : Nat) (packet : List Flit) (snoop : Bool) (answer : Bool)
  /-- GOVERNOR_TICK (R515): Every 10 ns the governor evaluates demand and sets the throttle level. -/
  | governorTick (vin : Nat) (v5 : Nat) (iin : Nat) (pin : Nat) (demand : Nat)
  /-- FALL_OVR (R513): The rail at 5.4 V suspends the input fall limit. -/
  | fallOvr
  /-- PACKAGE_CAP_TICK (R521): Each millisecond the package cap moves by average power against TDP_W. -/
  | packageCapTick (avg : Nat)
  /-- THERMAL_CAP_TICK (R521): A tile's thermal cap moves by its junction temperature. -/
  | thermalCapTick (lt : Nat) (tj : Nat)
  /-- M6_ENTRY (R534): The device enters Idle Sleep when every tile is in T2 or deeper. -/
  | m6Entry
  /-- M6_EXIT (R534): A wake event returns the device from M6 to M5. -/
  | m6Exit
  /-- M7_REQ (R535): Writing M7_REQ asks for Deep Sleep, refused or waiting for idle cores. -/
  | m7Req (w : CtlWho)
  /-- M7_ENTRY (R535): Every core becomes idle and the device enters M7. -/
  | m7Entry
  /-- M7_REFUSAL_TIMEOUT (R535): A waiting M7 request is refused after 10 ms without every core idle. -/
  | m7RefusalTimeout
  /-- M7_EXIT (R535): A wake event returns the device from M7 to M5. -/
  | m7Exit
  /-- CLOCK_CHANGE (R537): A write to CLK_CD or CLK_IOD changes a fabric or kiosk frequency or is refused. -/
  | clockChange (die : Nat) (v : BitVec 64)
  /-- CLOCK_CHANGE_DONE (R537): The clock restarts at the new frequency and slot counts restart. -/
  | clockChangeDone (die : Nat)
  /-- VIN_OUT_OF_RANGE (R514): VIN out of range for 20 µs takes the device to M1. -/
  | vinOutOfRange
  /-- STANDBY_LOST (R612): VSTBY below 2.9 V for 10 µs takes the device to M0. -/
  | standbyLost
  /-- STANDBY_RISE (R560): Standby rises within limits; the device enters M1. -/
  | standbyRise
  /-- VIN_VALID (R561): VIN stays within limits for 10 ms and a standing power-on request proceeds to M2. -/
  | vinValid
  /-- TIMESYNC (R540): A TIMESYNC pulse sets, corrects or detects a restart of the timebase. -/
  | timesync (k : Nat)
  /-- TIMESYNC_DRIVE (R540): Socket 0 drives TIMESYNC at each multiple of 2^20 ns. -/
  | timesyncDrive
  /-- CHAIN_FRAME (R617): A chain frame on CHAIN_IN is received and may set the socket ID. -/
  | chainFrame (id : Nat) (parityOk : Bool)
  /-- CHAIN_IN_LOW (R617): CHAIN_IN low for 50 µs gives socket ID 0. -/
  | chainInLow
  /-- CHAIN_OUT_FRAME (R617): Every 20 µs the socket sends its ID frame. -/
  | chainOutFrame
  /-- POWER_ON (R561): Requests M2; stands until VIN is valid and an ID is held. -/
  | powerOn (w : Option CtlWho)
  /-- WARM_RESET (R509): Stops requests, scrubs Walled memory, keeps retained records and re-enters M2. -/
  | warmReset (w : Option CtlWho)
  /-- COLD_RESET (R27): Removes VIN from the internal rails and enters M1, clearing volatile state. -/
  | coldReset (w : Option CtlWho)
  /-- MAINT (R578): Enters Maintenance mode M8. -/
  | maint (w : Option CtlWho)
  /-- MAINT_DONE (R578): Leaves M8 by warm reset. -/
  | maintDone (w : Option CtlWho)
  /-- MFG_TEST (R574): Moves M3 to M11 with secrets cleared and an authorisation. -/
  | mfgTest (w : Option CtlWho)
  /-- DEBUG (R578): Enters M10 on PM-8512-X1 with authorisation. -/
  | debug (w : Option CtlWho)
  /-- DEBUG_RESUME (R578): Returns from M10 to M5. -/
  | debugResume (w : Option CtlWho)
  /-- SVN_COMMIT (R566): Advances the SVN fuse count to the running bundle's SVN. -/
  | svnCommit (w : Option CtlWho)
  /-- RESET_N_FALL (R619): A filtered falling edge of RESET_N is a warm reset in M2 to M10. -/
  | resetNFall
  /-- RESET_N_RISE (R619): RESET_N rising lets the held M2 power-up proceed. -/
  | resetNRise
  /-- FIRMWARE_TRIP (R614): Ten reads at 115 °C act as a cold reset and assert THERMTRIP_N. -/
  | firmwareTrip
  /-- ANALOGUE_TRIP (R614): A sensor at 125 °C acts as a cold reset and asserts THERMTRIP_N. -/
  | analogueTrip
  /-- POWER_UP_STEP_DONE (R562): A power-up step's rails and loops settle and the next step starts. -/
  | powerUpStepDone
  /-- POWER_UP_STEP_TIMEOUT (R562): A power-up step not done in 10 ms holds M2 with reason RAIL. -/
  | powerUpStepTimeout
  /-- SELF_TEST_REQUEST (R570): A self-test starts when conditions hold, otherwise is refused with CONDITIONS. -/
  | selfTestRequest (cond : Bool)
  /-- SELF_TEST_RETRY (R570): Every 1 ms the refused self-test is requested again. -/
  | selfTestRetry (cond : Bool)
  /-- SELF_TEST_CONDITIONS_TIMEOUT (R570): 100 ms without a start holds M3 with reason CONDITIONS. -/
  | selfTestConditionsTimeout
  /-- TEST_RESULT (R572): A test ends and its result is accepted, failed or rejected for a rerun. -/
  | testResult (u : TestUnit) (flag : Bool) (count : Bool) (sig : Bool) (last : Bool) (zero : Bool)
  /-- BRING_UP (R575): In M4 the Gatehouse trains memory, loads the boot image, configures the mesh and enables
    queues. -/
  | bringUp (errs : List (Nat × Nat)) (meshOk : Bool)
  /-- TRAINING_COMPLETE (R340): A channel finishes training or sets TRAIN_FAIL. -/
  | trainingComplete (ch : Nat) (dimms : List Spd) (ok : Bool)
  /-- CORE_START (R576): On entry to M5 every logical core starts at ENTRY_PA. -/
  | coreStart
  /-- GET_VERSION (R568): SPDM GET_VERSION. -/
  | getVersion
  /-- GET_CAPABILITIES (R568): SPDM GET_CAPABILITIES. -/
  | getCapabilities
  /-- NEGOTIATE_ALGORITHMS (R568): SPDM NEGOTIATE_ALGORITHMS. -/
  | negotiateAlgorithms (p384 : Bool) (sha : Bool)
  /-- GET_DIGESTS (R568): SPDM GET_DIGESTS. -/
  | getDigests
  /-- GET_CERTIFICATE (R568): SPDM GET_CERTIFICATE. -/
  | getCertificate (slot : Nat) (off : Nat) (len : Nat)
  /-- CHALLENGE (R568): SPDM CHALLENGE signed by the alias key. -/
  | challenge (slot : Nat) (nonce : List Nat)
  /-- GET_MEASUREMENTS (R568): SPDM GET_MEASUREMENTS with the state record in block 17. -/
  | getMeasurements (block : Nat) (nonce : List Nat) (sign : Bool)
  /-- VENDOR_DEFINED_REQUEST (R574): Delivers an MFGHASH-signed authorisation that sets AUTH_OK. -/
  | vendorDefinedRequest (key : List Nat) (msg : List Nat) (r : Nat) (sg : Nat)
  /-- MEASUREMENT_EXTEND (R567): GH_MEXT_CTL.GO extends a software slot with a digest. -/
  | measurementExtend (w : CtlWho) (slot : Nat)
  /-- GPIO_INPUT_CHANGE (R622): A filtered GPIO input change pushes an event word or a monitor GPIO entry. -/
  | gpioInputChange (pin : Nat) (level : Bool)
  /-- ENTDAA (R620): The I3C target takes a dynamic address by ENTDAA. -/
  | entdaa (addr : Nat)
  /-- SETDASA (R620): The I3C target takes a dynamic address from its static address. -/
  | setdasa (static : Nat) (addr : Nat)
  /-- IDCODE (R621): JTAG IDCODE reads the identification code. -/
  | idcode
  /-- BYPASS (R621): JTAG BYPASS. -/
  | bypass
  /-- SAMPLE_PRELOAD (R621): JTAG SAMPLE/PRELOAD. -/
  | samplePreload
  /-- EXTEST (R621): JTAG EXTEST, acting only in M11. -/
  | extest
  /-- INTEST (R621): JTAG INTEST, acting only in M11. -/
  | intest
  /-- TAP_RESET (R621): TRST_N or five TMS-high cycles reset the TAP. -/
  | tapReset
  /-- AGE_MEASUREMENT (R598): The Groundskeeper measures a tile's ring oscillators on its periodic visit. -/
  | ageMeasurement (lt : Nat) (raw : Nat)
  /-- GUARDBAND_RAMP (R599): 1 s without a level change ramps the tile to its new guardband voltage. -/
  | guardbandRamp (lt : Nat)
  /-- WEAR_UPDATE (R600): The wear balance is debited by time at P0 to P2 and credited hourly, setting or lifting the
    wear cap. -/
  | wearUpdate (lt : Nat) (tj : Nat) (hour : Bool)
  /-- RETIRE (R603): GK_RETIRE_CMD.GO tests spares and moves a die index in M8, or only tests with EXTEST. -/
  | retire (v : BitVec 64) (results : List Bool)
  /-- LIFETIME_RECORD_WRITE (R604): The Gatehouse writes the lifetime record to the older flash copy. -/
  | lifetimeRecordWrite (ok : Bool)
  /-- ROUND (R552): The root announces counter round k to participating nodes, or skips a tick too near. -/
  | round (remote : Option (Nat × Nat))
  /-- ROUND_LATCH (R552): Each unit latches its counters at tick T_k and writes its record. -/
  | roundLatch (late : List Nat)
  /-- ROUND_HEADER_WRITE (R554): At T_k plus 50 µs the root writes the round header. -/
  | roundHeaderWrite
  /-- CLEAR (R558): CNT_TRC_CTL.CLEAR empties the trace buffer and clears FULL. -/
  | clear (die : Nat) (st : Nat)
  /-- REGISTER_READ (R42): A control-space read reaches its node, returns the field values and clears the RC fields it
    reads, or ends in a bus error. -/
  | registerRead (w : CtlWho) (off : Nat) (size : Nat) (crc : Nat)
  /-- PCIE_COMPLETION (R468): A completion TLP from a device arrives at a root port for a downstream request and is
    delivered, turned into all ones, or discarded as late after an FLR. -/
  | pcieCompletion (rp : Nat) (status : Nat) (data : List (BitVec 64)) (poisoned : Bool)
  /-- PCIE_MESSAGE (R463): An inbound Page Request or INTx message is discarded and logged, or an I/O request is
    completed with Unsupported Request. -/
  | pcieMessage (rp : Nat) (rid : Nat) (kind : Nat)
  /-- CXL_MEM_RESPONSE (R82): A CXL.mem read response arrives at the home, delivering data class colour 0 words, or
    poison 0x05 for a half marked poisoned. -/
  | cxlMemResponse (line : Nat) (data : List (BitVec 64)) (lo : Bool) (hi : Bool)
  /-- ROOT_PORT_LINK_CHANGE (R489): A root port link finishes training, or goes down, for example when a card is
    removed while powered. -/
  | rootPortLinkChange (rp : Nat) (up : Bool) (speed : Nat) (width : Nat)
  /-- FOOTBRIDGE_LINK_TRAINED (R492): A Footbridge link completes training or retraining, exchanges socket ID and link
    number with its peer and compares socket ranges. -/
  | footbridgeLinkTrained (l : Nat) (peer : Nat) (plink : Nat) (near : Nat) (same : Bool)
  /-- INTERNAL_RAIL_OUT_OF_RANGE (R590): An internal rail stays more than 10 % from its set point for 10 µs in M4 to
    M10, which is a fatal error. -/
  | internalRailOutOfRange
  /-- GATEHOUSE_STATE_ERROR (R590): An uncorrectable error is detected in Gatehouse state, which is a fatal error. -/
  | gatehouseStateError
  deriving DecidableEq, Repr

end Sys2Proof
end

