-- ==== Sys2Proof/Decode.lean ====
section
/-! DEFINITION. What words spell. The command table gives no row any bits, so no word spells a command by them. A 32-bit Ecyen-72 word
spells an instruction by the tables of its class (R100, R102, R105), a 32-bit Kiosk word by Tables 14-3 and 14-4 (R439). -/
set_option autoImplicit false
namespace Sys2Proof

/-- The command that a word of nbits bits spells by the table's bits: none, because the table gives no bits. -/
def decodeTableWord (nbits w : Nat) : Option Instr :=
  match nbits, w with
  | _, _ => none

/-! ## Instruction words of Ecyen-72 (Tables 4-3 to 4-5) -/

/-- The four formats of Table 4-4, and no format for the reserved class. -/
inductive EcyFormat where
  | r | i12 | i17 | b
  deriving DecidableEq, Repr

/-- CLASS of a word (Table 4-3). -/
def wordClass (w : BitVec 32) : Nat := (w.extractLsb' 28 4).toNat
/-- OP of a word. -/
def wordOp (w : BitVec 32) : Nat := (w.extractLsb' 22 6).toNat
/-- The fields below OP of an R-format word. -/
def wordR (w : BitVec 32) : ROp := ⟨w.extractLsb' 17 5, w.extractLsb' 12 5, w.extractLsb' 7 5, w.extractLsb' 0 7⟩
/-- The fields below OP of an I12-format word. -/
def wordI (w : BitVec 32) : IOp := ⟨w.extractLsb' 17 5, w.extractLsb' 12 5, w.extractLsb' 0 12⟩
/-- The fields below OP of an I17-format word. -/
def wordL (w : BitVec 32) : I17Op := ⟨w.extractLsb' 17 5, w.extractLsb' 0 17⟩
/-- OFF22 of a B-format word. -/
def wordOff (w : BitVec 32) : BitVec 22 := w.extractLsb' 0 22
/-- OP[2:0] of a word, as a condition (Table 4-12). -/
def wordCc (w : BitVec 32) : BitVec 3 := w.extractLsb' 22 3

/-- The formats that the words of a class use (Table 4-5); none for the reserved class 0xF. -/
def classFormats (cls : Nat) : List EcyFormat :=
  match cls with
  | 0x0 | 0x3 | 0x4 | 0x6 | 0x7 | 0x9 | 0xA | 0xB | 0xE => [.r, .i12]
  | 0x1 | 0x8 | 0xC | 0xD => [.r]
  | 0x2 => [.i12, .i17]
  | 0x5 => [.b, .r]
  | _ => []

/-- Class 0x0: system instructions (Table 6-2). A SYSWR to s.ipi, register 0x03C, sends an IPI (R197). -/
def decodeSystem (lc : Nat) (w : BitVec 32) : Option Instr :=
  match wordOp w with
  | 0x01 => some (.sysrd lc (wordI w))
  | 0x02 => some (if (wordI w).imm = 0x03C then .ipiSend lc (wordI w).rd (wordI w).ra else .syswr lc (wordI w))
  | 0x04 => some (.eret lc (wordR w))
  | 0x05 => some (.scall lc (wordI w))
  | 0x06 => some (.hcall lc (wordI w))
  | 0x07 => some (.wcall lc (wordI w))
  | 0x08 => some (.wret lc (wordR w))
  | 0x0C => some (.mkptr lc (wordR w))
  | 0x10 => some (.tlbiVa lc (wordR w))
  | 0x11 => some (.tlbiAsid lc (wordR w))
  | 0x12 => some (.tlbiAll lc (wordR w))
  | 0x13 => some (.tlbiVmid lc (wordR w))
  | 0x14 => some (.tlbiIpa lc (wordR w))
  | 0x18 => some (.tlbsync lc (wordR w))
  | _ => none

/-- Class 0x1: integer register-register (Table 4-7). -/
def decodeInteger (lc : Nat) (w : BitVec 32) : Option Instr :=
  let o := wordR w
  match wordOp w with
  | 0x00 => some (.add lc o)
  | 0x01 => some (.sub lc o)
  | 0x02 => some (.addw lc o)
  | 0x03 => some (.subw lc o)
  | 0x04 => some (.and lc o)
  | 0x05 => some (.or lc o)
  | 0x06 => some (.xor lc o)
  | 0x07 => some (.andn lc o)
  | 0x08 => some (.orn lc o)
  | 0x09 => some (.xnor lc o)
  | 0x0A => some (.min lc o)
  | 0x0B => some (.max lc o)
  | 0x0C => some (.minu lc o)
  | 0x0D => some (.maxu lc o)
  | 0x10 => some (.mul lc o)
  | 0x11 => some (.mulh lc o)
  | 0x12 => some (.mulhu lc o)
  | 0x13 => some (.mulhsu lc o)
  | 0x14 => some (.mulw lc o)
  | 0x18 => some (.div lc o)
  | 0x19 => some (.divu lc o)
  | 0x1A => some (.rem lc o)
  | 0x1B => some (.remu lc o)
  | 0x20 => some (.mov lc o)
  | 0x21 => some (.clz lc o)
  | 0x22 => some (.ctz lc o)
  | 0x23 => some (.popc lc o)
  | 0x24 => some (.rev lc o)
  | _ => none

/-- Class 0x2: integer immediate (Table 4-10); for MOVK k is OP − 0x0C. -/
def decodeImmediate (lc : Nat) (w : BitVec 32) : Option Instr :=
  match wordOp w with
  | 0x00 => some (.addi lc (wordI w))
  | 0x01 => some (.addiw lc (wordI w))
  | 0x02 => some (.andi lc (wordI w))
  | 0x03 => some (.ori lc (wordI w))
  | 0x04 => some (.xori lc (wordI w))
  | 0x08 => some (.li lc (wordL w))
  | 0x09 => some (.addpc lc (wordL w))
  | 0x0A => some (.addpcH lc (wordL w))
  | 0x0C | 0x0D | 0x0E | 0x0F => some (.movk lc (w.extractLsb' 22 2) (wordL w))
  | _ => none

/-- Class 0x3: shifts and bit fields (Table 4-11). -/
def decodeShift (lc : Nat) (w : BitVec 32) : Option Instr :=
  let o := wordR w
  match wordOp w with
  | 0x00 => some (.shl lc o)
  | 0x01 => some (.shr lc o)
  | 0x02 => some (.sra lc o)
  | 0x03 => some (.ror lc o)
  | 0x04 => some (.shlw lc o)
  | 0x05 => some (.shrw lc o)
  | 0x06 => some (.sraw lc o)
  | 0x08 => some (.shli lc o)
  | 0x09 => some (.shri lc o)
  | 0x0A => some (.srai lc o)
  | 0x0B => some (.rori lc o)
  | 0x0C => some (.shliw lc o)
  | 0x0D => some (.shriw lc o)
  | 0x0E => some (.sraiw lc o)
  | 0x10 => some (.ext lc (wordI w))
  | 0x11 => some (.exts lc (wordI w))
  | 0x12 => some (.ins lc (wordI w))
  | _ => none

/-- Class 0x4: OP[5:3] selects the group and OP[2:0] the condition or the operation (R118, Table 4-13). -/
def decodeCompare (lc : Nat) (w : BitVec 32) : Option Instr :=
  let o := wordR w
  match wordOp w / 8, wordOp w % 8 with
  | 0, _ => some (.cmpCc lc (wordCc w) o)
  | 1, _ => some (.cmpiCc lc (wordCc w) (wordI w))
  | 2, _ => some (.cmppCc lc (wordCc w) o)
  | 3, _ => some (.cmppiCc lc (wordCc w) (wordI w))
  | 4, 0 => some (.sel lc o)
  | 4, 1 => some (.pand lc o)
  | 4, 2 => some (.por lc o)
  | 4, 3 => some (.pxor lc o)
  | 4, 4 => some (.pandn lc o)
  | 4, 5 => some (.movp lc o)
  | 4, 6 => some (.pmov lc o)
  | _, _ => none

/-- Class 0x5: OP[5:4] selects the kind and OP[3:0] has the meaning of Table 4-14 (R123). -/
def decodeBranch (lc : Nat) (w : BitVec 32) : Option Instr :=
  match wordOp w / 16, wordOp w % 16 with
  | 0, _ => some (.bt lc (w.extractLsb' 23 3) (w.getLsbD 22) (wordOff w))
  | 1, _ => some (.bf lc (w.extractLsb' 23 3) (w.getLsbD 22) (wordOff w))
  | 2, 0 => some (.b lc (wordOff w))
  | 2, 1 => some (.bl lc (wordOff w))
  | 3, 0 => some (.jrl lc (wordR w))
  | 3, 1 => some (.ret lc (wordR w))
  | _, _ => none

/-- Class 0x6: loads, base and offset or, with OP[4] = 1, base and scaled index (Table 5-2). -/
def decodeLoad (lc : Nat) (w : BitVec 32) : Option Instr :=
  let m : MemForm := if wordOp w < 0x10 then .imm (wordI w) else .idx (wordR w)
  match wordOp w with
  | 0x00 | 0x10 => some (.ldB lc m)
  | 0x01 | 0x11 => some (.ldBu lc m)
  | 0x02 | 0x12 => some (.ldH lc m)
  | 0x03 | 0x13 => some (.ldHu lc m)
  | 0x04 | 0x14 => some (.ldW lc m)
  | 0x05 | 0x15 => some (.ldWu lc m)
  | 0x06 | 0x16 => some (.ldD lc m)
  | 0x07 | 0x17 => some (.ldt lc m)
  | _ => none

/-- Class 0x7: stores, in the same two forms (Table 5-3). -/
def decodeStore (lc : Nat) (w : BitVec 32) : Option Instr :=
  let m : MemForm := if wordOp w < 0x10 then .imm (wordI w) else .idx (wordR w)
  match wordOp w with
  | 0x00 | 0x10 => some (.stB lc m)
  | 0x01 | 0x11 => some (.stH lc m)
  | 0x02 | 0x12 => some (.stW lc m)
  | 0x03 | 0x13 => some (.stD lc m)
  | 0x04 | 0x14 => some (.stt lc m)
  | 0x05 | 0x15 => some (.stNt lc m)
  | _ => none

/-- Class 0x8: atomics (Table 5-5). -/
def decodeAtomic (lc : Nat) (w : BitVec 32) : Option Instr :=
  let o := wordR w
  match wordOp w with
  | 0x00 => some (.amoAdd lc o)
  | 0x01 => some (.amoSwp lc o)
  | 0x02 => some (.amoCas lc o)
  | 0x03 => some (.amoMax lc o)
  | 0x04 => some (.amoMin lc o)
  | 0x05 => some (.amoAnd lc o)
  | 0x06 => some (.amoOr lc o)
  | 0x07 => some (.amoXor lc o)
  | _ => none

/-- Class 0x9: tags and colours (Table 5-4). -/
def decodeTag (lc : Nat) (w : BitVec 32) : Option Instr :=
  match wordOp w with
  | 0x00 => some (.ldcol lc (wordI w))
  | 0x01 => some (.stcol lc (wordR w))
  | 0x02 => some (.class lc (wordR w))
  | 0x03 => some (.poison lc (wordR w))
  | 0x04 => some (.mkdata lc (wordR w))
  | 0x05 => some (.mksys lc (wordI w))
  | _ => none

/-- Class 0xA: cache maintenance and fences (Table 5-7). -/
def decodeMaintain (lc : Nat) (w : BitVec 32) : Option Instr :=
  match wordOp w with
  | 0x00 => some (.cmoCln lc (wordI w))
  | 0x01 => some (.cmoInv lc (wordI w))
  | 0x02 => some (.cmoCli lc (wordI w))
  | 0x03 => some (.prefL lc (wordI w))
  | 0x04 => some (.prefS lc (wordI w))
  | 0x08 => some (.cmoSet lc (wordR w))
  | 0x10 => some (.fenceL lc (wordR w))
  | 0x11 => some (.fenceS lc (wordR w))
  | 0x12 => some (.fenceA lc (wordR w))
  | 0x13 => some (.fenceI lc (wordR w))
  | 0x14 => some (.fenceD lc (wordR w))
  | _ => none

/-- Class 0xB: queues (Table 5-8). -/
def decodeQueue (lc : Nat) (w : BitVec 32) : Option Instr :=
  match wordOp w with
  | 0x00 => some (.qpush lc (wordR w))
  | 0x01 => some (.qpop lc (wordR w))
  | 0x02 => some (.qpeek lc (wordR w))
  | 0x03 => some (.qwait lc (wordR w))
  | _ => none

/-- Class 0xC: vector integer (Table 5-11). -/
def decodeVecInt (lc : Nat) (w : BitVec 32) : Option Instr :=
  let o := wordR w
  match wordOp w with
  | 0x00 => some (.vadd lc o)
  | 0x01 => some (.vsub lc o)
  | 0x02 => some (.vmul lc o)
  | 0x03 => some (.vmulh lc o)
  | 0x04 => some (.vmulhu lc o)
  | 0x05 => some (.vand lc o)
  | 0x06 => some (.vor lc o)
  | 0x07 => some (.vxor lc o)
  | 0x08 => some (.vandn lc o)
  | 0x09 => some (.vmin lc o)
  | 0x0A => some (.vmax lc o)
  | 0x0B => some (.vminu lc o)
  | 0x0C => some (.vmaxu lc o)
  | 0x0D => some (.vshl lc o)
  | 0x0E => some (.vshr lc o)
  | 0x0F => some (.vsra lc o)
  | 0x10 | 0x11 | 0x12 | 0x13 | 0x14 | 0x15 | 0x16 | 0x17 => some (.vcmppCc lc (wordCc w) o)
  | 0x20 => some (.vsplat lc o)
  | 0x21 => some (.vget lc o)
  | 0x22 => some (.vput lc o)
  | 0x23 => some (.vperm lc o)
  | 0x24 => some (.vredadd lc o)
  | 0x25 => some (.vsel lc o)
  | _ => none

/-- Class 0xD: vector floating point (Table 5-12). -/
def decodeVecFp (lc : Nat) (w : BitVec 32) : Option Instr :=
  let o := wordR w
  match wordOp w with
  | 0x00 => some (.vfadd lc o)
  | 0x01 => some (.vfsub lc o)
  | 0x02 => some (.vfmul lc o)
  | 0x03 => some (.vfdiv lc o)
  | 0x04 => some (.vfsqrt lc o)
  | 0x05 => some (.vfma lc o)
  | 0x06 => some (.vfms lc o)
  | 0x07 => some (.vfnma lc o)
  | 0x08 => some (.vfmin lc o)
  | 0x09 => some (.vfmax lc o)
  | 0x0A => some (.vfabs lc o)
  | 0x0B => some (.vfneg lc o)
  | 0x10 | 0x11 | 0x12 | 0x13 => some (.vfcmpp lc (w.extractLsb' 22 2) o)
  | 0x18 => some (.vfcvt lc o)
  | 0x19 => some (.vfcvti lc o)
  | 0x1A => some (.vfcvtz lc o)
  | _ => none

/-- Class 0xE: vector memory (Table 5-13). -/
def decodeVecMem (lc : Nat) (w : BitVec 32) : Option Instr :=
  match wordOp w with
  | 0x00 => some (.vld lc (wordI w))
  | 0x01 => some (.vst lc (wordI w))
  | 0x10 => some (.vldp lc (wordR w))
  | 0x11 => some (.vstp lc (wordR w))
  | 0x12 => some (.vlds lc (wordR w))
  | 0x13 => some (.vsts lc (wordR w))
  | 0x14 => some (.vldx lc (wordR w))
  | 0x15 => some (.vstx lc (wordR w))
  | _ => none

/-- The instruction that a word spells to core lc: none where CLASS is 0xF or OP is not listed for its class (R102). Fields that must
be 0 are part of the instruction, which checks them. -/
def decodeEcyen (lc : Nat) (w : BitVec 32) : Option Instr :=
  match wordClass w with
  | 0x0 => decodeSystem lc w
  | 0x1 => decodeInteger lc w
  | 0x2 => decodeImmediate lc w
  | 0x3 => decodeShift lc w
  | 0x4 => decodeCompare lc w
  | 0x5 => decodeBranch lc w
  | 0x6 => decodeLoad lc w
  | 0x7 => decodeStore lc w
  | 0x8 => decodeAtomic lc w
  | 0x9 => decodeTag lc w
  | 0xA => decodeMaintain lc w
  | 0xB => decodeQueue lc w
  | 0xC => decodeVecInt lc w
  | 0xD => decodeVecFp lc w
  | 0xE => decodeVecMem lc w
  | _ => none

/-! ## Instruction words of the kiosks (Tables 14-2 to 14-4) -/

/-- OP of a Kiosk word. -/
def kioskOp (w : BitVec 32) : Nat := (w.extractLsb' 26 6).toNat
/-- The fields below OP of a Kiosk R-format word. -/
def kioskR (w : BitVec 32) : KR := ⟨w.extractLsb' 22 4, w.extractLsb' 18 4, w.extractLsb' 14 4, w.extractLsb' 0 14⟩
/-- The fields below OP of a Kiosk I-format word. -/
def kioskI (w : BitVec 32) : KI := ⟨w.extractLsb' 22 4, w.extractLsb' 18 4, w.extractLsb' 0 18⟩
/-- The fields below OP of a Kiosk J-format word. -/
def kioskJ (w : BitVec 32) : KJ := ⟨w.extractLsb' 22 4, w.extractLsb' 0 22⟩
/-- The fields below OP of a Kiosk B-format word. -/
def kioskB (w : BitVec 32) : KB :=
  ⟨w.getLsbD 25, w.getLsbD 24, w.extractLsb' 21 3, w.extractLsb' 17 4, w.extractLsb' 13 4, w.extractLsb' 0 13⟩

/-- The operations of the Kiosk instruction set (Tables 14-3 and 14-4). -/
inductive KioskOp where
  | add | sub | and | or | xor | andn | shl | shr | sra | min | max | minu | maxu | slt | sltu | mul | mulhu | mov | clz
  | popc | rev | div | divu | rem | remu | cls | mkdata | mkptr | mksys | poison | bcopy | bfill | bcrc | bhash | krdc
  | kwrc | kret | yield | halt | addi | andi | ori | xori | shli | shri | srai | li | lih | ldl | stl | ldmB | ldmH
  | ldmW | ldmD | stmB | stmH | stmW | stmD | bCc | j | jal | jr | kqpush | kqpop | kqpeek | kqwait | kqbpush | kqbpop
  | fenceK
  deriving DecidableEq, Repr

/-- The ALU operations, OP 0x01, by FN[5:0] (Table 14-3). -/
def decodeKioskAlu (fn : Nat) : Option KioskOp :=
  match fn % 64 with
  | 0x00 => some .add
  | 0x01 => some .sub
  | 0x02 => some .and
  | 0x03 => some .or
  | 0x04 => some .xor
  | 0x05 => some .andn
  | 0x06 => some .shl
  | 0x07 => some .shr
  | 0x08 => some .sra
  | 0x09 => some .min
  | 0x0A => some .max
  | 0x0B => some .minu
  | 0x0C => some .maxu
  | 0x0D => some .slt
  | 0x0E => some .sltu
  | 0x10 => some .mul
  | 0x11 => some .mulhu
  | 0x12 => some .mov
  | 0x13 => some .clz
  | 0x14 => some .popc
  | 0x15 => some .rev
  | 0x18 => some .div
  | 0x19 => some .divu
  | 0x1A => some .rem
  | 0x1B => some .remu
  | _ => none

/-- The tag operations, OP 0x1A, by FN[2:0]. -/
def decodeKioskTag (fn : Nat) : Option KioskOp :=
  match fn % 8 with
  | 0 => some .cls
  | 1 => some .mkdata
  | 2 => some .mkptr
  | 3 => some .mksys
  | 4 => some .poison
  | _ => none

/-- The block operations, OP 0x30, by FN[1:0] (R443). -/
def decodeKioskBlock (fn : Nat) : Option KioskOp :=
  match fn % 4 with
  | 0 => some .bcopy
  | 1 => some .bfill
  | 2 => some .bcrc
  | _ => some .bhash

/-- The system operations, OP 0x3C, by FN[5:0]. -/
def decodeKioskSystem (fn : Nat) : Option KioskOp :=
  match fn % 64 with
  | 0 => some .krdc
  | 1 => some .kwrc
  | 2 => some .kret
  | 3 => some .yield
  | 4 => some .halt
  | _ => none

/-- The operation that a Kiosk word spells: none where Table 14-4 does not list its OP or the operation of its FN (R439). Fields
that must be 0 are checked by the instruction; its operands are the fields of its format. -/
def decodeKiosk (w : BitVec 32) : Option KioskOp :=
  match kioskOp w with
  | 0x01 => decodeKioskAlu (kioskR w).fn.toNat
  | 0x02 => some .addi
  | 0x03 => some .andi
  | 0x04 => some .ori
  | 0x05 => some .xori
  | 0x06 => some .shli
  | 0x07 => some .shri
  | 0x08 => some .srai
  | 0x09 => some .li
  | 0x0A => some .lih
  | 0x10 => some .ldl
  | 0x11 => some .stl
  | 0x12 => some .ldmB
  | 0x13 => some .ldmH
  | 0x14 => some .ldmW
  | 0x15 => some .ldmD
  | 0x16 => some .stmB
  | 0x17 => some .stmH
  | 0x18 => some .stmW
  | 0x19 => some .stmD
  | 0x1A => decodeKioskTag (kioskR w).fn.toNat
  | 0x20 => some .bCc
  | 0x21 => some .j
  | 0x22 => some .jal
  | 0x23 => some .jr
  | 0x28 => some .kqpush
  | 0x29 => some .kqpop
  | 0x2A => some .kqpeek
  | 0x2B => some .kqwait
  | 0x2C => some .kqbpush
  | 0x2D => some .kqbpop
  | 0x30 => decodeKioskBlock (kioskR w).fn.toNat
  | 0x38 => some .fenceK
  | 0x3C => decodeKioskSystem (kioskR w).fn.toNat
  | _ => none

end Sys2Proof
end

