-- ==== Sys2Proof/Machine/Bits.lean ====
section
/-! DEFINITION. Bit-field, sign-extension and table helpers shared by every unit: reading and writing a field of a
64-bit register, sign extension, sparse tables in canonical form. -/
set_option autoImplicit false
namespace Sys2Proof.Machine

/-- The bits [lo + n - 1 : lo] of a register as a number. -/
def field (w : BitVec 64) (lo n : Nat) : Nat := (w.toNat >>> lo) % 2 ^ n

/-- The register with bits [lo + n - 1 : lo] replaced by the low n bits of x. -/
def setField (w : BitVec 64) (lo n x : Nat) : BitVec 64 :=
  let mask : BitVec 64 := BitVec.ofNat 64 ((2 ^ n - 1) <<< lo)
  (w &&& ~~~ mask) ||| (BitVec.ofNat 64 ((x % 2 ^ n) <<< lo))

/-- Bit i of a register. -/
def bitOf (w : BitVec 64) (i : Nat) : Bool := w.getLsbD i

/-- A register with bit i written. -/
def setBit (w : BitVec 64) (i : Nat) (b : Bool) : BitVec 64 := setField w i 1 b.toNat

/-- Bit i of a number. -/
def natBit (n i : Nat) : Bool := (n >>> i) % 2 == 1

/-- A bit of a vector cleared. -/
def clearBit (v b : Nat) : Nat := if natBit v b then v - 2 ^ b else v

/-- A 64-bit value from a number. -/
def v64 (n : Nat) : BitVec 64 := BitVec.ofNat 64 n

/-- sext32: the low 32 bits, sign-extended to 64. -/
def sext32 (x : BitVec 64) : BitVec 64 := (x.setWidth 32).signExtend 64

/-- The low n bits of x, sign-extended to 64 (n from 1 to 64). -/
def sextN (x : BitVec 64) (n : Nat) : BitVec 64 :=
  let lowN := x.toNat % 2 ^ n
  if natBit lowN (n - 1) then v64 (lowN + (2 ^ 64 - 2 ^ n)) else v64 lowN

/-- A count that saturates at 2^n - 1. -/
def satAdd (x k n : Nat) : Nat := if x + k ≥ 2 ^ n then 2 ^ n - 1 else x + k

/-- The entry of a table at a number; the default where nothing is listed. -/
def tget {α : Type} (t : Tbl α) (d : α) (k : Nat) : α :=
  match t with
  | [] => d
  | (i, a) :: r => if i = k then a else tget r d k

/-- A table without its entry at k. -/
def terase {α : Type} (t : Tbl α) (k : Nat) : Tbl α := t.filter (fun p => p.1 != k)

/-- A table with an entry put in before the first greater number. -/
def tins {α : Type} (t : Tbl α) (k : Nat) (v : α) : Tbl α :=
  match t with
  | [] => [(k, v)]
  | p :: r => if k < p.1 then (k, v) :: p :: r else p :: tins r k v

/-- A table with the entry at k written; an entry equal to the default is not listed. -/
def tset {α : Type} [DecidableEq α] (t : Tbl α) (d : α) (k : Nat) (v : α) : Tbl α :=
  if v = d then terase t k else tins (terase t k) k v

/-- The canonical form of a table: numbers strictly rising and no entry equal to the default. -/
def twf {α : Type} [DecidableEq α] (t : Tbl α) (d : α) : Bool :=
  match t with
  | [] => true
  | (i, a) :: r => decide (a ≠ d) && r.all (fun p => decide (i < p.1)) && twf r d

/-- The entry of a table of optional entries: none where nothing is listed. -/
def tfind {α : Type} (t : Tbl α) (k : Nat) : Option α :=
  match t with
  | [] => none
  | (i, a) :: r => if i = k then some a else tfind r k

/-- A table with an entry put in or replaced. -/
def tput {α : Type} (t : Tbl α) (k : Nat) (v : α) : Tbl α := tins (terase t k) k v

/-- A list with the element at position i replaced. -/
def lset {α : Type} (l : List α) (i : Nat) (a : α) : List α :=
  match l, i with
  | [], _ => []
  | _ :: r, 0 => a :: r
  | x :: r, n + 1 => x :: lset r n a

/-- A left fold over the numbers 0 to n - 1. -/
def foldN {α : Type} (n : Nat) (f : α → Nat → α) (a : α) : α :=
  (List.range n).foldl f a

/-- Whether a number lies between two bounds, both included. -/
def within (lo x hi : Nat) : Bool := decide (lo ≤ x) && decide (x ≤ hi)

/-- Ceiling division. -/
def ceilDiv (a b : Nat) : Nat := (a + b - 1) / b

/-- The parity of the bits of x that a mask selects. -/
def parity (x mask : Nat) : Bool :=
  (List.range 64).foldl (fun b i => xor b (natBit x i && natBit mask i)) false

end Sys2Proof.Machine
end

