-- ==== Sys2Proof/Machine/CoreTypes.lean ====
section
/-! DEFINITION. The state of one logical core: the register files of Table 4-1 (R91), the system registers of
Table 6-13 (R214), the store buffer and fill shelf of Table 7-1 (R216), the translation buffers (R207) and the branch
predictor (R221). -/
set_option autoImplicit false
namespace Sys2Proof.Machine

/-- What a store-buffer entry does to the words it touches when it is written (R62, R66 to R69, R140). -/
inductive SbKind where
  /-- A whole-word store: value and class (R66). -/
  | whole
  /-- A sub-word store: bytes merged, class data (R67). -/
  | sub
  /-- A sub-word store whose source has poison class: the touched words become poison (R67). -/
  | subPoison
  /-- STCOL: the colour of the words becomes the entry's AUX (R69, R140). -/
  | colour
  /-- STCOL with a poison gb: data and pointer words become poison (R140). -/
  | colourPoison
  deriving DecidableEq, Repr

/-- A store-buffer entry (R227): a committed store that has not been written to the L2, with the tag bytes of the words it touches, as
they were read when it executed (none for STCOL and for what the hardware stores itself). A store that crosses a line keeps the address
and size of its upper part in `upper` until its lower part has been written (R233); `split` says that it crosses a line. -/
structure SbEntry where
  pa : Nat
  size : Nat
  upper : Option (Nat × Nat)
  split : Bool
  kind : SbKind
  word : Word
  tags : List (BitVec 8)
  weak : Bool
  /-- The world of the store and whether it was made at PL3: it drains with them (R235). -/
  walled : Bool
  pl3 : Bool
  deriving DecidableEq, Repr

/-- A translation held by the TLB (R207), with the attributes of both stages. -/
structure TlbEnt where
  regime : Nat
  walled : Bool
  vaPage : Nat
  bits : Nat
  asid : Option Nat
  vmid : Option Nat
  ipa : Nat
  pa : Nat
  attr1 : Option (BitVec 64)
  level1 : Nat
  attr2 : Option (BitVec 64)
  level2 : Nat
  deriving DecidableEq, Repr

/-- A table entry held by the walk cache (Table 7-1, levels 0 to 2). -/
structure WalkEnt where
  regime : Nat
  walled : Bool
  asid : Nat
  vmid : Option Nat
  level : Nat
  idx : Nat
  next : Nat
  deriving DecidableEq, Repr

/-- A broadcast TLBI on its way to a target core (R209): the issuing core, and for one of another socket that socket and its number. -/
structure TlbiMsg where
  src : Nat
  sock : Option (Nat × Nat)
  dst : Nat
  op : TlbiOp
  deriving DecidableEq, Repr

/-- A TLBI of a core that a joined socket has yet to report done (R210). -/
structure TlbiOut where
  src : Nat
  sock : Nat
  num : Nat
  deriving DecidableEq, Repr

/-- The queue operation a waiting core has outstanding at the Urn (R161). -/
inductive WaitKind where
  | push | pop | wait
  deriving DecidableEq, Repr

/-- A core waiting in a queue instruction (R161): its queue, its registers and its deadline. -/
structure CoreWait where
  kind : WaitKind
  queue : Nat
  rd : BitVec 5
  rs : BitVec 5
  g : Bool
  entry : List Word
  deadline : Option Nat
  deriving DecidableEq, Repr

/-- A fill-shelf entry (R237): the line, a shared copy, whether it came from beyond the L2 (R238), and its words. -/
structure ShelfEnt where
  line : Nat
  beyondL2 : Bool
  data : List Word
  deriving DecidableEq, Repr

/-- An entry of a tagged predictor table (Table 7-3). -/
structure PredEnt where
  tag : Nat
  ctr : Nat
  useful : Nat
  deriving DecidableEq, Repr

/-- The branch predictor of one core (R221 to R226). -/
structure Predictor where
  /-- Base table: counter plus 4 × trained; a cold entry is weak-not-taken, untrained. -/
  base : Tbl Nat
  /-- Tagged tables 1 to 6, by 2,048 × table + entry. -/
  tagged : Tbl PredEnt
  /-- Global history, one bit per conditional branch, newest in bit 0, 144 bits. -/
  history : Nat
  /-- Branch target buffer: branch address and target. -/
  btb : Tbl Nat
  /-- Return-address stack, newest first. -/
  ras : List Nat
  /-- Retired conditional branches since the useful counts were halved (R224). -/
  branches : Nat
  deriving DecidableEq, Repr

/-- The cold state of the predictor (R225). -/
def Predictor.cold : Predictor :=
  { base := [], tagged := [], history := 0, btb := [], ras := [], branches := 0 }

/-- A bit error that an injection left in one of the two cores of an arbour, or in an L1D (R594, R624): the register (g registers
by number, vector lanes as 256 + 8 × register + lane, predicates as 1024 + number) or 2048 plus the L1D line, the word bits
inverted, whether two bits are, and whether core B holds it. -/
structure CoreFlip where
  key : Nat
  bits : Nat
  dbl : Bool
  b : Bool
  deriving DecidableEq, Repr

/-- One logical core. -/
structure Core where
  /-- General registers g1 to g31; g0 is never listed. -/
  g : Tbl Word
  /-- Vector lanes, by 8 × register + lane. -/
  v : Tbl Word
  /-- Predicate values p1 to p7. -/
  p : Tbl (BitVec 8)
  /-- Poison codes PZ of p1 to p7. -/
  pz : Tbl (BitVec 3)
  /-- PC, virtual address bits [57:0] with [1:0] equal to 0 (R97). -/
  pc : Nat
  /-- System registers by number (Table 6-13 and the counter registers 0x040 to 0x05D). -/
  sys : Tbl (BitVec 64)
  /-- Whether the core has been started (R576) and not stopped since. -/
  started : Bool
  /-- An external halt is in effect (M10, R29). -/
  halted : Bool
  /-- The waiting queue instruction (R161). -/
  wait : Option CoreWait
  /-- The store buffer, oldest first (R227). -/
  sb : List SbEntry
  /-- The fill shelf (R237). -/
  shelf : List ShelfEnt
  /-- L1I lines by 8 × set + way and the 7-bit tree of each set (R275, R282). -/
  l1i : Tbl Nat
  l1iTree : Tbl Nat
  /-- L1D lines by 12 × set + way and the MRU bits of each set (R275, R282). -/
  l1d : Tbl Nat
  l1dMru : Tbl Nat
  /-- The instruction TLB, the data TLB and the second-level TLB that serves both (Table 7-1), oldest entry first (R207). -/
  itlb : List TlbEnt
  dtlb : List TlbEnt
  tlb : List TlbEnt
  /-- Walk cache, oldest first. -/
  wcache : List WalkEnt
  pred : Predictor
  /-- The core's view of its interrupt queue: pending state and the sequence number of the newest message (R414). -/
  irqPending : Bool
  irqSeq : Nat
  /-- COUNTER entries to push at the next retirement, by counter number (R544). -/
  cntDue : List Nat
  /-- Events of the instruction in progress, by code of Table 18-2; lines it asked for that the LLC did not hold. -/
  evs : List Nat
  far : List Nat
  /-- Registers that the instruction in progress has written, by the keys of CoreFlip; a vector register by its lane 0. -/
  wrote : List Nat
  /-- Injected errors not yet found, and the L1D lines whose first word reads with bits inverted. -/
  flips : List CoreFlip
  l1bad : Tbl Nat
  deriving DecidableEq, Repr

/-- A core that has not started: every register at its reset value (R98, R176). -/
def Core.reset : Core :=
  { g := [], v := [], p := [], pz := [], pc := 0, sys := [], started := false, halted := false, wait := none,
    sb := [], shelf := [], l1i := [], l1iTree := [], l1d := [], l1dMru := [], itlb := [], dtlb := [], tlb := [], wcache := [], pred := Predictor.cold,
    irqPending := false, irqSeq := 0, cntDue := [], evs := [], far := [], wrote := [],
    flips := [], l1bad := [] }

/-- What an exception records (R184, R186, Tables 6-4 and 6-5). -/
structure Exc where
  code : Nat
  info : Nat
  sub : Nat
  fetch : Bool
  write : Bool
  stage2 : Bool
  s1walk : Bool
  level : Nat
  addr : BitVec 64
  ipa : Option Nat
  /-- Flags that s.fpcsr.CAUSE receives with a floating-point exception (R169). -/
  fpFlags : Nat
  deriving DecidableEq, Repr

/-- An exception with only a code, INFO and address. -/
def Exc.mk1 (code info : Nat) (addr : BitVec 64) : Exc :=
  { code := code, info := info, sub := 0, fetch := false, write := false, stage2 := false, s1walk := false, level := 0,
    addr := addr, ipa := none, fpFlags := 0 }

/-- Illegal-instruction (R102). -/
def Exc.illegal : Exc := Exc.mk1 0x07 0 0
/-- Privilege (Table 6-4). -/
def Exc.privilege : Exc := Exc.mk1 0x08 0 0
/-- Trapped, with the register number or 0x800 plus the OP (Table 6-4). -/
def Exc.trapped (info : Nat) : Exc := Exc.mk1 0x09 info 0
/-- Poison-consumption of a register or predicate operand: s.faddr 0 (Table 6-4). -/
def Exc.poison (code : Nat) : Exc := Exc.mk1 0x0A code 0
/-- Instruction-alignment with the target address. -/
def Exc.instrAlign (target : BitVec 64) : Exc := Exc.mk1 0x0B 0 target
/-- Integer-overflow. -/
def Exc.overflow : Exc := Exc.mk1 0x10 0 0
/-- Divide-by-zero. -/
def Exc.divZero : Exc := Exc.mk1 0x11 0 0
/-- Floating-point (R169). -/
def Exc.fp (flags : Nat) : Exc := { Exc.mk1 0x12 0 0 with fpFlags := flags }
/-- Alignment fault on a data access. -/
def Exc.align (write : Bool) (addr : BitVec 64) : Exc := { Exc.mk1 0x0C 0 addr with write := write }
/-- Memory-type fault on a data access. -/
def Exc.memType (write : Bool) (addr : BitVec 64) : Exc := { Exc.mk1 0x0D 0 addr with write := write }
/-- Tag fault with its reason (R72). -/
def Exc.tagFault (write : Bool) (reason : Nat) (addr : BitVec 64) : Exc :=
  { Exc.mk1 0x0E reason addr with write := write }
/-- Control-space fault with the bus-error reason (R44). -/
def Exc.control (write : Bool) (reason : Nat) (addr : BitVec 64) : Exc :=
  { Exc.mk1 0x0F reason addr with write := write }

end Sys2Proof.Machine
end

