-- ==== Sys2Proof/Machine/Operands.lean ====
section
/-! DEFINITION. Operand forms of the Ecyen-72 instructions: register reads and writes with the fixed behaviour of g0
and p0 (R91 to R96), immediates (R103), the poison order of R60, the class rules of Table 3-4, and the address formation
of R129. -/
set_option autoImplicit false
namespace Sys2Proof.Machine

/-- The result of a core-only instruction: the core after it, or the exception it raises. -/
abbrev CoreRes := Except Exc Core

/-- g register read; g0 reads as value 0 with tag 0x00 (R91). -/
def Core.getG (c : Core) (r : BitVec 5) : Word := if r = 0 then Word.zero else tget c.g Word.zero r.toNat

/-- g register write; a write to g0 is discarded (R92). -/
def Core.setG (c : Core) (r : BitVec 5) (w : Word) : Core :=
  if r = 0 then c else { c with g := tset c.g Word.zero r.toNat w, wrote := c.wrote ++ [r.toNat] }

/-- Lane i of a vector register. -/
def Core.getV (c : Core) (r : BitVec 5) (i : Nat) : Word := tget c.v Word.zero (8 * r.toNat + i)

/-- A vector lane write. -/
def Core.setV (c : Core) (r : BitVec 5) (i : Nat) (w : Word) : Core :=
  { c with v := tset c.v Word.zero (8 * r.toNat + i) w,
           wrote := if c.wrote.contains (256 + 8 * r.toNat) then c.wrote else c.wrote ++ [256 + 8 * r.toNat] }

/-- All eight lanes written from a list. -/
def Core.setVAll (c : Core) (r : BitVec 5) (ws : List Word) : Core :=
  foldN 8 (fun c i => c.setV r i (ws.getD i Word.zero)) c

/-- Predicate value; p0 reads as 0xFF (R91). -/
def Core.getP (c : Core) (n : BitVec 3) : BitVec 8 := if n = 0 then 0xFF else tget c.p 0 n.toNat

/-- Predicate poison code PZ; p0 has PZ = 0 (R91, R94). -/
def Core.getPZ (c : Core) (n : BitVec 3) : BitVec 3 := if n = 0 then 0 else tget c.pz 0 n.toNat

/-- Predicate write; a write to p0 is discarded (R93), and a poison result has value 0x00 (R94). -/
def Core.setP (c : Core) (n : BitVec 3) (val : BitVec 8) (pz : BitVec 3) : Core :=
  if n = 0 then c
  else { c with p := tset c.p 0 n.toNat (if pz = 0 then val else 0), pz := tset c.pz 0 n.toNat pz, wrote := c.wrote ++ [1024 + n.toNat] }

/-- The value of a system register that a core does not list (Tables of 06, 03, 05 and 18). -/
def sysReset (_n : Nat) : BitVec 64 := 0

/-- The stored bits of a system register. -/
def Core.sysr (c : Core) (n : Nat) : BitVec 64 := tget c.sys (sysReset n) n

/-- The stored bits of a system register written. -/
def Core.setSys (c : Core) (n : Nat) (v : BitVec 64) : Core := { c with sys := tset c.sys (sysReset n) n v }

/-- s.status.PL. -/
def Core.pl (c : Core) : Nat := field (c.sysr 0x000) 0 2
/-- s.status.WORLD: true for Walled. -/
def Core.walled (c : Core) : Bool := bitOf (c.sysr 0x000) 2
/-- s.status.IE. -/
def Core.ie (c : Core) : Bool := bitOf (c.sysr 0x000) 3
/-- s.hctl.VM. -/
def Core.vm (c : Core) : Bool := bitOf (c.sysr 0x008) 0
/-- s.hctl.IMO. -/
def Core.imo (c : Core) : Bool := bitOf (c.sysr 0x008) 1
/-- s.hctl.VMID. -/
def Core.vmid (c : Core) : Nat := field (c.sysr 0x008) 16 16
/-- s.asid.ASID. -/
def Core.asid (c : Core) : Nat := field (c.sysr 0x02C) 0 16

/-- PC arithmetic wraps modulo 2^58 (R97). -/
def pcAdd (pc k : Nat) : Nat := (pc + k) % 2 ^ 58

/-- The core with its PC moved past the instruction. -/
def Core.advance (c : Core) : Core := { c with pc := pcAdd c.pc 4 }

/-- IMM12 sign-extended (R103). -/
def simm12 (i : BitVec 12) : BitVec 64 := i.signExtend 64
/-- IMM17 sign-extended (R103). -/
def simm17 (i : BitVec 17) : BitVec 64 := i.signExtend 64

/-- The poison code of a word, as a number. -/
def wordCode (w : Word) : Nat := w.aux.toNat

/-- The first poison operand in the order of R60, given in that order. -/
def firstPoison (ws : List Word) : Option (BitVec 6) :=
  match ws with
  | [] => none
  | w :: r => if w.isPoison then some w.aux else firstPoison r

/-- A result that R60 makes poison when an operand is poison, and otherwise the computed word. -/
def withPoison (ops : List Word) (res : Word) : Word :=
  match firstPoison ops with
  | some code => Word.poison code
  | none => res

/-- A moved word at level pl: at PL0 a system class is written as data with tag 0x00 (R65). -/
def moved (pl : Nat) (w : Word) : Word := if pl = 0 ∧ w.isSystem then Word.data w.val else w

/-- A register value from a storage word (Table 3-2): data and pointer lose the colour. -/
def toReg (w : Word) : Word :=
  match w.cls with
  | .data => Word.data w.val
  | .pointer => Word.pointer w.val
  | .system => w
  | .poison => Word.poison w.aux

/-- R64: bits [63:58] from the pointer, bits [57:0] the sum modulo 2^58. -/
def ptrAdd (ptr : BitVec 64) (d : BitVec 64) : BitVec 64 :=
  v64 (ptr.toNat / 2 ^ 58 * 2 ^ 58 + (ptr.toNat + d.toNat) % 2 ^ 58)

/-- The result of ADD (Table 3-4, R64): pointer class from pointer plus data in either order, otherwise data. The
operands are not poison. -/
def addWords (a b : Word) : Word :=
  if a.isPointer ∧ b.cls = .data then Word.pointer (ptrAdd a.val b.val)
  else if a.cls = .data ∧ b.isPointer then Word.pointer (ptrAdd b.val a.val)
  else Word.data (a.val + b.val)

/-- The virtual address of R129 from the base value and an offset: the colour comes from the base, the rest is the sum
modulo 2^58. -/
def formAddr (base off : BitVec 64) : BitVec 64 := ptrAdd base off

/-- The 58 translated bits of a virtual address. -/
def vaLow (va : BitVec 64) : Nat := va.toNat % 2 ^ 58
/-- The pointer colour, address bits [63:58]. -/
def vaColour (va : BitVec 64) : BitVec 6 := va.extractLsb' 58 6

/-- The address operands of a memory form: the base, and the index of an indexed form. -/
def memAddrOps (m : MemForm) (c : Core) : List Word :=
  match m with
  | .imm o => [c.getG o.ra]
  | .idx o => [c.getG o.ra, c.getG o.rb]

/-- The base register value of a memory form. -/
def memBase (m : MemForm) (c : Core) : Word :=
  match m with
  | .imm o => c.getG o.ra
  | .idx o => c.getG o.ra

/-- The virtual address of a memory form (R129). -/
def memVa (m : MemForm) (c : Core) : BitVec 64 :=
  match m with
  | .imm o => formAddr (c.getG o.ra).val (simm12 o.imm)
  | .idx o => formAddr (c.getG o.ra).val ((c.getG o.rb).val <<< (o.md.toNat % 4))

/-- RD of a memory form: the destination of a load, the data source of a store. -/
def memRd (m : MemForm) : BitVec 5 :=
  match m with
  | .imm o => o.rd
  | .idx o => o.rd

/-- Whether a memory form breaks R102: MOD[6:2] must be 0 in indexed forms (R135, R136). -/
def memIllegal (m : MemForm) : Bool :=
  match m with
  | .imm _ => false
  | .idx o => decide (o.md.toNat ≥ 4)

end Sys2Proof.Machine
end

