-- ==== Sys2Proof/Machine/CohTypes.lean ====
section
/-! DEFINITION. State of the caches (09_cache_hierarchy.md), the coherence directory (10_coherence.md) and the memory
channels (11_memory_ecc.md). -/
set_option autoImplicit false
namespace Sys2Proof.Machine

/-- An error standing in a word of a cached line (16 for its tag entry): uncorrectable or not, injected or not (R594). -/
structure BadWord where
  word : Nat
  dbl : Bool
  inj : Bool
  deriving DecidableEq, Repr

/-- A cache line at the L2, an LLC slice or the victim buffer (R275, R279, R308): state, world bit, the LLC's 34-bit presence
vector by scan index, whether its one tile copy is exclusive, and the 16 words with their tag bytes. -/
structure CacheLine where
  line : Nat
  st : LineState
  walled : Bool
  pres : Nat
  excl : Bool
  data : List Word
  bad : List BadWord
  deriving DecidableEq, Repr

/-- A writeback-buffer entry awaiting WbAck (R309, R323). -/
structure WbEnt where
  line : Nat
  dirty : Bool
  data : List Word
  deriving DecidableEq, Repr

/-- What a blocked line waits for (R320). -/
inductive TxnPhase where
  /-- Answers to forwards and invalidations. -/
  | snoop
  /-- The grant of the level above, or a CXL device's data. -/
  | upper
  /-- The requester's Cmp. -/
  | cmp
  deriving DecidableEq, Repr

/-- A transaction that blocks a line (R320): the request, the agents whose answers are awaited, the data gathered, the
writebacks held with the line (R322). -/
structure Txn where
  line : Nat
  req : Msg
  phase : TxnPhase
  await : List Agent
  data : Option (List Word)
  dirty : Bool
  held : List Msg
  /-- An injection discarded an answer or Cmp of the line (Table 20-4), so its timeout's record has INJ = 1 (R596). -/
  inj : Bool := false
  /-- The grant of data that has come and waits for a way (R297, R300). -/
  grant : Grant := .none
  /-- A timer of R337 expired while the grant of the level above is still out: the requester gets poison. -/
  poisoned : Bool := false
  deriving DecidableEq, Repr

/-- What an outbound transaction of an arbour is (R255). -/
inductive RbKind where
  /-- A read or ownership request to the L2. -/
  | line
  /-- A store written to the L2. -/
  | store
  /-- The answer to a snoop. -/
  | snoop
  /-- An access to device memory or the control space. -/
  | device
  /-- A queue instruction's operation at the Urn. -/
  | queue
  | atomic
  | cmo
  | tlbi
  | ipi
  | power
  deriving DecidableEq, Repr

/-- A pair of equal copies in the release buffer (R255): what is compared, whether its retire group has committed (R263, R267), and the
coherence request that it becomes at the L2, if it is one. -/
structure RbEnt where
  kind : RbKind
  addr : Nat
  size : Nat
  data : List Word
  committed : Bool
  msg : Option Msg
  deriving DecidableEq, Repr

/-- A replay-log entry (R261): the instruction and its request. Its response waits where the access left it. -/
structure LogEnt where
  pc : Nat
  req : RbEnt
  deriving DecidableEq, Repr

/-- The release buffer and the replay log of a tile's arbour (R256, R261), and the latent faults of its two comparators (R273). -/
structure Arbour where
  /-- Pairs that have agreed and wait for the L2 to take them. -/
  rb : List RbEnt
  log : List LogEnt
  /-- The signature comparator and the pair comparator stuck at agree. -/
  stuckSig : Bool
  stuckPair : Bool
  deriving DecidableEq, Repr

/-- An arbour with nothing on its way, its comparators sound. -/
def Arbour.reset : Arbour := { rb := [], log := [], stuckSig := false, stuckPair := false }

/-- The caches of one tile's arbour. -/
structure TileCache where
  /-- L2 lines by 16 × set + way (R275). -/
  l2 : Tbl CacheLine
  wb : List WbEnt
  /-- Requests of the L2 for which an answer is awaited. -/
  miss : List Msg
  /-- Answers that would allocate a line and wait for the end of a full flush (R297). -/
  fills : List Msg
  /-- A full flush (R297) or world-switch flush (R301) is in progress. -/
  flushing : Bool
  /-- The tile has been marked dead (R338). -/
  dead : Bool
  /-- Ways that hardware is disabling, their flush not ended (R293). -/
  hwPend : Nat
  deriving DecidableEq, Repr

/-- A tile cache with nothing in it. -/
def TileCache.reset : TileCache := { l2 := [], wb := [], miss := [], fills := [], flushing := false, dead := false, hwPend := 0 }

/-- One LLC slice with its victim buffer. -/
structure Slice where
  /-- Lines by 16 × set + way. -/
  lines : Tbl CacheLine
  /-- The victim buffer, oldest first, at most 64 (R286). -/
  vb : List CacheLine
  wb : List WbEnt
  txns : List Txn
  /-- The conflict queue, oldest first: at most 16 requests (R321), and the forwards of the home that arrived while the slice served its
  own tiles, in their order of arrival (R319). -/
  cq : List Msg
  /-- Requests that wait for the end of a full flush (R297), for a way that may allocate (R300), or for the WbAck of their line (R317). -/
  parked : List Msg
  /-- The round-robin pointer over the sending mesh stops (R321). -/
  rr : Nat
  flushing : Bool
  hwPend : Nat
  /-- A Walled-mask change waiting for its flush: the new mask and the ways that change (R300). -/
  newMask : Option (Nat × Nat)
  deriving DecidableEq, Repr

/-- An LLC slice with nothing in it. -/
def Slice.reset : Slice :=
  { lines := [], vb := [], wb := [], txns := [], cq := [], parked := [], rr := 0, flushing := false, hwPend := 0, newMask := none }

/-- A snoop-filter entry (Table 10-2). -/
structure SfEnt where
  line : Nat
  st : SfState
  owner : Nat
  dies : Nat
  sockets : Nat
  io : Bool
  /-- Flips of an injection not found yet (Table 20-4): true for two bits. -/
  bad : List Bool
  deriving DecidableEq, Repr

/-- The home agent of one I/O die. -/
structure Home where
  /-- Snoop-filter entries by 8 × set + way (R310). -/
  sf : Tbl SfEnt
  txns : List Txn
  cq : List Msg
  /-- Requests that wait for a way of the snoop filter (R332). -/
  parked : List Msg
  /-- CXL.mem reads sent and not answered, by line (R464). -/
  cxlReads : List Nat
  /-- Writebacks and eviction notices of a proxy home that await the WbAck of the line's home (R323), and requests that wait for
  them (R317). -/
  wb : List WbEnt
  wbWait : List Msg
  /-- Forwards and invalidations of another socket's home that a proxy home carries out, and those that wait for their line (R312,
  R323). -/
  snoops : List Txn
  fwds : List Msg
  /-- The round-robin pointer over the sending mesh stops (R321). -/
  rr : Nat
  deriving DecidableEq, Repr

/-- A home with an empty snoop filter. -/
def Home.reset : Home := { sf := [], txns := [], cq := [], parked := [], cxlReads := [], wb := [], wbWait := [], snoops := [], fwds := [], rr := 0 }

/-- An error window of a device or a rank (R347, R292): corrected lines and the timebase bits [63:16] of its start. -/
structure ErrWin where
  ce : Nat
  start : Nat
  deriving DecidableEq, Repr

/-- A translation held by an IOMMU (R479): routing ID, PASID, the page of the I/O address, its size in bits, the physical
base, permissions, and the lines of the table entries it was built from. -/
structure IoTlbEnt where
  rid : Nat
  pasid : Nat
  page : Nat
  bits : Nat
  pa : Nat
  r : Bool
  w : Bool
  lines : List Nat
  deriving DecidableEq, Repr

/-- The IOTLB and the cached table lines of one IOMMU (R479). -/
structure Iommu where
  tlb : List IoTlbEnt
  lines : List Nat
  /-- Routing IDs refused until an UNBLOCK names them (R480). -/
  blocked : List Nat
  deriving DecidableEq, Repr

/-- An IOMMU that holds nothing. -/
def Iommu.reset : Iommu := { tlb := [], lines := [], blocked := [] }

/-- Symbol errors standing in a stored line: symbol and error value, whether an injection made them (R594, R596), and the devices that
a probe of the line finds failing (R348). -/
structure RawErr where
  syms : List (Nat × Nat)
  inj : Bool
  bad : List Nat
  deriving DecidableEq, Repr

/-- A first write stalled on a full fill table (R359). -/
structure StalledWrite where
  chline : Nat
  data : List Word
  mask : Nat
  walled : Bool
  deriving DecidableEq, Repr

/-- A memory channel (R339 to R365). -/
structure Chan where
  /-- Valid granules, by number (R356). -/
  valid : Tbl Bool
  /-- The fill table: granule and the 512-bit done map (R356), in order of allocation, at most 64. -/
  fill : List (Nat × Nat)
  /-- First writes stalled on a full fill table, oldest first (R359). -/
  stalled : List StalledWrite
  /-- Symbol errors standing in the stored lines, by channel line. -/
  raw : Tbl RawErr
  /-- The next granule that the Groundskeeper initialises (R360) and the next line that its patrol reads (R361). -/
  initPos : Nat
  patrolPos : Nat
  /-- Windows of the devices, by 32 × rank + device, and of the ranks. -/
  devWin : Tbl ErrWin
  rankWin : Tbl ErrWin
  /-- Serial number of the DIMM in each of the two slots (R351). -/
  serial : List Nat
  /-- Refresh doubled for the DIMM's ranks (R363). -/
  fastRefresh : List Bool
  /-- Ranks out of service for calibration are not held: the calibration is one step. Timebase of each rank's last ZQ
  calibration and oscillator read (R362). -/
  lastZq : Tbl Nat
  lastOsc : Tbl Nat
  deriving DecidableEq, Repr

/-- A channel before training. -/
def Chan.reset : Chan :=
  { valid := [], fill := [], stalled := [], raw := [], initPos := 0, patrolPos := 0, devWin := [], rankWin := [], serial := [0, 0],
    fastRefresh := [false, false], lastZq := [], lastOsc := [] }

end Sys2Proof.Machine
end

