-- ==== Sys2Proof/Machine/IoTypes.lean ====
section
/-! DEFINITION. State of the I/O root complex (15_io_root_complex.md): configuration registers, MSI-X tables, downstream reads that
wait for a completion, address translation caches, hot-plug slots; and the boot configuration (Table 19-5). -/
set_option autoImplicit false
namespace Sys2Proof.Machine

/-- The boot configuration of one x16 port (PORTn of Table 19-5): option of Table 15-1, CXL, HP and SSC bits per root
position, slot power limits and physical slot numbers. -/
structure PortCfg where
  option : Nat
  cxl : Nat
  hp : Nat
  ssc : Nat
  power : List Nat
  slot : List Nat
  deriving DecidableEq, Repr

/-- The boot configuration (Table 19-5). -/
structure BootCfg where
  safeTiles : Nat
  iqLog2n : Nat
  iqBase : Nat
  sysqBase : Nat
  memRange : List (BitVec 64)
  fbRoute : BitVec 64
  fbSrange : List (BitVec 64)
  ports : List PortCfg
  subsysVendor : Nat
  subsysId : Nat
  tsDelay : Nat
  loadPa : Nat
  entryPa : Nat
  deriving DecidableEq, Repr

/-- The requester of a downstream read: a logical core, a program of a kiosk (contexts 0 to 3, handler 4, block engine 5), a
CONFIGURATION_REQUEST, a function that reads a peer through a root port (R482), or one that no longer waits for it (R460, R461). -/
inductive IoAsk where
  | core (lc : Nat)
  | kiosk (k prog : Nat)
  | config
  | peer (rp rid : Nat)
  | gone
  deriving DecidableEq, Repr

/-- A read that an initiator slot measures (R559): the agent's number, the line or device address, when it was injected, and the slots. -/
structure IselReq where
  agent : Nat
  key : Nat
  dev : Bool
  since : Nat
  slots : List Nat
  deriving DecidableEq, Repr

/-- A downstream read that waits for its completion (R468): its requester, its root port (20 × I/O die + 4 × x16 port + root position), address and
size, whether it is a configuration read and has been sent (R463: at most 1,024 of a root port are outstanding), and the answer once it has come. -/
structure MmioReq where
  who : IoAsk
  port : Nat
  addr : Nat
  size : Nat
  cfg : Bool
  sent : Bool
  answer : Option (BitVec 64)
  deriving DecidableEq, Repr

/-- An inbound memory request that is not performed yet (R469, R478): whether it came translated; once it is translated to memory, its
address and world; the words its lines have given, or how many of its lines have been written; and whether the invalidation command
in progress waits for it (R479, R480). -/
structure InReq where
  t : Tlp
  translated : Bool
  dest : Option (Nat × Bool)
  words : List Word
  lines : Nat
  awaited : Bool
  deriving DecidableEq, Repr

/-- A request as it arrives. -/
def InReq.arrived (t : Tlp) (translated : Bool) : InReq :=
  { t := t, translated := translated, dest := none, words := [], lines := 0, awaited := false }

/-- A message of a function's MSI-X vector on its way to memory or an interrupt queue (R470). -/
structure MsixMsg where
  rid : Nat
  addr : Nat
  data : Nat
  deriving DecidableEq, Repr

/-- A Translation Request whose table words have not all come (R478). -/
structure XlatReq where
  rp : Nat
  rid : Nat
  pasid : Option Nat
  addr : Nat
  deriving DecidableEq, Repr

/-- The requests of kiosk clusters that an invalidation waits for: memory requests, and reads of peers (R479 to R481). -/
structure IoAwait where
  msgs : List Msg
  reads : List MmioReq
  deriving DecidableEq, Repr

/-- An invalidation command in progress (R480): whether the function has sent all its completions, and the kiosk requests that must be
performed. -/
structure InvRun where
  come : Bool
  kiosks : IoAwait
  deriving DecidableEq, Repr

/-- An entry of a kiosk cluster's address translation cache (R481). -/
structure AtcEnt where
  pasid : Nat
  page : Nat
  bits : Nat
  pa : Nat
  r : Bool
  w : Bool
  deriving DecidableEq, Repr

/-- The slot of a hot-plug root port (R488, R489): the last presence bit and its equal frames, frames with the button
pressed, frames without power good, when PWR_EN was set, and whether outputs wait to be sent. -/
structure Slot where
  prsnt : Bool
  equal : Nat
  attn : Nat
  noPg : Nat
  pwrSince : Option Nat
  unsent : Bool
  deriving DecidableEq, Repr

/-- A slot that has exchanged no frame. -/
def Slot.reset : Slot := { prsnt := false, equal := 0, attn := 0, noPg := 0, pwrSince := none, unsent := false }

/-- The I/O state that is no control-space register. -/
structure IoState where
  /-- Configuration registers written, by 1024 × routing ID + dword; an unlisted one has its reset value. -/
  cfg : Tbl (BitVec 32)
  /-- Dwords of the MSI-X table and PBA page, by 1024 × routing ID + dword. -/
  msix : Tbl (BitVec 32)
  mmio : List MmioReq
  /-- Downstream requests of a function that an FLR gave up: the root port asked and the function's routing ID. -/
  late : List (Nat × Nat)
  /-- Address translation caches of the kiosk clusters, by 8 × I/O die + cluster, oldest first. -/
  atc : Tbl (List AtcEnt)
  /-- Root ports whose link is up, by root port. -/
  linkUp : Tbl Bool
  /-- The reference output of each root position as it runs: 0 off, 1 on, 3 on and down-spread (R538). -/
  refOut : Tbl Nat
  slots : Tbl Slot
  /-- The invalidation command in progress at each IOMMU. -/
  inv : Tbl InvRun
  /-- Invalidate Requests that kiosk clusters have not answered: the cluster and the requests that used what was removed (R481). -/
  atsWaits : List (Nat × IoAwait)
  /-- Trainings of each Footbridge link that failed in a row (R490, R494), by package link. -/
  retrain : Tbl Nat
  /-- Footbridge links that have trained since the last reset and have not gone down: what is sent on them during a retrain waits in
  them (R490). -/
  fbUp : Tbl Bool
  /-- Inbound memory requests that are not performed yet, oldest first (R469). -/
  reads : List InReq
  /-- MSI-X messages that wait for table words, or for the posted writes that their root port took before them (R469). -/
  msgs : List MsixMsg
  xlats : List XlatReq
  measured : List IselReq
  deriving DecidableEq, Repr

/-- The I/O state after reset. -/
def IoState.reset : IoState :=
  { cfg := [], msix := [], mmio := [], late := [], atc := [], linkUp := [], refOut := [], slots := [], inv := [], atsWaits := [], retrain := [],
    fbUp := [], reads := [], msgs := [], xlats := [], measured := [] }

/-- A root port configuration with nothing selected. -/
def PortCfg.none : PortCfg := { option := 0, cxl := 0, hp := 0, ssc := 0, power := [0, 0, 0, 0], slot := [0, 0, 0, 0] }

/-- A boot configuration before one is read. -/
def BootCfg.reset : BootCfg :=
  { safeTiles := 0, iqLog2n := 6, iqBase := 0, sysqBase := 0, memRange := [0, 0, 0, 0], fbRoute := 0, fbSrange := List.replicate 8 0,
    ports := List.replicate 10 PortCfg.none, subsysVendor := 0, subsysId := 0, tsDelay := 0, loadPa := 0, entryPa := 0 }

end Sys2Proof.Machine
end

