-- ==== Sys2Proof/Machine/BootTypes.lean ====
section
/-! DEFINITION. State of power-up, boot and self-test (19_boot_selftest.md), of the life record (20_errors_ras_life.md), of the
control space beside its registers (02_control_space.md), and of counter rounds (18_counters_probes.md). -/
set_option autoImplicit false
namespace Sys2Proof.Machine

/-- The fuses beside PART (Table 19-2). Hashes are lists of 48 byte values; an unprogrammed one is all 0. -/
structure Fuses where
  /-- DEBUG: the debug fuse of a part is intact. That of every PM-8512-X1 is (Table 0-1). -/
  debugOk : Bool
  autoOn : Bool
  keyHash : List (List Nat)
  revoke : Nat
  svn : Nat
  mfgHash : List Nat
  seed : Nat
  deriving DecidableEq, Repr

/-- Fuses of which none is blown. -/
def Fuses.reset : Fuses :=
  { debugOk := false, autoOn := false, keyHash := List.replicate 4 (List.replicate 48 0), revoke := 0, svn := 0,
    mfgHash := List.replicate 48 0, seed := 0 }

/-- A copy of the boot bundle as the flash die holds it (R564): whether the format code is valid and the parts fit the flash, the
fields of the header, every header byte before the signature, and the three parts, with the boot configuration also
as its fields. -/
structure Bundle where
  format : Bool
  svn : Nat
  slot : Nat
  key : List Nat
  lengths : List Nat
  digests : List (List Nat)
  r : Nat
  s : Nat
  header : List Nat
  parts : List (List Nat)
  conf : BootCfg
  deriving DecidableEq, Repr

/-- A flash copy that holds no bundle. -/
def Bundle.none : Bundle :=
  { format := false, svn := 0, slot := 0, key := [], lengths := [], digests := [], r := 0, s := 0, header := [], parts := [],
    conf := BootCfg.reset }

/-- What the lifetime record holds of a physical tile (Table 20-5): its GK_TILE and GK_WEAR values, the first measurement's offset,
HWDIS of its L2 and LLC slice, and the power-on hours when it first carried a die index (R601). -/
structure TileLife where
  tile : BitVec 64
  wear : BitVec 64
  offset : Option Nat
  l2 : Nat
  llc : Nat
  since : Nat
  deriving DecidableEq, Repr

/-- A tile that has never been used: the full wear balance at the default rate (R600). -/
def TileLife.reset : TileLife := { tile := 0, wear := 75600, offset := none, l2 := 0, llc := 0, since := 0 }

/-- A saved device mark (R351). -/
structure Mark where
  chan : Nat
  rank : Nat
  dev : Nat
  serial : Nat
  deriving DecidableEq, Repr

/-- A retirement (Table 20-5): 1 AGE, 2 WAYS, 3 FATAL, 4 TEST, 0 none of them. -/
structure Retired where
  poh : Nat
  die : Nat
  old : Nat
  new : Nat
  reason : Nat
  deriving DecidableEq, Repr

/-- The lifetime record (Table 20-5). Physical tiles are numbered 34 × die + scan index; `maps` gives the scan index of each die
index of a die; events are counted by number: fatal path causes 0 to 15, M9 entries 16 + code, watchdog expiries 32. -/
structure LifeRec where
  maps : Tbl (List Nat)
  quar : List Nat
  tiles : Tbl TileLife
  marks : List Mark
  events : Tbl Nat
  retired : List Retired
  poh : Nat
  deriving DecidableEq, Repr

/-- A lifetime record of a part that has never run. -/
def LifeRec.reset : LifeRec := { maps := [], quar := [], tiles := [], marks := [], events := [], retired := [], poh := 0 }

/-- A copy of the lifetime record on the flash die: SEQ, whether its CRC is valid, and its content (R604). -/
structure LifeCopy where
  seq : Nat
  ok : Bool
  content : LifeRec
  deriving DecidableEq, Repr

/-- The TAP's instructions (R621). -/
inductive TapIns where
  | bypass | idcode | sample | extest | intest
  deriving DecidableEq, Repr

/-- The Gatehouse's state that no register holds. -/
structure BootState where
  fuses : Fuses
  /-- SVN fuse count as read in the last M2 (R563). -/
  svn : Nat
  flashA : Bundle
  flashB : Bundle
  lifeA : LifeCopy
  lifeB : LifeCopy
  /-- The step of Table 19-1 in progress; 8 when all have ended. -/
  step : Nat
  /-- Held in M1, M2 or M3 with FAULT asserted (R577). -/
  held : Bool
  resetLow : Bool
  /-- VIN has been valid for 10 ms (R561). -/
  vinValid : Bool
  /-- A POWER_ON stands (R561). -/
  powerOn : Bool
  idHeld : Bool
  /-- ID of the last good chain frame (R617). -/
  chainLast : Option Nat
  /-- THERMTRIP_N is asserted (R614). -/
  thermtrip : Bool
  /-- The step of Table 19-6 in progress, 0 before the first and 7 when all have ended. -/
  stage : Nat
  /-- A test may run; the last request was refused with CONDITIONS. -/
  testing : Bool
  waiting : Bool
  /-- The units whose last result was rejected (R572). -/
  rejected : List TestUnit
  badStops : List Nat
  uncore : Option Nat
  /-- Whether every key slot reads zero, and whether step 2 has found so (R571, R574). -/
  keysZero : Bool
  keysRead : Option Bool
  /-- Channels whose training has ended, as bits. -/
  trained : Nat
  /-- The logical cores have yet to start in M5 (R576). -/
  coresDue : Bool
  /-- Bring-up is done but for the lock of TIMESYNC (R540). -/
  bringWait : Bool
  /-- The bundle copy accepted (R564). -/
  accepted : Option Bool
  /-- EXPIRED of the state record once M3 has made it (R567, R568). -/
  expiredAt : Option Nat
  /-- Records retained in the always-on island, by 8 × node ID + slot: the four words (R586). -/
  retained : Tbl (List (BitVec 64))
  i3c : Option Nat
  tap : TapIns
  /-- Levels of the GPIO pins as sampled and filtered (R622). -/
  gpioPins : Nat
  /-- A warm reset waits for the scrub of Walled memory (R509). -/
  scrub : Bool
  /-- The last event that selected a transition: its Trellis cycle and its rank in R26, 0 for a request to 5 for the loss of standby. -/
  event : Option (Nat × Nat) := none
  deriving DecidableEq, Repr

/-- The Gatehouse before standby first rises: no ID, an empty flash, unblown fuses. -/
def BootState.reset : BootState :=
  { fuses := Fuses.reset, svn := 0, flashA := Bundle.none, flashB := Bundle.none, lifeA := ⟨0, false, LifeRec.reset⟩,
    lifeB := ⟨0, false, LifeRec.reset⟩, step := 0, held := false, resetLow := false, vinValid := false, powerOn := false,
    idHeld := false, chainLast := none, thermtrip := false, stage := 0, testing := false, waiting := false, rejected := [],
    badStops := [], uncore := none, keysZero := true, keysRead := none, trained := 0, coresDue := false, bringWait := false, accepted := none,
    expiredAt := none,
    retained := [], i3c := none, tap := .idcode, gpioPins := 0,
    scrub := false, event := none }

/-- What the Groundskeeper and the Gatehouse keep of the life of the part while it runs. -/
structure LifeState where
  maps : Tbl (List Nat)
  quar : List Nat
  /-- Tiles that carry no die index now. -/
  tiles : Tbl TileLife
  /-- First-measurement offset and hours of first use of the tiles that carry one, by logical tile. -/
  offset : Tbl Nat
  since : Tbl Nat
  /-- The last two measurements of each logical tile, the newer first (R598). -/
  runs : Tbl (List Nat)
  /-- Seconds at P0 to P2 not yet a full hour, by logical tile (R600). -/
  hotSec : Tbl Nat
  marks : List Mark
  events : Tbl Nat
  retired : List Retired
  /-- Power-on hours of the record read in M2. -/
  poh : Nat
  deriving DecidableEq, Repr

/-- Nothing read yet. -/
def LifeState.reset : LifeState :=
  { maps := [], quar := [], tiles := [], offset := [], since := [], runs := [], hotSec := [], marks := [], events := [], retired := [],
    poh := 0 }

/-- An armed guarded pair (R52): who wrote, what, and when. -/
structure GuardArm where
  who : CtlWho
  value : BitVec 64
  time : Nat
  deriving DecidableEq, Repr

/-- What the shadow copy of a slow register may hold (R48 to R50): the value at the last tick, the values before it with the time at which
each was last seen, and, while the node's clock is stopped, the value that the copy keeps. -/
structure Shadow where
  last : BitVec 64
  past : List (BitVec 64 × Nat)
  held : Option (BitVec 64)
  deriving DecidableEq, Repr

/-- Control-space state beside the registers: shadow copies (R48) and armed pairs (R52), by control-space offset, and the Trellis cycle of the
bus error that the root has recorded (R56). -/
structure CtlState where
  shadow : Tbl Shadow
  guard : Tbl GuardArm
  busCycle : Option Nat := none
  deriving DecidableEq, Repr

/-- A counter round on its way (R551 to R554): its number, tick and buffer address, the records latched and their indices, and the
records written. -/
structure Round where
  k : Nat
  tick : Nat
  /-- The tick in this socket's own timebase (R541). -/
  own : Nat
  buffer : Nat
  latched : Bool
  complete : Nat
  /-- The header once its writing has begun, and the spans of words still to be written (R554). -/
  header : List Word
  left : List (Nat × Nat)
  deriving DecidableEq, Repr

/-- Rounds announced and not ended, oldest first, and the next round's number. -/
structure RndState where
  rounds : List Round
  next : Nat
  deriving DecidableEq, Repr

end Sys2Proof.Machine
end

