-- ==== Sys2Proof/Machine/KioskTypes.lean ====
section
/-! DEFINITION. State of a kiosk (14_kiosk_engines.md): contexts, handler bank, control registers, SRAMs, waiting queue
operations and long operations. -/
set_option autoImplicit false
namespace Sys2Proof.Machine

/-- A program position: the next instruction, the one after it, and whether the next stands in a delay slot (R446). -/
structure KPos where
  pc : Nat
  npc : Nat
  slot : Bool
  deriving DecidableEq, Repr

/-- A waiting queue instruction of a context (R442): where its status and its single-word entry go, or the local address of
its entry. -/
structure KWait where
  kind : WaitKind
  queue : Nat
  dest : Nat
  entry : Nat
  g : Bool
  loc : Nat
  deadline : Option Nat
  deriving DecidableEq, Repr

/-- The kinds of long operation (R449). -/
inductive KLongKind where
  | div | divu | rem | remu | bpush | bpop | bcopy | bfill | bcrc | bhash
  deriving DecidableEq, Repr

/-- The unit of a long operation: divider, block engine, bulk-queue engine (R449). -/
def KLongKind.unit (k : KLongKind) : Nat :=
  match k with
  | .div | .divu | .rem | .remu => 0
  | .bcopy | .bfill | .bcrc | .bhash => 1
  | .bpush | .bpop => 2

/-- A long operation in progress (R449): its context (4 for the handler), the place of its destination register, its PC and
operands as read at issue. -/
structure KLong where
  kind : KLongKind
  ctx : Nat
  dest : Nat
  pc : Nat
  a : Word
  b : Word
  d : Word
  fn : Nat
  kp1 : Bool
  /-- Entries that a bulk operation has moved. -/
  moved : Nat
  deriving DecidableEq, Repr

/-- The fault of a long operation, waiting to be taken (R450). -/
structure KFault where
  ctx : Nat
  pc : Nat
  code : Nat
  info : Nat
  addr : Option (BitVec 64)
  deriving DecidableEq, Repr

/-- One kiosk. -/
structure Kiosk where
  /-- k1 to k15 of the contexts, by 16 × context + register; the handler bank (R435) stands at 64 to 79. -/
  regs : Tbl Word
  /-- Program positions of contexts 0 to 3, and of the handler at 4. -/
  pos : Tbl KPos
  running : Option Nat
  /-- The context that ran last (R434). -/
  last : Nat
  handler : Bool
  noctx : Bool
  savedIe : Bool
  /-- The kiosk control registers of Table 14-5, by number. -/
  kcr : Tbl (BitVec 64)
  waits : Tbl KWait
  longs : List KLong
  lfaults : List KFault
  /-- Contexts being stopped, with the CODE of their record: they wait for an instruction boundary, then for their long operations and
  stores (R460, R451). -/
  stopping : Tbl Nat
  /-- The word of the lower part of the split access in M, once that part has been performed (R448). -/
  half : Option Word
  /-- Lines whose outstanding read belongs to an abandoned instruction: its answer is dropped, and the read sent again (R457). -/
  stale : List Nat
  /-- Instruction and data SRAM words, and the words in error: 1 correctable, 2 not (R430). -/
  isram : Tbl Word
  ibad : Tbl Nat
  dsram : Tbl Word
  dbad : Tbl Nat
  /-- The branch predictor (R447). -/
  pred : Predictor
  deriving DecidableEq, Repr

/-- A position at an address. -/
def KPos.at (pc : Nat) : KPos := { pc := pc % 65536, npc := (pc + 4) % 65536, slot := false }

/-- A kiosk after reset. -/
def Kiosk.reset : Kiosk :=
  { regs := [], pos := [], running := none, last := 3, handler := false, noctx := false, savedIe := false,
    kcr := [], waits := [], longs := [], lfaults := [], stopping := [], half := none, stale := [], isram := [], ibad := [], dsram := [], dbad := [],
    pred := Predictor.cold }

end Sys2Proof.Machine
end

