-- ==== Sys2Proof/Machine/MeshTypes.lean ====
section
/-! DEFINITION. State of the mesh (12_mesh_trellis.md): flits between stops and the phase of a flip. -/
set_option autoImplicit false
namespace Sys2Proof.Machine

/-- A flit on its way to a stop's input port, the errors an injection put in it (0 none, 1 correctable, 2 not), and how
often it has been replayed. -/
structure FlitAt where
  die : Nat
  stop : Nat
  port : Nat
  flit : Flit
  err : Nat
  inj : Bool
  tries : Nat
  deriving DecidableEq, Repr

/-- A flit in an input buffer, the contract of a timed flit past its slot (R383), and the time before which an injected delay holds it. -/
structure FlitWait where
  flit : Flit
  late : Option Nat
  due : Nat
  deriving DecidableEq, Repr

/-- The turn of a channel at an output port (R385): where the round-robin pointer stands, the input port whose packet has started, and that
packet's contract on the timed channel. -/
structure PortTurn where
  next : Nat
  turn : Option Nat
  con : Nat
  deriving DecidableEq, Repr

/-- A channel that has sent nothing. -/
def PortTurn.reset : PortTurn := { next := 0, turn := none, con := 0 }

/-- A staged trace entry (R558): when it matched, its probe, and the entry. -/
structure TraceEnt where
  time : Nat
  probe : Nat
  word : Nat
  deriving DecidableEq, Repr

/-- The ports of the stops. Channels of ports are numbered 4,096 × die + 64 × stop + 8 × port + channel. -/
structure MeshPorts where
  /-- Input buffers (R375). -/
  buf : Tbl (List FlitWait)
  /-- Output ports' turns (R385). -/
  turns : Tbl PortTurn
  /-- Until when injection withholds a credit of an input buffer (Table 20-4). -/
  starve : Tbl Nat
  /-- When slot 0 of each die's frames last restarted (R386). -/
  base : Tbl Nat
  /-- Slot registers changed since their port's last slot 0, as they were (R388). -/
  oldSlots : Tbl (BitVec 64)
  /-- Staging queues of the trace buffers, by stop (R558). -/
  staging : Tbl (List TraceEnt)
  deriving DecidableEq, Repr

/-- Ports with nothing in them. -/
def MeshPorts.reset : MeshPorts := { buf := [], turns := [], starve := [], base := [], oldSlots := [], staging := [] }

/-- The phase of a flip (R391). -/
inductive FlipPhase where
  | none | hold | flipped
  deriving DecidableEq, Repr

end Sys2Proof.Machine
end

