-- ==== Sys2Proof/Machine/UrnTypes.lean ====
section
/-! DEFINITION. State of the Urn (13_urn_timed_service.md): the caddy, waiting operations, held doorbells, the kinds of the
entries of interrupt queues, answers and state messages on their way. The descriptors are the URN_ registers. -/
set_option autoImplicit false
namespace Sys2Proof.Machine

/-- An entry held in the caddy (R404), by queue and count index. -/
structure CaddyEnt where
  queue : Nat
  idx : Nat
  words : List Word
  timed : Bool
  deriving DecidableEq, Repr

/-- A waiting operation (R407), or a push waiting for caddy space (R404). -/
structure UrnWait where
  who : QWho
  kind : WaitKind
  queue : Nat
  words : List Word
  /-- The push waits for caddy space, not for room in its queue. -/
  caddy : Bool
  timed : Bool
  /-- W of a push that waits for caddy space (Table 13-4). -/
  hold : Bool
  deriving DecidableEq, Repr

/-- An answer of the Urn on its way to a core or kiosk (R161). -/
structure UrnAns where
  who : QWho
  status : Nat
  words : List Word
  /-- For a core's own interrupt queue: the entry count after the operation and its sequence number (R414). -/
  iq : Option (Nat × Nat)
  deriving DecidableEq, Repr

/-- A doorbell or MSI held for a full lossless queue (Table 13-4). -/
structure HoldEnt where
  queue : Nat
  words : List Word
  msi : Bool
  /-- A timed push, which uses the caddy reserve (R426). -/
  timed : Bool
  /-- When it entered the hold. -/
  since : Nat
  deriving DecidableEq, Repr

/-- A doorbell or MSI write that a half has not accepted yet: it stays in its root port's posted-write buffer (Table 13-4). -/
inductive PortWrite where
  | doorbell (rid : Nat) (walled : Bool) (queue : Nat) (words : List (BitVec 64)) (sized late : Bool)
  | msi (lc source data : Nat)
  deriving DecidableEq, Repr

/-- One half of the Urn. -/
structure UrnHalf where
  /-- Entries accepted and not yet written to their rings, oldest first. -/
  caddy : List CaddyEnt
  waiting : List UrnWait
  /-- Doorbells and MSIs held for full lossless queues, 256 at most (Table 13-4). -/
  hold : List HoldEnt
  /-- Writes not accepted while the hold is full, oldest first (Table 13-4). -/
  ports : List PortWrite
  /-- Kinds of the entries of each interrupt queue, oldest first (R413). -/
  iqKinds : Tbl (List Nat)
  deriving DecidableEq, Repr

/-- A half with nothing in it. -/
def UrnHalf.reset : UrnHalf := { caddy := [], waiting := [], hold := [], ports := [], iqKinds := [] }

/-- A state message on its way to a tile (R414). -/
structure StateMsg where
  lc : Nat
  seq : Nat
  pending : Bool
  deriving DecidableEq, Repr

end Sys2Proof.Machine
end

