-- ==== Sys2Proof/Machine/OutTypes.lean ====
section
/-! DEFINITION. What the package sends to the outside: to other sockets, CXL and PCIe devices, its pins and its management
port. -/
set_option autoImplicit false
namespace Sys2Proof.Machine

/-- Something sent outside the package. -/
inductive Out where
  /-- A coherence message to another socket over a Footbridge link (R490). -/
  | coh (m : Msg)
  /-- A CXL.mem read of a line (R464). -/
  | cxlRead (iod line : Nat)
  /-- A CXL.mem write of a line, and the 64-byte halves that are sent marked poisoned (R82). -/
  | cxlWrite (iod line : Nat) (data : List Word) (poison : Nat)
  /-- The answer of a stop to a root POLL (R395): flits of the held channels, and flits of another epoch. -/
  | poll (die stop held prev : Nat)
  /-- A memory or configuration read sent below a root port (R468, R465). -/
  | portRead (rp addr size : Nat) (cfg : Bool)
  /-- A memory or configuration write sent below a root port. -/
  | portWrite (rp addr size : Nat) (data : BitVec 64) (cfg : Bool)
  /-- The completion of an inbound read: status 0 Successful, 1 Unsupported Request; its data; whether it is poisoned. -/
  | tlpCompletion (rid : Nat) (status : Nat) (data : List (BitVec 64)) (poisoned : Bool)
  /-- The answer to a Translation Request: address, size in bits, R and W (R478). -/
  | translation (rid pa bits : Nat) (r w : Bool)
  /-- The answer of a configuration read: routing ID, dword and value (R465). -/
  | cfg (rid d : Nat) (value : BitVec 32)
  /-- A request sent to a peer (R482): target as IOM_PWIN.TARGET codes it. -/
  | peer (target addr size : Nat) (write : Bool) (data : List (BitVec 64))
  /-- An ATS Invalidate Request to a function. -/
  | atsInvalidate (rid addr bits pasid : Nat) (pv : Bool)
  /-- An ATS invalidation completion of a kiosk cluster. -/
  | atsComplete (rid : Nat)
  /-- The hot-plug frame of an x16 port (Table 15-10). -/
  | slotFrame (port bits : Nat)
  /-- A DOMAIN_OFF error response to a packet held for, or meeting, a domain that is not running (R531). -/
  | domainOff (dom : Nat) (packet : List Flit)
  /-- A message to other sockets that is no coherence message: IPIs, broadcast TLBIs, counter-round commands (R490). -/
  | footbridge (socket kind : Nat) (data : List Nat)
  /-- An I3C in-band interrupt: FAULT became asserted or the device entered M9 (R620). -/
  | inBand
  /-- A frame with an ID on CHAIN_OUT (R617). -/
  | chainFrame (id : Nat)
  /-- A TIMESYNC pulse of socket 0 (R540). -/
  | timesync
  /-- An SPDM ERROR response: 3 is Busy, 1 InvalidRequest, 7 UnsupportedRequest (R568). -/
  | spdmError (code : Nat)
  /-- An SPDM response to a request code: numbered parts, each with its bytes. -/
  | spdm (request : Nat) (parts : List (Nat × List Nat))
  /-- The completion of a control-space access: its initiator, the bus-error reason of Table 2-4 or 0, and read data. -/
  | ctl (w : CtlWho) (reason : Nat) (data : BitVec 64)
  /-- What the TAP shifts out: the identification code, or the one bit of the bypass register (R621). -/
  | tdo (width value : Nat)
  deriving DecidableEq, Repr

end Sys2Proof.Machine
end

