-- ==== Sys2Proof/Machine/PowerTypes.lean ====
section
/-! DEFINITION. Power state that no register holds (17_power_clocks.md): running levels, thermal caps, the P0 queue, the governor's
measure, packets held for sleeping domains, wakes, and what a package sleep restores. -/
set_option autoImplicit false
namespace Sys2Proof.Machine

/-- The level slots of a tile (R526): running level, change in progress, pending change. -/
structure LevelSt where
  cur : Nat
  prog : Option Nat
  pend : Option Nat
  deriving DecidableEq, Repr

/-- P5, nothing in progress (PWR_TILE_PERF reset). -/
def LevelSt.reset : LevelSt := { cur := 5, prog := none, pend := none }

/-- Power state beside the registers. Domains have the numbers of Table 17-2. -/
structure PwrState where
  lvl : Tbl LevelSt
  /-- Thermal cap of each logical tile. -/
  tcap : Tbl Nat
  /-- Tiles waiting for P0, oldest first (R520). -/
  p0q : List Nat
  /-- Milliseconds in a row with the average below 95 % of TDP_W (R521). -/
  capGood : Nat
  /-- Governor ticks in a row with the target below the level (R516). -/
  govLow : Nat
  /-- The tile core clocks are stopped (R517). -/
  vstop : Bool
  /-- Throttle level in effect at each logical tile (R246). -/
  throttle : Tbl Nat
  /-- Packets held for each domain (R531). -/
  held : Tbl (List (List Flit))
  /-- Tiles whose pending request waits for the conditions of R528, oldest first. -/
  lower : List Nat
  /-- State of each domain before the package sleep (R534, R535). -/
  sleep : List (Nat × Nat)
  /-- Clock target not yet applied, by die (R537). -/
  clk : Tbl (BitVec 64)
  /-- Guardbands applied at each logical tile, as GK_TILE [19:8] at its last level change or ramp (R599). -/
  gb : Tbl Nat
  deriving DecidableEq, Repr

/-- Power state after reset. -/
def PwrState.reset : PwrState :=
  { lvl := [], tcap := [], p0q := [], capGood := 0, govLow := 0, vstop := false, throttle := [], held := [], lower := [], sleep := [],
    clk := [], gb := [] }

end Sys2Proof.Machine
end

