-- ==== Sys2Proof/Machine/RegMap.lean ====
section
/-! DEFINITION. The control-space register map: for every register of the spec's register tables its offset, array
dimensions, reset value and fields with their access codes, and the list of the registers each kind of node implements
(R36 to R38, Table 2-3). A register array has one pair (stride, count) per dimension;
a definition lists id, offset, dimensions, reset, whether it is Walled only, and its fields. -/
set_option autoImplicit false
namespace Sys2Proof.Machine

/-- The access codes of register fields (R8, R46 to R55). -/
inductive Acc where
  | ro | rw | w1c | w1s | rc | wo | rws | ros | gp | wl
  deriving DecidableEq, Repr

/-- A field of a register: lowest bit, width, access code. -/
structure RField where
  lo : Nat
  n : Nat
  acc : Acc
  deriving DecidableEq, Repr

/-- A register or register array. -/
structure RegDef where
  id : Nat
  off : Nat
  dims : List (Nat × Nat)
  reset : Nat
  walledOnly : Bool
  fields : List RField
  deriving DecidableEq, Repr

/-- The kinds of control-space node (Table 2-3). -/
inductive NodeCls where
  | tile
  | llc
  | bridge
  | cdPower
  | chan
  | port
  | fb
  | cluster
  | urn
  | tsv
  | home
  | iommu
  | gk
  | iodMesh
  | iodPower
  | flash
  | regul
  | root
  | gh
  | ww
  | tb
  | rnd
  | pkg
  deriving DecidableEq, Repr

def TRL_NODE_ID_NODE : RField := ⟨0, 14, .ro⟩
def TRL_NODE_ID_SLOW : RField := ⟨16, 1, .ro⟩
def TRL_NODE_CTL_SNAP : RField := ⟨0, 1, .w1s⟩
def TRL_NODE_CTL_LOCK : RField := ⟨1, 1, .w1s⟩
def TRL_NODE_STATUS_GUARD_VIOL : RField := ⟨0, 32, .rc⟩
def TRL_NODE_STATUS_LOCK_VIOL : RField := ⟨32, 16, .rc⟩
def TRL_NODE_STATUS_GUARD_ARMED : RField := ⟨48, 1, .ro⟩
def TRL_NODE_STATUS_SNAP_FAIL : RField := ⟨49, 1, .w1c⟩
def TRL_BUSERR_INFO_REASON : RField := ⟨0, 4, .ro⟩
def TRL_BUSERR_INFO_KIND : RField := ⟨8, 4, .ro⟩
def TRL_BUSERR_INFO_INITIATOR : RField := ⟨16, 16, .ro⟩
def TRL_BUSERR_INFO_WRITE : RField := ⟨32, 1, .ro⟩
def TRL_BUSERR_INFO_WORLD : RField := ⟨33, 1, .ro⟩
def TRL_BUSERR_INFO_MORE : RField := ⟨34, 1, .w1c⟩
def TRL_BUSERR_INFO_VALID : RField := ⟨63, 1, .w1c⟩
def TRL_BUSERR_ADDR_OFFSET : RField := ⟨0, 36, .ro⟩
def ARB_STATUS_MODE : RField := ⟨0, 1, .ro⟩
def ARB_STATUS_HELD : RField := ⟨1, 1, .ro⟩
def ARB_STATUS_LOCKSTEP_BROKEN : RField := ⟨2, 1, .ro⟩
def ARB_STATUS_RECOVERING : RField := ⟨3, 1, .ro⟩
def ARB_MISMATCH_RECOVERED : RField := ⟨0, 32, .rc⟩
def ARB_MISMATCH_REG_RESYNC : RField := ⟨32, 16, .rc⟩
def ARB_MISMATCH_PAIR : RField := ⟨48, 16, .rc⟩
def ARB_LAST_PC_VALID : RField := ⟨0, 1, .ro⟩
def ARB_LAST_PC_PC : RField := ⟨2, 56, .ro⟩
def ARB_LAST_TIME_TIME : RField := ⟨0, 64, .ro⟩
def ARB_RB_STATUS_OCC : RField := ⟨0, 6, .ro⟩
def ARB_RB_STATUS_HWM : RField := ⟨8, 6, .rc⟩
def ARB_RB_STATUS_FULL_CYCLES : RField := ⟨16, 32, .rc⟩
def ARB_RB_STATUS_LOG_OCC : RField := ⟨48, 3, .ro⟩
def L2_CTL_FLUSH : RField := ⟨0, 1, .w1s⟩
def L2_CTL_PREF_EN : RField := ⟨1, 1, .rw⟩
def L2_STATUS_FLUSH_DONE : RField := ⟨0, 1, .w1c⟩
def L2_STATUS_WAY_DONE : RField := ⟨1, 1, .w1c⟩
def L2_STATUS_REFUSED : RField := ⟨2, 1, .w1c⟩
def L2_STATUS_WAY_LIMIT : RField := ⟨3, 1, .w1c⟩
def L2_WAY_DIS_DIS : RField := ⟨0, 16, .rw⟩
def L2_WAY_DIS_HWDIS : RField := ⟨16, 16, .ro⟩
def L2_WAY_DIS_PENDING : RField := ⟨32, 16, .ro⟩
def L2_LFSR_STATE : RField := ⟨0, 31, .rw⟩
def L2_WAYERR_CE : RField := ⟨0, 5, .ro⟩
def L2_WAYERR_UE : RField := ⟨8, 2, .ro⟩
def L2_WAYERR_WSTART : RField := ⟨16, 48, .ro⟩
def LLC_CTL_FLUSH : RField := ⟨0, 1, .w1s⟩
def LLC_STATUS_FLUSH_DONE : RField := ⟨0, 1, .w1c⟩
def LLC_STATUS_WAY_DONE : RField := ⟨1, 1, .w1c⟩
def LLC_STATUS_REFUSED : RField := ⟨2, 1, .w1c⟩
def LLC_STATUS_WAY_LIMIT : RField := ⟨3, 1, .w1c⟩
def LLC_STATUS_MASK_DONE : RField := ⟨4, 1, .w1c⟩
def LLC_WAY_DIS_DIS : RField := ⟨0, 16, .rw⟩
def LLC_WAY_DIS_HWDIS : RField := ⟨16, 16, .ro⟩
def LLC_WAY_DIS_PENDING : RField := ⟨32, 16, .ro⟩
def LLC_LFSR_STATE : RField := ⟨0, 31, .rw⟩
def LLC_VB_STATUS_OCC : RField := ⟨0, 7, .ro⟩
def LLC_VB_STATUS_RECALLS : RField := ⟨16, 32, .rc⟩
def LLC_VB_STATUS_OVERFLOWS : RField := ⟨48, 16, .rc⟩
def LLC_WALLED_WAYS_MASK : RField := ⟨0, 16, .rw⟩
def LLC_WAYERR_CE : RField := ⟨0, 5, .ro⟩
def LLC_WAYERR_UE : RField := ⟨8, 2, .ro⟩
def LLC_WAYERR_WSTART : RField := ⟨16, 48, .ro⟩
def HOME_TIMEOUT_US : RField := ⟨0, 20, .wl⟩
def HOME_STATUS_REFUSED : RField := ⟨0, 1, .w1c⟩
def HOME_STATUS_TIMEOUT : RField := ⟨1, 1, .w1c⟩
def HOME_STATUS_DEAD_MSG : RField := ⟨2, 1, .w1c⟩
def HOME_DEAD_DIES : RField := ⟨0, 8, .ro⟩
def HOME_DEAD_SOCKETS : RField := ⟨8, 8, .ro⟩
def HOME_DEAD_IOMMU : RField := ⟨16, 2, .ro⟩
def HOME_TO_LOG_LINE : RField := ⟨0, 45, .ro⟩
def HOME_TO_LOG_AGENT : RField := ⟨45, 5, .ro⟩
def HOME_TO_LOG_CMP : RField := ⟨50, 1, .ro⟩
def HOME_TO_LOG_VALID : RField := ⟨63, 1, .w1c⟩
def HOME_SF_STATUS_OCC : RField := ⟨0, 23, .ro⟩
def HOME_SF_STATUS_EVICT : RField := ⟨32, 32, .rc⟩
def HOME_CQ_STATUS_OCC : RField := ⟨0, 5, .ro⟩
def HOME_CQ_STATUS_NACKS : RField := ⟨16, 32, .rc⟩
def HOME_CQ_STATUS_HELD_WB : RField := ⟨48, 16, .rc⟩
def HOME_LFSR_STATE : RField := ⟨0, 31, .rw⟩
def MEM_CTL_CWB : RField := ⟨0, 1, .rw⟩
def MEM_CTL_POSTMARK : RField := ⟨1, 1, .rw⟩
def MEM_CTL_PROBE : RField := ⟨2, 1, .rw⟩
def MEM_CFG_TYPE : RField := ⟨0, 2, .ro⟩
def MEM_CFG_WIDTH : RField := ⟨2, 1, .ro⟩
def MEM_CFG_DPC : RField := ⟨3, 1, .ro⟩
def MEM_CFG_RANKS : RField := ⟨4, 3, .ro⟩
def MEM_CFG_RATE : RField := ⟨7, 3, .ro⟩
def MEM_CFG_ROWS : RField := ⟨10, 2, .ro⟩
def MEM_CFG_CAP : RField := ⟨12, 14, .ro⟩
def MEM_CFG_TRAINED : RField := ⟨26, 1, .ro⟩
def MEM_STATUS_TRAIN_FAIL : RField := ⟨0, 1, .ro⟩
def MEM_STATUS_ECC_PASS : RField := ⟨1, 1, .ro⟩
def MEM_STATUS_MAP_REFUSED : RField := ⟨2, 1, .w1c⟩
def MEM_STATUS_UNMAPPED : RField := ⟨3, 1, .w1c⟩
def MEM_STATUS_VG_STALL : RField := ⟨4, 1, .w1c⟩
def MEM_STATUS_NO_MARGIN : RField := ⟨5, 1, .ro⟩
def MEM_STATUS_MARK_REFUSED : RField := ⟨6, 1, .w1c⟩
def MEM_MARK_DEV (k : Nat) : RField := ⟨8 * k + 0, 5, .rw⟩
def MEM_MARK_HW (k : Nat) : RField := ⟨8 * k + 6, 1, .rw⟩
def MEM_MARK_VALID (k : Nat) : RField := ⟨8 * k + 7, 1, .rw⟩
def MEM_THRESH_DEV_CE : RField := ⟨0, 8, .rw⟩
def MEM_THRESH_RANK_CE : RField := ⟨8, 16, .rw⟩
def MEM_THRESH_MARK_AUTO : RField := ⟨24, 1, .rw⟩
def MEM_ERRCNT_CE : RField := ⟨0, 24, .rc⟩
def MEM_ERRCNT_UE : RField := ⟨24, 16, .rc⟩
def MEM_ERRCNT_MARKS : RField := ⟨40, 8, .rc⟩
def MEM_ERRCNT_PROBES : RField := ⟨48, 16, .rc⟩
def MEM_ERRLOG_CHLINE : RField := ⟨0, 32, .ro⟩
def MEM_ERRLOG_RANK : RField := ⟨32, 3, .ro⟩
def MEM_ERRLOG_DEV : RField := ⟨35, 5, .ro⟩
def MEM_ERRLOG_KIND : RField := ⟨40, 3, .ro⟩
def MEM_ERRLOG_PATROL : RField := ⟨43, 1, .ro⟩
def MEM_ERRLOG_VALID : RField := ⟨63, 1, .w1c⟩
def MEM_VG_STATUS_FILL_OCC : RField := ⟨0, 7, .ro⟩
def MEM_VG_STATUS_STALLS : RField := ⟨16, 16, .rc⟩
def MEM_VG_STATUS_VALID_CNT : RField := ⟨32, 24, .ro⟩
def MEM_RANGE_BASE : RField := ⟨0, 22, .wl⟩
def MEM_RANGE_LIMIT : RField := ⟨22, 22, .wl⟩
def MEM_RANGE_WAYS : RField := ⟨44, 2, .wl⟩
def MEM_RANGE_CHBASE : RField := ⟨46, 13, .wl⟩
def GK_SCRUB_CTL_EN : RField := ⟨0, 1, .rw⟩
def GK_SCRUB_CTL_PERIOD : RField := ⟨8, 8, .rw⟩
def GK_SCRUB_STATUS_POS : RField := ⟨0, 23, .ro⟩
def GK_SCRUB_STATUS_PASSES : RField := ⟨32, 16, .ro⟩
def GK_SCRUB_STATUS_BEHIND : RField := ⟨63, 1, .w1c⟩
def GK_INIT_STATUS_DONE : RField := ⟨0, 8, .ro⟩
def GK_INIT_STATUS_ALL : RField := ⟨63, 1, .ro⟩
def GK_CAL_CTL_ZQ_MS : RField := ⟨0, 10, .rw⟩
def GK_CAL_CTL_OSC_MS : RField := ⟨16, 7, .rw⟩
def MESH_STATUS_EPOCH : RField := ⟨0, 2, .ro⟩
def MESH_STATUS_INJ_EN : RField := ⟨2, 1, .ro⟩
def MESH_STATUS_HOLD : RField := ⟨3, 1, .ro⟩
def MESH_STATUS_PREV_FLITS : RField := ⟨8, 8, .ro⟩
def MESH_ERRCNT_CORR : RField := ⟨0, 24, .rc⟩
def MESH_ERRCNT_REPLAY : RField := ⟨24, 16, .rc⟩
def MESH_ERRCNT_POISONED : RField := ⟨40, 12, .rc⟩
def MESH_ERRCNT_CRC_FAIL : RField := ⟨52, 8, .rc⟩
def MESH_ERRCNT_STALE : RField := ⟨60, 4, .rc⟩
def MESH_ERRLOG_HEADER : RField := ⟨0, 32, .ro⟩
def MESH_ERRLOG_PORT : RField := ⟨32, 3, .ro⟩
def MESH_ERRLOG_KIND : RField := ⟨35, 3, .ro⟩
def MESH_ERRLOG_VALID : RField := ⟨63, 1, .w1c⟩
def MESH_TSLOT_CONTRACT (k : Nat) : RField := ⟨8 * k + 0, 6, .ro⟩
def MESH_TSLOT_VALID (k : Nat) : RField := ⟨8 * k + 7, 1, .ro⟩
def MESH_ROUTE_VIA : RField := ⟨0, 8, .rw⟩
def MESH_TILEMAP_STOP (k : Nat) : RField := ⟨8 * k + 0, 6, .rw⟩
def MESH_DIE_STATUS_CHECK : RField := ⟨0, 16, .ro⟩
def MESH_DIE_STATUS_AGREE : RField := ⟨16, 1, .ro⟩
def MESH_DIE_STATUS_REFUSED : RField := ⟨17, 1, .w1c⟩
def MESH_FLIP_CTL_GO : RField := ⟨0, 1, .w1s⟩
def MESH_FLIP_CTL_TIMEOUT_US : RField := ⟨8, 14, .wl⟩
def MESH_FLIP_STATUS_EPOCH : RField := ⟨0, 2, .ro⟩
def MESH_FLIP_STATUS_BUSY : RField := ⟨2, 1, .ro⟩
def MESH_FLIP_STATUS_DONE : RField := ⟨3, 1, .w1c⟩
def MESH_FLIP_STATUS_TIMEOUT : RField := ⟨4, 1, .w1c⟩
def MESH_FLIP_STATUS_CONTRACT : RField := ⟨5, 1, .w1c⟩
def MESH_FLIP_STATUS_MISMATCH : RField := ⟨6, 1, .w1c⟩
def MESH_FLIP_STATUS_REFUSED : RField := ⟨7, 1, .w1c⟩
def MESH_FLIP_STATUS_FLIPS : RField := ⟨32, 16, .ro⟩
def URN_CTL_HOLD_US : RField := ⟨0, 20, .rw⟩
def URN_STATUS_REFUSED : RField := ⟨0, 1, .w1c⟩
def URN_STATUS_WAIT_OVF : RField := ⟨1, 1, .w1c⟩
def URN_STATUS_REASON : RField := ⟨4, 4, .ro⟩
def URN_STATUS_WAITERS : RField := ⟨8, 11, .ro⟩
def URN_CADDY_OCC : RField := ⟨0, 15, .ro⟩
def URN_CADDY_TOCC : RField := ⟨16, 12, .ro⟩
def URN_CADDY_STALLS : RField := ⟨32, 32, .rc⟩
def URN_DROPS_IQ : RField := ⟨0, 32, .rc⟩
def URN_DROPS_HOLD : RField := ⟨32, 16, .rc⟩
def URN_DROPS_DB : RField := ⟨48, 16, .rc⟩
def URN_QCFG_EN : RField := ⟨0, 1, .rw⟩
def URN_QCFG_CLASS : RField := ⟨1, 1, .rw⟩
def URN_QCFG_POLICY : RField := ⟨2, 1, .rw⟩
def URN_QCFG_ESZ : RField := ⟨3, 2, .rw⟩
def URN_QCFG_LOG2N : RField := ⟨5, 5, .rw⟩
def URN_QCFG_RCOL : RField := ⟨10, 6, .rw⟩
def URN_QCFG_WORLD : RField := ⟨16, 1, .rw⟩
def URN_QCFG_VMCHK : RField := ⟨17, 1, .rw⟩
def URN_QCFG_CONS : RField := ⟨18, 2, .rw⟩
def URN_QCFG_PROD : RField := ⟨20, 3, .rw⟩
def URN_QCFG_IBEN : RField := ⟨23, 1, .rw⟩
def URN_QCFG_VMID : RField := ⟨32, 16, .rw⟩
def URN_QCFG_OWNID : RField := ⟨48, 16, .rw⟩
def URN_QBASE_BASE : RField := ⟨7, 45, .rw⟩
def URN_QBASE_ITARGET : RField := ⟨52, 10, .rw⟩
def URN_QPTR_HEAD : RField := ⟨0, 21, .ro⟩
def URN_QPTR_TAIL : RField := ⟨21, 21, .ro⟩
def URN_QPTR_SEQ : RField := ⟨48, 16, .ro⟩
def URN_QSTAT_DROPS : RField := ⟨0, 24, .rc⟩
def URN_QSTAT_DEMOTED : RField := ⟨24, 16, .rc⟩
def URN_QSTAT_TCON : RField := ⟨40, 6, .ro⟩
def URN_QSTAT_TVALID : RField := ⟨46, 1, .ro⟩
def URN_QSTAT_BIND_PEND : RField := ⟨47, 1, .ro⟩
def URN_QSTAT_BIND_LOST : RField := ⟨48, 1, .w1c⟩
def URN_QSTAT_TERR : RField := ⟨49, 1, .w1c⟩
def TSV_REQ0_SKIND : RField := ⟨0, 3, .rw⟩
def TSV_REQ0_SID : RField := ⟨8, 10, .rw⟩
def TSV_REQ0_RID : RField := ⟨32, 16, .rw⟩
def TSV_REQ1_QUEUE : RField := ⟨0, 16, .rw⟩
def TSV_REQ1_SIZE : RField := ⟨16, 3, .rw⟩
def TSV_REQ1_RATE : RField := ⟨24, 16, .rw⟩
def TSV_REQ1_BOUND : RField := ⟨40, 16, .rw⟩
def TSV_CMD_ADMIT : RField := ⟨0, 1, .w1s⟩
def TSV_CMD_WITHDRAW : RField := ⟨1, 1, .w1s⟩
def TSV_CMD_NUM : RField := ⟨8, 6, .rw⟩
def TSV_STATUS_BUSY : RField := ⟨0, 1, .ro⟩
def TSV_STATUS_DONE : RField := ⟨1, 1, .w1c⟩
def TSV_STATUS_REASON : RField := ⟨4, 4, .ro⟩
def TSV_STATUS_NUM : RField := ⟨8, 6, .ro⟩
def TSV_STATUS_M : RField := ⟨16, 7, .ro⟩
def TSV_STATUS_WC : RField := ⟨32, 16, .ro⟩
def TSV_STATUS_COUNT : RField := ⟨48, 7, .ro⟩
def TSV_CCFG_VALID : RField := ⟨0, 1, .ro⟩
def TSV_CCFG_SKIND : RField := ⟨1, 3, .ro⟩
def TSV_CCFG_SID : RField := ⟨4, 10, .ro⟩
def TSV_CCFG_QUEUE : RField := ⟨14, 16, .ro⟩
def TSV_CCFG_SIZE : RField := ⟨30, 3, .ro⟩
def TSV_CCFG_M : RField := ⟨33, 7, .ro⟩
def TSV_CCFG_BOUND : RField := ⟨40, 16, .ro⟩
def TSV_CCFG_WREASON : RField := ⟨56, 3, .ro⟩
def TSV_CLIM_RATE : RField := ⟨0, 16, .ro⟩
def TSV_CLIM_WC : RField := ⟨16, 16, .ro⟩
def TSV_CLIM_RID : RField := ⟨32, 16, .ro⟩
def TSV_CCNT_DEMOTED : RField := ⟨0, 32, .rc⟩
def TSV_CCNT_LATE : RField := ⟨32, 16, .rc⟩
def TSV_CCNT_QFULL : RField := ⟨48, 8, .rc⟩
def TSV_CCNT_PLATE : RField := ⟨56, 8, .rc⟩
def KSK_CTL_EN : RField := ⟨0, 1, .rw⟩
def KSK_CTL_RESET : RField := ⟨1, 1, .w1s⟩
def KSK_CTL_WORLD : RField := ⟨2, 1, .rw⟩
def KSK_CTL_SLICE : RField := ⟨4, 12, .rw⟩
def KSK_STATUS_REFUSED : RField := ⟨0, 1, .w1c⟩
def KSK_STATUS_DFAULT : RField := ⟨1, 1, .ro⟩
def KSK_STATUS_INTERR : RField := ⟨2, 1, .ro⟩
def KSK_STATUS_MSG_OVR : RField := ⟨3, 1, .w1c⟩
def KSK_STATUS_SRAM_CLR : RField := ⟨4, 1, .ro⟩
def KSK_STATUS_RUNNING : RField := ⟨5, 1, .ro⟩
def KSK_STATUS_HANDLER : RField := ⟨6, 1, .ro⟩
def KSK_DOORBELL_MSG : RField := ⟨0, 64, .wo⟩
def KSK_CTX_STATE : RField := ⟨0, 2, .ro⟩
def KSK_CTX_GO : RField := ⟨2, 1, .w1s⟩
def KSK_CTX_STOP : RField := ⟨3, 1, .w1s⟩
def KSK_CTX_PRIV : RField := ⟨4, 1, .rw⟩
def KSK_CTX_PC : RField := ⟨18, 14, .rw⟩
def KSK_CTX_PASID : RField := ⟨32, 20, .rw⟩
def KSK_CTX_FAULT_CODE : RField := ⟨0, 4, .ro⟩
def KSK_CTX_FAULT_INFO : RField := ⟨4, 4, .ro⟩
def KSK_CTX_FAULT_PC : RField := ⟨16, 14, .ro⟩
def KSK_CTX_FAULT_VALID : RField := ⟨63, 1, .w1c⟩
def KSK_TWIN_LOG2SZ : RField := ⟨0, 6, .rw⟩
def KSK_TWIN_R : RField := ⟨6, 1, .rw⟩
def KSK_TWIN_W : RField := ⟨7, 1, .rw⟩
def KSK_TWIN_CTX : RField := ⟨8, 4, .rw⟩
def KSK_TWIN_BASE : RField := ⟨12, 40, .rw⟩
def KSK_CL_CTL_SLICE : RField := ⟨0, 12, .rw⟩
def KSK_CL_STATUS_RUNNING : RField := ⟨0, 16, .ro⟩
def KSK_CL_STATUS_FAULTED : RField := ⟨16, 16, .ro⟩
def KSK_CL_STATUS_WALLED : RField := ⟨32, 16, .ro⟩
def IOM_CTL_ATS_TO_MS : RField := ⟨0, 16, .rw⟩
def IOM_CTL_EN : RField := ⟨16, 1, .rw⟩
def IOM_STATUS_FAULT : RField := ⟨0, 1, .w1c⟩
def IOM_STATUS_INTEGRITY : RField := ⟨1, 1, .w1c⟩
def IOM_STATUS_ATS_TIMEOUT : RField := ⟨2, 1, .w1c⟩
def IOM_STATUS_MSI_BAD : RField := ⟨3, 1, .w1c⟩
def IOM_STATUS_UNCLAIMED : RField := ⟨4, 1, .w1c⟩
def IOM_STATUS_REFUSED : RField := ⟨5, 1, .w1c⟩
def IOM_STATUS_FAULT_RID : RField := ⟨16, 16, .ro⟩
def IOM_STATUS_FAULTS : RField := ⟨32, 16, .rc⟩
def IOM_DTBASE_BASE : RField := ⟨14, 38, .wl⟩
def IOM_APERTURE_BASE : RField := ⟨0, 22, .wl⟩
def IOM_APERTURE_LIMIT : RField := ⟨22, 22, .wl⟩
def IOM_APERTURE_EN : RField := ⟨44, 1, .wl⟩
def IOM_CXLWIN_BASE : RField := ⟨0, 22, .wl⟩
def IOM_CXLWIN_LIMIT : RField := ⟨22, 22, .wl⟩
def IOM_CXLWIN_EN : RField := ⟨44, 1, .wl⟩
def IOM_CXLWIN_PORT : RField := ⟨45, 3, .wl⟩
def IOM_CXLWIN_RP : RField := ⟨48, 2, .wl⟩
def IOM_INV_KIND : RField := ⟨0, 3, .rw⟩
def IOM_INV_GO : RField := ⟨3, 1, .w1s⟩
def IOM_INV_TIMEOUT : RField := ⟨4, 1, .ro⟩
def IOM_INV_RID : RField := ⟨16, 16, .rw⟩
def IOM_INV_PASID : RField := ⟨32, 20, .rw⟩
def IOM_INV_PV : RField := ⟨52, 1, .rw⟩
def IOM_INV_ADDR_LOG2SZ : RField := ⟨0, 6, .rw⟩
def IOM_INV_ADDR_ADDR : RField := ⟨12, 52, .rw⟩
def IOM_PWIN_CTL_COMMIT : RField := ⟨0, 1, .w1s⟩
def IOM_PWIN_CTL_ACTIVE : RField := ⟨1, 1, .ro⟩
def IOM_PWIN_CTL_REFUSED : RField := ⟨2, 1, .w1c⟩
def IOM_PWIN_BASE_EN : RField := ⟨0, 1, .rw⟩
def IOM_PWIN_BASE_TARGET : RField := ⟨1, 6, .rw⟩
def IOM_PWIN_BASE_BASE : RField := ⟨12, 40, .rw⟩
def IOM_PWIN_LIM_LIMIT : RField := ⟨12, 40, .rw⟩
def IOM_PWIN_SRC_SRC : RField := ⟨0, 28, .rw⟩
def FB_STATUS_STATE : RField := ⟨0, 2, .ro⟩
def FB_STATUS_PEER_SOCKET : RField := ⟨2, 3, .ro⟩
def FB_STATUS_PEER_LINK : RField := ⟨5, 3, .ro⟩
def FB_STATUS_MAPDIFF : RField := ⟨8, 1, .ro⟩
def FB_STATUS_REFUSED : RField := ⟨9, 1, .w1c⟩
def FB_STATUS_OWN_SOCKET : RField := ⟨10, 3, .ro⟩
def FB_STATUS_RETRAINS : RField := ⟨16, 16, .rc⟩
def FB_STATUS_REPLAYS : RField := ⟨32, 32, .rc⟩
def FB_ROUTE_LINK (k : Nat) : RField := ⟨4 * k + 0, 3, .wl⟩
def FB_ROUTE_VALID (k : Nat) : RField := ⟨4 * k + 3, 1, .wl⟩
def FB_SRANGE_BASE : RField := ⟨0, 22, .wl⟩
def FB_SRANGE_LIMIT : RField := ⟨22, 22, .wl⟩
def FB_SRANGE_SOCKET : RField := ⟨44, 3, .wl⟩
def FB_SRANGE_EN : RField := ⟨47, 1, .wl⟩
def WW_CTL_MONCORE : RField := ⟨0, 10, .rw⟩
def WW_STATUS_REFUSED : RField := ⟨0, 1, .w1c⟩
def WW_STATUS_POWER_VETO : RField := ⟨1, 1, .w1c⟩
def WW_STATUS_RANGE_VIOL : RField := ⟨2, 1, .w1c⟩
def WW_STATUS_REG_VIOL : RField := ⟨3, 1, .w1c⟩
def WW_STATUS_MONQ_DROP : RField := ⟨4, 1, .w1c⟩
def WW_STATUS_WARNED : RField := ⟨5, 1, .w1c⟩
def WW_VIOL_RANGE : RField := ⟨0, 24, .rc⟩
def WW_VIOL_POWER : RField := ⟨24, 16, .rc⟩
def WW_VIOL_REG : RField := ⟨40, 16, .rc⟩
def WW_VIOL_MONQ : RField := ⟨56, 8, .rc⟩
def WW_WDOG_CTL_EN : RField := ⟨0, 1, .w1s⟩
def WW_WDOG_CTL_PERIOD_MS : RField := ⟨8, 16, .rw⟩
def WW_WDOG_CTL_WARN_MS : RField := ⟨32, 16, .rw⟩
def WW_WDOG_KICK_VALUE : RField := ⟨0, 64, .gp⟩
def WW_WDOG_STATUS_REMAIN_MS : RField := ⟨0, 24, .ro⟩
def WW_WDOG_STATUS_RUNNING : RField := ⟨24, 1, .ro⟩
def WW_WDOG_STATUS_EXPIRED : RField := ⟨25, 1, .ro⟩
def WW_WDOG_STATUS_KICKS : RField := ⟨32, 32, .ro⟩
def WW_GPIO_WORLD_PINS : RField := ⟨0, 32, .rw⟩
def WW_RANGE_BASE : RField := ⟨0, 27, .rw⟩
def WW_RANGE_LIMIT : RField := ⟨27, 27, .rw⟩
def WW_RANGE_EN : RField := ⟨54, 1, .rw⟩
def PWR_VIN_CTL_SLEW : RField := ⟨0, 8, .rws⟩
def PWR_VIN_CTL_FALL : RField := ⟨8, 8, .rws⟩
def PWR_VIN_CTL_IMAX : RField := ⟨16, 8, .rws⟩
def PWR_PKG_CTL_TDP_W : RField := ⟨0, 11, .rw⟩
def PWR_PKG_CTL_M6_EN : RField := ⟨16, 1, .rw⟩
def PWR_PKG_CTL_M7_REQ : RField := ⟨17, 1, .w1s⟩
def PWR_PKG_STATUS_CAP : RField := ⟨0, 4, .ro⟩
def PWR_PKG_STATUS_P0_TILES : RField := ⟨4, 7, .ro⟩
def PWR_PKG_STATUS_AVG_W : RField := ⟨16, 11, .ro⟩
def PWR_PKG_STATUS_REFUSED : RField := ⟨32, 1, .w1c⟩
def PWR_PKG_STATUS_M7_REFUSED : RField := ⟨33, 1, .w1c⟩
def PWR_PKG_STATUS_M7_REASON : RField := ⟨34, 4, .ro⟩
def PWR_GOV_STATUS_LEVEL : RField := ⟨0, 2, .ro⟩
def PWR_GOV_STATUS_HARD : RField := ⟨2, 1, .w1c⟩
def PWR_GOV_STATUS_VSTOP : RField := ⟨3, 1, .w1c⟩
def PWR_GOV_STATUS_FALL_OVR : RField := ⟨4, 1, .w1c⟩
def PWR_GOV_STATUS_EPISODES : RField := ⟨16, 16, .rc⟩
def PWR_GOV_STATUS_VSTOP_CNT : RField := ⟨32, 16, .rc⟩
def PWR_RAIL_STATUS_VIN_MV : RField := ⟨0, 16, .ro⟩
def PWR_RAIL_STATUS_V5_MV : RField := ⟨16, 16, .ro⟩
def PWR_RAIL_STATUS_IIN : RField := ⟨32, 15, .ro⟩
def PWR_RAIL_STATUS_VIN_MARGIN : RField := ⟨47, 1, .ro⟩
def PWR_GOV_EXEMPT_TILES : RField := ⟨0, 64, .rw⟩
def PWR_DOM_CTL_TARGET : RField := ⟨0, 3, .rw⟩
def PWR_DOM_CTL_POLICY : RField := ⟨4, 2, .rw⟩
def PWR_DOM_CTL_LOWSTATE : RField := ⟨8, 3, .rw⟩
def PWR_DOM_CTL_WAKE : RField := ⟨11, 1, .rw⟩
def PWR_DOM_CTL_TIMER_US : RField := ⟨12, 17, .rw⟩
def PWR_DOM_VOTE_OPEN : RField := ⟨0, 24, .rw⟩
def PWR_DOM_VOTE_WALLED : RField := ⟨24, 8, .rw⟩
def PWR_DOM_STATUS_STATE : RField := ⟨0, 3, .ro⟩
def PWR_DOM_STATUS_BUSY : RField := ⟨3, 1, .ro⟩
def PWR_DOM_STATUS_PROG : RField := ⟨4, 3, .ro⟩
def PWR_DOM_STATUS_PEND : RField := ⟨7, 1, .ro⟩
def PWR_DOM_STATUS_PTGT : RField := ⟨8, 3, .ro⟩
def PWR_DOM_STATUS_REFUSED : RField := ⟨11, 1, .w1c⟩
def PWR_DOM_STATUS_REASON : RField := ⟨12, 4, .ro⟩
def PWR_DOM_STATUS_EPOCH : RField := ⟨16, 16, .ro⟩
def PWR_DOM_STATUS_HELD : RField := ⟨32, 5, .ro⟩
def PWR_DOM_STATUS_WHELD : RField := ⟨37, 1, .ro⟩
def PWR_TILE_PERF_REQ : RField := ⟨0, 4, .rw⟩
def PWR_TILE_PERF_GRANT : RField := ⟨4, 4, .ro⟩
def PWR_TILE_PERF_LIMIT : RField := ⟨8, 3, .ro⟩
def CLK_CD_FAB : RField := ⟨0, 3, .rw⟩
def CLK_CD_TKSK : RField := ⟨4, 3, .rw⟩
def CLK_CD_BUSY : RField := ⟨8, 1, .ro⟩
def CLK_CD_REFUSED : RField := ⟨9, 1, .w1c⟩
def CLK_IOD_FAB : RField := ⟨0, 3, .rw⟩
def CLK_IOD_HKSK (k : Nat) : RField := ⟨4 * k + 4, 3, .rw⟩
def CLK_IOD_BUSY : RField := ⟨36, 1, .ro⟩
def CLK_IOD_REFUSED : RField := ⟨37, 1, .w1c⟩
def CLK_REFOUT_EN : RField := ⟨0, 20, .rw⟩
def CLK_REFOUT_SSC : RField := ⟨20, 20, .rw⟩
def CLK_TIMEBASE_TIME : RField := ⟨0, 64, .ro⟩
def CLK_TS_CTL_DELAY_NS : RField := ⟨0, 16, .wl⟩
def CLK_TS_STATUS_ERR_NS : RField := ⟨0, 16, .ro⟩
def CLK_TS_STATUS_LOCKED : RField := ⟨16, 1, .ro⟩
def CLK_TS_STATUS_MASTER : RField := ⟨17, 1, .ro⟩
def CLK_TS_STATUS_RESTART : RField := ⟨18, 1, .ro⟩
def CLK_TS_STATUS_PULSES : RField := ⟨32, 32, .ro⟩
def CLK_TS_OFFSET_OFFSET : RField := ⟨0, 64, .ro⟩
def CNT_UCTL_FREEZE : RField := ⟨0, 1, .rw⟩
def CNT_USTATUS_OVF : RField := ⟨0, 16, .w1c⟩
def CNT_USEL_EVENT : RField := ⟨0, 8, .rw⟩
def CNT_USEL_WALLED : RField := ⟨8, 1, .rw⟩
def CNT_UPAIR_EVEN : RField := ⟨0, 32, .rw⟩
def CNT_UPAIR_ODD : RField := ⟨32, 32, .rw⟩
def CNT_PRB_CTL_EN : RField := ⟨0, 1, .rw⟩
def CNT_PRB_CTL_TRACE : RField := ⟨1, 1, .rw⟩
def CNT_PRB_CTL_HEADS : RField := ⟨2, 1, .rw⟩
def CNT_PRB_CTL_PORTS : RField := ⟨3, 7, .rw⟩
def CNT_PRB_CTL_VCMASK : RField := ⟨10, 6, .rw⟩
def CNT_PRB_CTL_WALLED : RField := ⟨16, 1, .rw⟩
def CNT_PRB_MATCH_VALUE : RField := ⟨0, 32, .rw⟩
def CNT_PRB_MATCH_MASK : RField := ⟨32, 32, .rw⟩
def CNT_PRB_CNT_COUNT : RField := ⟨0, 48, .rw⟩
def CNT_TRC_CTL_WRAP : RField := ⟨0, 1, .rw⟩
def CNT_TRC_CTL_CLEAR : RField := ⟨1, 1, .w1s⟩
def CNT_TRC_CTL_FULL : RField := ⟨2, 1, .ro⟩
def CNT_TRC_CTL_PTR : RField := ⟨4, 9, .ro⟩
def CNT_TRC_CTL_DROPS : RField := ⟨16, 16, .rc⟩
def CNT_TRC_ENTRY : RField := ⟨0, 64, .ro⟩
def CNT_RND_CTL_EN : RField := ⟨0, 1, .rw⟩
def CNT_RND_CTL_SYNC : RField := ⟨1, 1, .rw⟩
def CNT_RND_CTL_LOG2B : RField := ⟨2, 3, .rw⟩
def CNT_RND_CTL_PERIOD_US : RField := ⟨8, 24, .rw⟩
def CNT_RND_START_START : RField := ⟨0, 64, .rw⟩
def CNT_RND_BASE_BASE : RField := ⟨17, 35, .rw⟩
def CNT_RND_STATUS_LAST_SEQ : RField := ⟨0, 32, .ro⟩
def CNT_RND_STATUS_MISSED : RField := ⟨32, 16, .rc⟩
def CNT_RND_STATUS_VALID : RField := ⟨48, 1, .ro⟩
def CNT_RND_STATUS_REFUSED : RField := ⟨49, 1, .w1c⟩
def CNT_ISEL_EN : RField := ⟨0, 1, .rw⟩
def CNT_ISEL_KIND : RField := ⟨1, 2, .rw⟩
def CNT_ISEL_IOD : RField := ⟨3, 1, .rw⟩
def CNT_ISEL_NUM : RField := ⟨4, 3, .rw⟩
def CNT_ISEL_WALLED : RField := ⟨7, 1, .rw⟩
def CNT_IREQ_READS : RField := ⟨0, 32, .ro⟩
def CNT_IREQ_WRITES : RField := ⟨32, 32, .ro⟩
def CNT_IBYTES_RBYTES : RField := ⟨0, 32, .ro⟩
def CNT_IBYTES_WBYTES : RField := ⟨32, 32, .ro⟩
def CNT_ILATSUM_LATSUM : RField := ⟨0, 48, .ro⟩
def CNT_ILATMAX_LATMAX : RField := ⟨0, 24, .ro⟩
def GH_STATUS_MODE : RField := ⟨0, 4, .ros⟩
def GH_STATUS_FAULT : RField := ⟨4, 1, .ros⟩
def GH_STATUS_REFUSED : RField := ⟨5, 1, .w1c⟩
def GH_STATUS_RREASON : RField := ⟨6, 4, .ros⟩
def GH_STATUS_AUTH_OK : RField := ⟨10, 1, .ros⟩
def GH_STATUS_PART : RField := ⟨11, 1, .ros⟩
def GH_STATUS_DEBUG : RField := ⟨12, 1, .ros⟩
def GH_STATUS_AUTO_ON : RField := ⟨13, 1, .ros⟩
def GH_STATUS_COPY : RField := ⟨14, 1, .ros⟩
def GH_STATUS_BUSY : RField := ⟨15, 1, .ros⟩
def GH_STATUS_SVN : RField := ⟨16, 7, .ros⟩
def GH_STATUS_SOCKET : RField := ⟨24, 3, .ros⟩
def GH_CMD_CODE : RField := ⟨0, 8, .wo⟩
def GH_FAULT_REASON : RField := ⟨0, 4, .ros⟩
def GH_FAULT_AUTH_A : RField := ⟨4, 4, .ros⟩
def GH_FAULT_AUTH_B : RField := ⟨8, 4, .ros⟩
def GH_FAULT_NODE : RField := ⟨12, 14, .ros⟩
def GH_FAULT_DIE : RField := ⟨26, 3, .ros⟩
def GH_FAULT_VALID : RField := ⟨63, 1, .w1c⟩
def GH_BIST_RUN : RField := ⟨0, 16, .ro⟩
def GH_BIST_REJECTED : RField := ⟨16, 16, .ro⟩
def GH_BIST_QUARANTINED : RField := ⟨32, 8, .ro⟩
def GH_BIST_DONE : RField := ⟨40, 1, .ro⟩
def GH_BIST_PASS : RField := ⟨41, 1, .ro⟩
def GH_TILE_LSB_LSB : RField := ⟨0, 64, .ro⟩
def GH_TILE_FATAL_FATAL : RField := ⟨0, 64, .ro⟩
def GH_MEAS_VALUE : RField := ⟨0, 64, .ro⟩
def GH_MEXT_D_DIGEST : RField := ⟨0, 64, .rw⟩
def GH_MEXT_CTL_SLOT : RField := ⟨0, 4, .rw⟩
def GH_MEXT_CTL_GO : RField := ⟨4, 1, .w1s⟩
def GH_GPIO_DIR_OUT_EN : RField := ⟨0, 32, .rw⟩
def GH_GPIO_OUT_LEVEL : RField := ⟨0, 32, .rw⟩
def GH_GPIO_IN_LEVEL : RField := ⟨0, 32, .ro⟩
def GH_GPIO_EDGE_RISE : RField := ⟨0, 32, .rw⟩
def GH_GPIO_EDGE_FALL : RField := ⟨32, 32, .rw⟩
def GH_GPIO_Q_QUEUE : RField := ⟨0, 16, .rw⟩
def GH_GPIO_Q_EN : RField := ⟨16, 1, .rw⟩
def GH_GPIO_Q_DROPS : RField := ⟨32, 16, .rc⟩
def GH_FLASH_STATUS_A_VALID : RField := ⟨0, 1, .ro⟩
def GH_FLASH_STATUS_B_VALID : RField := ⟨1, 1, .ro⟩
def GH_FLASH_STATUS_A_SVN : RField := ⟨16, 16, .ro⟩
def GH_FLASH_STATUS_B_SVN : RField := ⟨32, 16, .ro⟩
def GH_FLASH_STATUS_CE : RField := ⟨48, 16, .ro⟩
def ERB_STATUS_VALID : RField := ⟨0, 8, .ro⟩
def ERB_STATUS_LOST : RField := ⟨8, 16, .rc⟩
def ERB_THRESH_CE : RField := ⟨0, 8, .rw⟩
def ERB_CE_CE : RField := ⟨0, 8, .ro⟩
def ERB_CE_WSTART : RField := ⟨16, 48, .ro⟩
def ERB_REC0_CLASS : RField := ⟨0, 3, .ro⟩
def ERB_REC0_INJ : RField := ⟨3, 1, .ro⟩
def ERB_REC0_WORLD : RField := ⟨4, 1, .ro⟩
def ERB_REC0_POISON : RField := ⟨5, 3, .ro⟩
def ERB_REC0_KIND : RField := ⟨8, 8, .ro⟩
def ERB_REC0_COUNT : RField := ⟨16, 16, .ro⟩
def ERB_REC0_UNIT : RField := ⟨32, 16, .ro⟩
def ERB_REC0_NODE : RField := ⟨48, 14, .ro⟩
def ERB_REC0_VALID : RField := ⟨63, 1, .w1c⟩
def ERB_REC1_ADDR : RField := ⟨0, 64, .ro⟩
def ERB_REC2_MISC : RField := ⟨0, 64, .ro⟩
def ERB_REC3_TIME : RField := ⟨0, 64, .ro⟩
def ERB_INJ_CTL_TARGET : RField := ⟨0, 4, .gp⟩
def ERB_INJ_CTL_ACTION : RField := ⟨4, 4, .gp⟩
def ERB_INJ_CTL_COUNT : RField := ⟨8, 8, .gp⟩
def ERB_INJ_PARAM_BIT : RField := ⟨0, 7, .rw⟩
def ERB_INJ_PARAM_PORT : RField := ⟨8, 3, .rw⟩
def ERB_INJ_PARAM_VC : RField := ⟨12, 3, .rw⟩
def ERB_INJ_PARAM_DEV : RField := ⟨16, 5, .rw⟩
def ERB_INJ_PARAM_SYMBOLS : RField := ⟨24, 5, .rw⟩
def ERB_INJ_PARAM_CYCLES : RField := ⟨32, 12, .rw⟩
def ERB_INJ_PARAM_AGENT : RField := ⟨48, 5, .rw⟩
def ERB_INJ_STATUS_REMAIN : RField := ⟨0, 8, .ro⟩
def ERB_INJ_STATUS_ARMED : RField := ⟨8, 1, .ro⟩
def ERB_INJ_STATUS_REFUSED : RField := ⟨9, 1, .w1c⟩
def ERB_INJ_STATUS_SKIPPED : RField := ⟨16, 16, .rc⟩
def ERB_INJ_STATUS_DONE : RField := ⟨32, 16, .rc⟩
def ERB_ROUTE_PRIMARY : RField := ⟨0, 10, .rw⟩
def ERB_ROUTE_ALT : RField := ⟨16, 10, .rw⟩
def ERB_ROUTE_MASK : RField := ⟨32, 5, .rw⟩
def ERB_INJ_GLOBAL_EN : RField := ⟨0, 1, .wl⟩
def GK_AGE_CTL_EN : RField := ⟨8, 1, .rw⟩
def GK_AGE_CTL_PERIOD_MIN : RField := ⟨16, 11, .rw⟩
def GK_WEAR_CTL_RATE : RField := ⟨0, 16, .wl⟩
def GK_WEAR_CTL_EN : RField := ⟨16, 1, .wl⟩
def GK_LIFE_STATUS_SEQ : RField := ⟨0, 32, .ro⟩
def GK_LIFE_STATUS_COPY : RField := ⟨32, 1, .ro⟩
def GK_LIFE_STATUS_FAIL : RField := ⟨33, 1, .w1c⟩
def GK_LIFE_STATUS_LOST : RField := ⟨34, 1, .ro⟩
def GK_LIFE_STATUS_POH : RField := ⟨40, 24, .ro⟩
def GK_RETIRE_CMD_TILE : RField := ⟨0, 8, .rw⟩
def GK_RETIRE_CMD_GO : RField := ⟨8, 1, .w1s⟩
def GK_RETIRE_CMD_EXTEST : RField := ⟨9, 1, .rw⟩
def GK_RETIRE_STATUS_DONE : RField := ⟨0, 1, .w1c⟩
def GK_RETIRE_STATUS_RESULT : RField := ⟨1, 3, .ro⟩
def GK_RETIRE_STATUS_TRIED : RField := ⟨4, 4, .ro⟩
def GK_RETIRE_STATUS_CD : RField := ⟨16, 3, .ro⟩
def GK_RETIRE_STATUS_X : RField := ⟨19, 3, .ro⟩
def GK_RETIRE_STATUS_Y : RField := ⟨22, 3, .ro⟩
def GK_TILE_SLOW : RField := ⟨0, 8, .ro⟩
def GK_TILE_GB0 : RField := ⟨8, 4, .ro⟩
def GK_TILE_GB1 : RField := ⟨12, 4, .ro⟩
def GK_TILE_GB2 : RField := ⟨16, 4, .ro⟩
def GK_TILE_AGE_LIMIT : RField := ⟨20, 1, .ro⟩
def GK_TILE_PROPOSE : RField := ⟨21, 3, .ro⟩
def GK_TILE_QUIET : RField := ⟨24, 1, .ro⟩
def GK_TILE_RECOV : RField := ⟨32, 32, .ro⟩
def GK_WEAR_BALANCE : RField := ⟨0, 24, .ro⟩
def GK_WEAR_CAPPED : RField := ⟨24, 1, .ro⟩
def GK_WEAR_HOT_HOURS : RField := ⟨32, 32, .ro⟩

/-- TRL_NODE_ID: spec 02_control_space.md, section 'TRL_NODE_ID', reset Node's own. -/
def TRL_NODE_ID : RegDef := ⟨0, 0x0, [], 0x0, false, [TRL_NODE_ID_NODE, TRL_NODE_ID_SLOW]⟩
/-- TRL_NODE_CTL: spec 02_control_space.md, section 'TRL_NODE_CTL', reset 0x0000_0000_0000_0000. -/
def TRL_NODE_CTL : RegDef := ⟨1, 0x8, [], 0x0, false, [TRL_NODE_CTL_SNAP, TRL_NODE_CTL_LOCK]⟩
/-- TRL_NODE_STATUS: spec 02_control_space.md, section 'TRL_NODE_STATUS', reset 0x0000_0000_0000_0000. -/
def TRL_NODE_STATUS : RegDef := ⟨2, 0x10, [], 0x0, false, [TRL_NODE_STATUS_GUARD_VIOL, TRL_NODE_STATUS_LOCK_VIOL,
    TRL_NODE_STATUS_GUARD_ARMED, TRL_NODE_STATUS_SNAP_FAIL]⟩
/-- TRL_BUSERR_INFO: spec 02_control_space.md, section 'TRL_BUSERR_INFO', reset 0x0000_0000_0000_0000. -/
def TRL_BUSERR_INFO : RegDef := ⟨3, 0x1000, [], 0x0, false, [TRL_BUSERR_INFO_REASON, TRL_BUSERR_INFO_KIND,
    TRL_BUSERR_INFO_INITIATOR, TRL_BUSERR_INFO_WRITE, TRL_BUSERR_INFO_WORLD, TRL_BUSERR_INFO_MORE,
    TRL_BUSERR_INFO_VALID]⟩
/-- TRL_BUSERR_ADDR: spec 02_control_space.md, section 'TRL_BUSERR_ADDR', reset 0x0000_0000_0000_0000. -/
def TRL_BUSERR_ADDR : RegDef := ⟨4, 0x1008, [], 0x0, false, [TRL_BUSERR_ADDR_OFFSET]⟩
/-- ARB_STATUS: spec 08_arbour_lockstep.md, section 'ARB_STATUS', reset MODE from the boot configuration;
LOCKSTEP_BROKEN from the Gatehouse copy; others 0. -/
def ARB_STATUS : RegDef := ⟨5, 0x10000, [], 0x0, false, [ARB_STATUS_MODE, ARB_STATUS_HELD,
    ARB_STATUS_LOCKSTEP_BROKEN, ARB_STATUS_RECOVERING]⟩
/-- ARB_MISMATCH: spec 08_arbour_lockstep.md, section 'ARB_MISMATCH', reset 0x0000_0000_0000_0000. -/
def ARB_MISMATCH : RegDef := ⟨6, 0x10008, [], 0x0, false, [ARB_MISMATCH_RECOVERED, ARB_MISMATCH_REG_RESYNC,
    ARB_MISMATCH_PAIR]⟩
/-- ARB_LAST_PC: spec 08_arbour_lockstep.md, section 'ARB_LAST_PC', reset 0x0000_0000_0000_0000. -/
def ARB_LAST_PC : RegDef := ⟨7, 0x10010, [], 0x0, false, [ARB_LAST_PC_VALID, ARB_LAST_PC_PC]⟩
/-- ARB_LAST_TIME: spec 08_arbour_lockstep.md, section 'ARB_LAST_TIME', reset 0x0000_0000_0000_0000. -/
def ARB_LAST_TIME : RegDef := ⟨8, 0x10018, [], 0x0, false, [ARB_LAST_TIME_TIME]⟩
/-- ARB_RB_STATUS: spec 08_arbour_lockstep.md, section 'ARB_RB_STATUS', reset 0x0000_0000_0000_0000. -/
def ARB_RB_STATUS : RegDef := ⟨9, 0x10020, [], 0x0, false, [ARB_RB_STATUS_OCC, ARB_RB_STATUS_HWM,
    ARB_RB_STATUS_FULL_CYCLES, ARB_RB_STATUS_LOG_OCC]⟩
/-- L2_CTL: spec 09_cache_hierarchy.md, section 'L2_CTL', reset 0x0000_0000_0000_0002. -/
def L2_CTL : RegDef := ⟨10, 0x20000, [], 0x2, false, [L2_CTL_FLUSH, L2_CTL_PREF_EN]⟩
/-- L2_STATUS: spec 09_cache_hierarchy.md, section 'L2_STATUS', reset 0x0000_0000_0000_0000. -/
def L2_STATUS : RegDef := ⟨11, 0x20008, [], 0x0, false, [L2_STATUS_FLUSH_DONE, L2_STATUS_WAY_DONE,
    L2_STATUS_REFUSED, L2_STATUS_WAY_LIMIT]⟩
/-- L2_WAY_DIS: spec 09_cache_hierarchy.md, section 'L2_WAY_DIS', reset 0x0000_0000_0000_0000; HWDIS from the
Gatehouse. -/
def L2_WAY_DIS : RegDef := ⟨12, 0x20010, [], 0x0, false, [L2_WAY_DIS_DIS, L2_WAY_DIS_HWDIS, L2_WAY_DIS_PENDING]⟩
/-- L2_LFSR: spec 09_cache_hierarchy.md, section 'L2_LFSR', reset 0x0000_0000_4D2A_6B19. -/
def L2_LFSR : RegDef := ⟨13, 0x20018, [], 0x4d2a6b19, false, [L2_LFSR_STATE]⟩
/-- L2_WAYERR: spec 09_cache_hierarchy.md, section 'L2_WAYERR0 to L2_WAYERR15', reset 0x0000_0000_0000_0000. -/
def L2_WAYERR : RegDef := ⟨14, 0x20100, [(0x8, 16)], 0x0, false, [L2_WAYERR_CE, L2_WAYERR_UE, L2_WAYERR_WSTART]⟩
/-- LLC_CTL: spec 09_cache_hierarchy.md, section 'LLC_CTL', reset 0x0000_0000_0000_0000. -/
def LLC_CTL : RegDef := ⟨15, 0x1000, [], 0x0, false, [LLC_CTL_FLUSH]⟩
/-- LLC_STATUS: spec 09_cache_hierarchy.md, section 'LLC_STATUS', reset 0x0000_0000_0000_0000. -/
def LLC_STATUS : RegDef := ⟨16, 0x1008, [], 0x0, false, [LLC_STATUS_FLUSH_DONE, LLC_STATUS_WAY_DONE,
    LLC_STATUS_REFUSED, LLC_STATUS_WAY_LIMIT, LLC_STATUS_MASK_DONE]⟩
/-- LLC_WAY_DIS: spec 09_cache_hierarchy.md, section 'LLC_WAY_DIS', reset 0x0000_0000_0000_0000; HWDIS from the
Gatehouse. -/
def LLC_WAY_DIS : RegDef := ⟨17, 0x1010, [], 0x0, false, [LLC_WAY_DIS_DIS, LLC_WAY_DIS_HWDIS, LLC_WAY_DIS_PENDING]⟩
/-- LLC_LFSR: spec 09_cache_hierarchy.md, section 'LLC_LFSR', reset 0x0000_0000_3A91_C5E7. -/
def LLC_LFSR : RegDef := ⟨18, 0x1020, [], 0x3a91c5e7, false, [LLC_LFSR_STATE]⟩
/-- LLC_VB_STATUS: spec 09_cache_hierarchy.md, section 'LLC_VB_STATUS', reset 0x0000_0000_0000_0000. -/
def LLC_VB_STATUS : RegDef := ⟨19, 0x1028, [], 0x0, false, [LLC_VB_STATUS_OCC, LLC_VB_STATUS_RECALLS,
    LLC_VB_STATUS_OVERFLOWS]⟩
/-- LLC_WALLED_WAYS: spec 09_cache_hierarchy.md, section 'LLC_WALLED_WAYS', reset 0x0000_0000_0000_8000
(PM-8512-A1). -/
def LLC_WALLED_WAYS : RegDef := ⟨20, 0x1018, [], 0x8000, true, [LLC_WALLED_WAYS_MASK]⟩
/-- LLC_WAYERR: spec 09_cache_hierarchy.md, section 'LLC_WAYERR0 to LLC_WAYERR15', reset 0x0000_0000_0000_0000. -/
def LLC_WAYERR : RegDef := ⟨21, 0x1100, [(0x8, 16)], 0x0, false, [LLC_WAYERR_CE, LLC_WAYERR_UE, LLC_WAYERR_WSTART]⟩
/-- HOME_TIMEOUT: spec 10_coherence.md, section 'HOME_TIMEOUT', reset 0x0000_0000_0000_2710. -/
def HOME_TIMEOUT : RegDef := ⟨22, 0x1000, [], 0x2710, false, [HOME_TIMEOUT_US]⟩
/-- HOME_STATUS: spec 10_coherence.md, section 'HOME_STATUS', reset 0x0000_0000_0000_0000. -/
def HOME_STATUS : RegDef := ⟨23, 0x1008, [], 0x0, false, [HOME_STATUS_REFUSED, HOME_STATUS_TIMEOUT,
    HOME_STATUS_DEAD_MSG]⟩
/-- HOME_DEAD: spec 10_coherence.md, section 'HOME_DEAD', reset 0x0000_0000_0000_0000. -/
def HOME_DEAD : RegDef := ⟨24, 0x1010, [], 0x0, false, [HOME_DEAD_DIES, HOME_DEAD_SOCKETS, HOME_DEAD_IOMMU]⟩
/-- HOME_TO_LOG: spec 10_coherence.md, section 'HOME_TO_LOG', reset 0x0000_0000_0000_0000. -/
def HOME_TO_LOG : RegDef := ⟨25, 0x1018, [], 0x0, false, [HOME_TO_LOG_LINE, HOME_TO_LOG_AGENT, HOME_TO_LOG_CMP,
    HOME_TO_LOG_VALID]⟩
/-- HOME_SF_STATUS: spec 10_coherence.md, section 'HOME_SF_STATUS', reset 0x0000_0000_0000_0000. -/
def HOME_SF_STATUS : RegDef := ⟨26, 0x1020, [], 0x0, false, [HOME_SF_STATUS_OCC, HOME_SF_STATUS_EVICT]⟩
/-- HOME_CQ_STATUS: spec 10_coherence.md, section 'HOME_CQ_STATUS', reset 0x0000_0000_0000_0000. -/
def HOME_CQ_STATUS : RegDef := ⟨27, 0x1028, [], 0x0, false, [HOME_CQ_STATUS_OCC, HOME_CQ_STATUS_NACKS,
    HOME_CQ_STATUS_HELD_WB]⟩
/-- HOME_LFSR: spec 10_coherence.md, section 'HOME_LFSR', reset 0x0000_0000_5C3B_1E2D. -/
def HOME_LFSR : RegDef := ⟨28, 0x1030, [], 0x5c3b1e2d, false, [HOME_LFSR_STATE]⟩
/-- MEM_CTL: spec 11_memory_ecc.md, section 'MEM_CTL', reset 0x0000_0000_0000_0005. -/
def MEM_CTL : RegDef := ⟨29, 0x1000, [], 0x5, false, [MEM_CTL_CWB, MEM_CTL_POSTMARK, MEM_CTL_PROBE]⟩
/-- MEM_CFG: spec 11_memory_ecc.md, section 'MEM_CFG', reset Set by training in M4. -/
def MEM_CFG : RegDef := ⟨30, 0x1008, [], 0x0, false, [MEM_CFG_TYPE, MEM_CFG_WIDTH, MEM_CFG_DPC, MEM_CFG_RANKS,
    MEM_CFG_RATE, MEM_CFG_ROWS, MEM_CFG_CAP, MEM_CFG_TRAINED]⟩
/-- MEM_STATUS: spec 11_memory_ecc.md, section 'MEM_STATUS', reset 0x0000_0000_0000_0000. -/
def MEM_STATUS : RegDef := ⟨31, 0x1010, [], 0x0, false, [MEM_STATUS_TRAIN_FAIL, MEM_STATUS_ECC_PASS,
    MEM_STATUS_MAP_REFUSED, MEM_STATUS_UNMAPPED, MEM_STATUS_VG_STALL, MEM_STATUS_NO_MARGIN,
    MEM_STATUS_MARK_REFUSED]⟩
/-- MEM_MARK: spec 11_memory_ecc.md, section 'MEM_MARK', reset Restored from the lifetime record in M4 (R351). -/
def MEM_MARK : RegDef := ⟨32, 0x1200, [], 0x0, false, [MEM_MARK_DEV 0, MEM_MARK_DEV 1, MEM_MARK_DEV 2, MEM_MARK_DEV
    3, MEM_MARK_DEV 4, MEM_MARK_DEV 5, MEM_MARK_DEV 6, MEM_MARK_DEV 7, MEM_MARK_HW 0, MEM_MARK_HW 1, MEM_MARK_HW 2,
    MEM_MARK_HW 3, MEM_MARK_HW 4, MEM_MARK_HW 5, MEM_MARK_HW 6, MEM_MARK_HW 7, MEM_MARK_VALID 0, MEM_MARK_VALID 1,
    MEM_MARK_VALID 2, MEM_MARK_VALID 3, MEM_MARK_VALID 4, MEM_MARK_VALID 5, MEM_MARK_VALID 6, MEM_MARK_VALID 7]⟩
/-- MEM_THRESH: spec 11_memory_ecc.md, section 'MEM_THRESH', reset 0x0000_0000_0104_0040. -/
def MEM_THRESH : RegDef := ⟨33, 0x1208, [], 0x1040040, false, [MEM_THRESH_DEV_CE, MEM_THRESH_RANK_CE,
    MEM_THRESH_MARK_AUTO]⟩
/-- MEM_ERRCNT: spec 11_memory_ecc.md, section 'MEM_ERRCNT', reset 0x0000_0000_0000_0000. -/
def MEM_ERRCNT : RegDef := ⟨34, 0x1210, [], 0x0, false, [MEM_ERRCNT_CE, MEM_ERRCNT_UE, MEM_ERRCNT_MARKS,
    MEM_ERRCNT_PROBES]⟩
/-- MEM_ERRLOG: spec 11_memory_ecc.md, section 'MEM_ERRLOG', reset 0x0000_0000_0000_0000. -/
def MEM_ERRLOG : RegDef := ⟨35, 0x1218, [], 0x0, false, [MEM_ERRLOG_CHLINE, MEM_ERRLOG_RANK, MEM_ERRLOG_DEV,
    MEM_ERRLOG_KIND, MEM_ERRLOG_PATROL, MEM_ERRLOG_VALID]⟩
/-- MEM_VG_STATUS: spec 11_memory_ecc.md, section 'MEM_VG_STATUS', reset 0x0000_0000_0000_0000. -/
def MEM_VG_STATUS : RegDef := ⟨36, 0x1220, [], 0x0, false, [MEM_VG_STATUS_FILL_OCC, MEM_VG_STATUS_STALLS,
    MEM_VG_STATUS_VALID_CNT]⟩
/-- MEM_RANGE: spec 11_memory_ecc.md, section 'MEM_RANGE0 to MEM_RANGE3', reset 0x0000_0000_0000_0000. -/
def MEM_RANGE : RegDef := ⟨37, 0x1100, [(0x8, 4)], 0x0, false, [MEM_RANGE_BASE, MEM_RANGE_LIMIT, MEM_RANGE_WAYS,
    MEM_RANGE_CHBASE]⟩
/-- GK_SCRUB_CTL: spec 11_memory_ecc.md, section 'GK_SCRUB_CTL', reset 0x0000_0000_0000_1801. -/
def GK_SCRUB_CTL : RegDef := ⟨38, 0x1000, [], 0x1801, false, [GK_SCRUB_CTL_EN, GK_SCRUB_CTL_PERIOD]⟩
/-- GK_SCRUB_STATUS: spec 11_memory_ecc.md, section 'GK_SCRUB_STATUS', reset 0x0000_0000_0000_0000. -/
def GK_SCRUB_STATUS : RegDef := ⟨39, 0x1008, [], 0x0, false, [GK_SCRUB_STATUS_POS, GK_SCRUB_STATUS_PASSES,
    GK_SCRUB_STATUS_BEHIND]⟩
/-- GK_INIT_STATUS: spec 11_memory_ecc.md, section 'GK_INIT_STATUS', reset 0x0000_0000_0000_0000. -/
def GK_INIT_STATUS : RegDef := ⟨40, 0x1010, [], 0x0, false, [GK_INIT_STATUS_DONE, GK_INIT_STATUS_ALL]⟩
/-- GK_CAL_CTL: spec 11_memory_ecc.md, section 'GK_CAL_CTL', reset 0x0000_0000_0004_0080. -/
def GK_CAL_CTL : RegDef := ⟨41, 0x1018, [], 0x40080, false, [GK_CAL_CTL_ZQ_MS, GK_CAL_CTL_OSC_MS]⟩
/-- MESH_STATUS: spec 12_mesh_trellis.md, section 'MESH_STATUS', reset 0x0000_0000_0000_0000. -/
def MESH_STATUS : RegDef := ⟨42, 0x2000, [], 0x0, false, [MESH_STATUS_EPOCH, MESH_STATUS_INJ_EN, MESH_STATUS_HOLD,
    MESH_STATUS_PREV_FLITS]⟩
/-- MESH_STATUS_B: spec 12_mesh_trellis.md, section 'MESH_STATUS', reset 0x0000_0000_0000_0000. -/
def MESH_STATUS_B : RegDef := ⟨43, 0x1000, [], 0x0, false, [MESH_STATUS_EPOCH, MESH_STATUS_INJ_EN, MESH_STATUS_HOLD,
    MESH_STATUS_PREV_FLITS]⟩
/-- MESH_STATUS_I: spec 12_mesh_trellis.md, section 'MESH_STATUS', reset 0x0000_0000_0000_0000. -/
def MESH_STATUS_I : RegDef := ⟨44, 0x1000, [(0x800, 16)], 0x0, false, [MESH_STATUS_EPOCH, MESH_STATUS_INJ_EN,
    MESH_STATUS_HOLD, MESH_STATUS_PREV_FLITS]⟩
/-- MESH_ERRCNT: spec 12_mesh_trellis.md, section 'MESH_ERRCNT', reset 0x0000_0000_0000_0000. -/
def MESH_ERRCNT : RegDef := ⟨45, 0x2008, [], 0x0, false, [MESH_ERRCNT_CORR, MESH_ERRCNT_REPLAY,
    MESH_ERRCNT_POISONED, MESH_ERRCNT_CRC_FAIL, MESH_ERRCNT_STALE]⟩
/-- MESH_ERRCNT_B: spec 12_mesh_trellis.md, section 'MESH_ERRCNT', reset 0x0000_0000_0000_0000. -/
def MESH_ERRCNT_B : RegDef := ⟨46, 0x1008, [], 0x0, false, [MESH_ERRCNT_CORR, MESH_ERRCNT_REPLAY,
    MESH_ERRCNT_POISONED, MESH_ERRCNT_CRC_FAIL, MESH_ERRCNT_STALE]⟩
/-- MESH_ERRCNT_I: spec 12_mesh_trellis.md, section 'MESH_ERRCNT', reset 0x0000_0000_0000_0000. -/
def MESH_ERRCNT_I : RegDef := ⟨47, 0x1008, [(0x800, 16)], 0x0, false, [MESH_ERRCNT_CORR, MESH_ERRCNT_REPLAY,
    MESH_ERRCNT_POISONED, MESH_ERRCNT_CRC_FAIL, MESH_ERRCNT_STALE]⟩
/-- MESH_ERRLOG: spec 12_mesh_trellis.md, section 'MESH_ERRLOG', reset 0x0000_0000_0000_0000. -/
def MESH_ERRLOG : RegDef := ⟨48, 0x2010, [], 0x0, false, [MESH_ERRLOG_HEADER, MESH_ERRLOG_PORT, MESH_ERRLOG_KIND,
    MESH_ERRLOG_VALID]⟩
/-- MESH_ERRLOG_B: spec 12_mesh_trellis.md, section 'MESH_ERRLOG', reset 0x0000_0000_0000_0000. -/
def MESH_ERRLOG_B : RegDef := ⟨49, 0x1010, [], 0x0, false, [MESH_ERRLOG_HEADER, MESH_ERRLOG_PORT, MESH_ERRLOG_KIND,
    MESH_ERRLOG_VALID]⟩
/-- MESH_ERRLOG_I: spec 12_mesh_trellis.md, section 'MESH_ERRLOG', reset 0x0000_0000_0000_0000. -/
def MESH_ERRLOG_I : RegDef := ⟨50, 0x1010, [(0x800, 16)], 0x0, false, [MESH_ERRLOG_HEADER, MESH_ERRLOG_PORT,
    MESH_ERRLOG_KIND, MESH_ERRLOG_VALID]⟩
/-- MESH_TSLOT: spec 12_mesh_trellis.md, section 'MESH_TSLOTp_n', reset 0x0000_0000_0000_0000. -/
def MESH_TSLOT : RegDef := ⟨51, 0x2100, [(0x80, 7), (0x8, 16)], 0x0, false, [MESH_TSLOT_CONTRACT 0,
    MESH_TSLOT_CONTRACT 1, MESH_TSLOT_CONTRACT 2, MESH_TSLOT_CONTRACT 3, MESH_TSLOT_CONTRACT 4, MESH_TSLOT_CONTRACT
    5, MESH_TSLOT_CONTRACT 6, MESH_TSLOT_CONTRACT 7, MESH_TSLOT_VALID 0, MESH_TSLOT_VALID 1, MESH_TSLOT_VALID 2,
    MESH_TSLOT_VALID 3, MESH_TSLOT_VALID 4, MESH_TSLOT_VALID 5, MESH_TSLOT_VALID 6, MESH_TSLOT_VALID 7]⟩
/-- MESH_TSLOT_B: spec 12_mesh_trellis.md, section 'MESH_TSLOTp_n', reset 0x0000_0000_0000_0000. -/
def MESH_TSLOT_B : RegDef := ⟨52, 0x1100, [(0x80, 7), (0x8, 16)], 0x0, false, [MESH_TSLOT_CONTRACT 0,
    MESH_TSLOT_CONTRACT 1, MESH_TSLOT_CONTRACT 2, MESH_TSLOT_CONTRACT 3, MESH_TSLOT_CONTRACT 4, MESH_TSLOT_CONTRACT
    5, MESH_TSLOT_CONTRACT 6, MESH_TSLOT_CONTRACT 7, MESH_TSLOT_VALID 0, MESH_TSLOT_VALID 1, MESH_TSLOT_VALID 2,
    MESH_TSLOT_VALID 3, MESH_TSLOT_VALID 4, MESH_TSLOT_VALID 5, MESH_TSLOT_VALID 6, MESH_TSLOT_VALID 7]⟩
/-- MESH_TSLOT_I: spec 12_mesh_trellis.md, section 'MESH_TSLOTp_n', reset 0x0000_0000_0000_0000. -/
def MESH_TSLOT_I : RegDef := ⟨53, 0x1100, [(0x800, 16), (0x80, 7), (0x8, 16)], 0x0, false, [MESH_TSLOT_CONTRACT 0,
    MESH_TSLOT_CONTRACT 1, MESH_TSLOT_CONTRACT 2, MESH_TSLOT_CONTRACT 3, MESH_TSLOT_CONTRACT 4, MESH_TSLOT_CONTRACT
    5, MESH_TSLOT_CONTRACT 6, MESH_TSLOT_CONTRACT 7, MESH_TSLOT_VALID 0, MESH_TSLOT_VALID 1, MESH_TSLOT_VALID 2,
    MESH_TSLOT_VALID 3, MESH_TSLOT_VALID 4, MESH_TSLOT_VALID 5, MESH_TSLOT_VALID 6, MESH_TSLOT_VALID 7]⟩
/-- MESH_ROUTE: spec 12_mesh_trellis.md, section 'MESH_ROUTE0, MESH_ROUTE1', reset Bank 0: 0xAA on even dies, 0x55
on odd dies; bank 1: 0. -/
def MESH_ROUTE : RegDef := ⟨54, 0x1800, [(0x8, 2)], 0x0, false, [MESH_ROUTE_VIA]⟩
/-- MESH_TILEMAP: spec 12_mesh_trellis.md, section 'MESH_TILEMAP0_n, MESH_TILEMAP1_n', reset 0x0000_0000_0000_0000. -/
def MESH_TILEMAP : RegDef := ⟨55, 0x1810, [(0x20, 2), (0x8, 4)], 0x0, false, [MESH_TILEMAP_STOP 0, MESH_TILEMAP_STOP
    1, MESH_TILEMAP_STOP 2, MESH_TILEMAP_STOP 3, MESH_TILEMAP_STOP 4, MESH_TILEMAP_STOP 5, MESH_TILEMAP_STOP 6,
    MESH_TILEMAP_STOP 7]⟩
/-- MESH_DIE_STATUS: spec 12_mesh_trellis.md, section 'MESH_DIE_STATUS', reset 0x0000_0000_0000_0000. -/
def MESH_DIE_STATUS : RegDef := ⟨56, 0x1850, [], 0x0, false, [MESH_DIE_STATUS_CHECK, MESH_DIE_STATUS_AGREE,
    MESH_DIE_STATUS_REFUSED]⟩
/-- MESH_FLIP_CTL: spec 12_mesh_trellis.md, section 'MESH_FLIP_CTL', reset 0x0000_0000_0000_6400. -/
def MESH_FLIP_CTL : RegDef := ⟨57, 0x9000, [], 0x6400, false, [MESH_FLIP_CTL_GO, MESH_FLIP_CTL_TIMEOUT_US]⟩
/-- MESH_FLIP_STATUS: spec 12_mesh_trellis.md, section 'MESH_FLIP_STATUS', reset 0x0000_0000_0000_0000. -/
def MESH_FLIP_STATUS : RegDef := ⟨58, 0x9008, [], 0x0, false, [MESH_FLIP_STATUS_EPOCH, MESH_FLIP_STATUS_BUSY,
    MESH_FLIP_STATUS_DONE, MESH_FLIP_STATUS_TIMEOUT, MESH_FLIP_STATUS_CONTRACT, MESH_FLIP_STATUS_MISMATCH,
    MESH_FLIP_STATUS_REFUSED, MESH_FLIP_STATUS_FLIPS]⟩
/-- URN_CTL: spec 13_urn_timed_service.md, section 'URN_CTL', reset 0x0000_0000_0000_03E8. -/
def URN_CTL : RegDef := ⟨59, 0x1000, [], 0x3e8, false, [URN_CTL_HOLD_US]⟩
/-- URN_STATUS: spec 13_urn_timed_service.md, section 'URN_STATUS', reset 0x0000_0000_0000_0000. -/
def URN_STATUS : RegDef := ⟨60, 0x1008, [], 0x0, false, [URN_STATUS_REFUSED, URN_STATUS_WAIT_OVF, URN_STATUS_REASON,
    URN_STATUS_WAITERS]⟩
/-- URN_CADDY: spec 13_urn_timed_service.md, section 'URN_CADDY', reset 0x0000_0000_0000_0000. -/
def URN_CADDY : RegDef := ⟨61, 0x1010, [], 0x0, false, [URN_CADDY_OCC, URN_CADDY_TOCC, URN_CADDY_STALLS]⟩
/-- URN_DROPS: spec 13_urn_timed_service.md, section 'URN_DROPS', reset 0x0000_0000_0000_0000. -/
def URN_DROPS : RegDef := ⟨62, 0x1018, [], 0x0, false, [URN_DROPS_IQ, URN_DROPS_HOLD, URN_DROPS_DB]⟩
/-- URN_QCFG: spec 13_urn_timed_service.md, section 'URN_QCFG_l', reset 0x0000_0000_0000_0000 (Gatehouse values for
system queues). -/
def URN_QCFG : RegDef := ⟨63, 0x200000, [(0x20, 32768)], 0x0, false, [URN_QCFG_EN, URN_QCFG_CLASS, URN_QCFG_POLICY,
    URN_QCFG_ESZ, URN_QCFG_LOG2N, URN_QCFG_RCOL, URN_QCFG_WORLD, URN_QCFG_VMCHK, URN_QCFG_CONS, URN_QCFG_PROD,
    URN_QCFG_IBEN, URN_QCFG_VMID, URN_QCFG_OWNID]⟩
/-- URN_QBASE: spec 13_urn_timed_service.md, section 'URN_QBASE_l', reset 0x0000_0000_0000_0000. -/
def URN_QBASE : RegDef := ⟨64, 0x200008, [(0x20, 32768)], 0x0, false, [URN_QBASE_BASE, URN_QBASE_ITARGET]⟩
/-- URN_QPTR: spec 13_urn_timed_service.md, section 'URN_QPTR_l', reset 0x0000_0000_0000_0000. -/
def URN_QPTR : RegDef := ⟨65, 0x200010, [(0x20, 32768)], 0x0, false, [URN_QPTR_HEAD, URN_QPTR_TAIL, URN_QPTR_SEQ]⟩
/-- URN_QSTAT: spec 13_urn_timed_service.md, section 'URN_QSTAT_l', reset 0x0000_0000_0000_0000. -/
def URN_QSTAT : RegDef := ⟨66, 0x200018, [(0x20, 32768)], 0x0, false, [URN_QSTAT_DROPS, URN_QSTAT_DEMOTED,
    URN_QSTAT_TCON, URN_QSTAT_TVALID, URN_QSTAT_BIND_PEND, URN_QSTAT_BIND_LOST, URN_QSTAT_TERR]⟩
/-- TSV_REQ0: spec 13_urn_timed_service.md, section 'TSV_REQ0', reset 0x0000_0000_0000_0000. -/
def TSV_REQ0 : RegDef := ⟨67, 0x1000, [], 0x0, false, [TSV_REQ0_SKIND, TSV_REQ0_SID, TSV_REQ0_RID]⟩
/-- TSV_REQ1: spec 13_urn_timed_service.md, section 'TSV_REQ1', reset 0x0000_0000_0000_0000. -/
def TSV_REQ1 : RegDef := ⟨68, 0x1008, [], 0x0, false, [TSV_REQ1_QUEUE, TSV_REQ1_SIZE, TSV_REQ1_RATE, TSV_REQ1_BOUND]⟩
/-- TSV_CMD: spec 13_urn_timed_service.md, section 'TSV_CMD', reset 0x0000_0000_0000_0000. -/
def TSV_CMD : RegDef := ⟨69, 0x1010, [], 0x0, false, [TSV_CMD_ADMIT, TSV_CMD_WITHDRAW, TSV_CMD_NUM]⟩
/-- TSV_STATUS: spec 13_urn_timed_service.md, section 'TSV_STATUS', reset 0x0000_0000_0000_0000. -/
def TSV_STATUS : RegDef := ⟨70, 0x1018, [], 0x0, false, [TSV_STATUS_BUSY, TSV_STATUS_DONE, TSV_STATUS_REASON,
    TSV_STATUS_NUM, TSV_STATUS_M, TSV_STATUS_WC, TSV_STATUS_COUNT]⟩
/-- TSV_CCFG: spec 13_urn_timed_service.md, section 'TSV_CnCFG', reset 0x0000_0000_0000_0000. -/
def TSV_CCFG : RegDef := ⟨71, 0x2000, [(0x20, 64)], 0x0, false, [TSV_CCFG_VALID, TSV_CCFG_SKIND, TSV_CCFG_SID,
    TSV_CCFG_QUEUE, TSV_CCFG_SIZE, TSV_CCFG_M, TSV_CCFG_BOUND, TSV_CCFG_WREASON]⟩
/-- TSV_CLIM: spec 13_urn_timed_service.md, section 'TSV_CnLIM', reset 0x0000_0000_0000_0000. -/
def TSV_CLIM : RegDef := ⟨72, 0x2008, [(0x20, 64)], 0x0, false, [TSV_CLIM_RATE, TSV_CLIM_WC, TSV_CLIM_RID]⟩
/-- TSV_CCNT: spec 13_urn_timed_service.md, section 'TSV_CnCNT', reset 0x0000_0000_0000_0000. -/
def TSV_CCNT : RegDef := ⟨73, 0x2010, [(0x20, 64)], 0x0, false, [TSV_CCNT_DEMOTED, TSV_CCNT_LATE, TSV_CCNT_QFULL,
    TSV_CCNT_PLATE]⟩
/-- KSK_CTL: spec 14_kiosk_engines.md, section 'KSK_CTL', reset 0x0000_0000_0000_1000. -/
def KSK_CTL : RegDef := ⟨74, 0x30000, [], 0x1000, false, [KSK_CTL_EN, KSK_CTL_RESET, KSK_CTL_WORLD, KSK_CTL_SLICE]⟩
/-- KSK_CTL_H: spec 14_kiosk_engines.md, section 'KSK_CTL', reset 0x0000_0000_0000_1000. -/
def KSK_CTL_H : RegDef := ⟨75, 0x2000, [(0x400, 16)], 0x1000, false, [KSK_CTL_EN, KSK_CTL_RESET, KSK_CTL_WORLD,
    KSK_CTL_SLICE]⟩
/-- KSK_STATUS: spec 14_kiosk_engines.md, section 'KSK_STATUS', reset 0x0000_0000_0000_0000. -/
def KSK_STATUS : RegDef := ⟨76, 0x30008, [], 0x0, false, [KSK_STATUS_REFUSED, KSK_STATUS_DFAULT, KSK_STATUS_INTERR,
    KSK_STATUS_MSG_OVR, KSK_STATUS_SRAM_CLR, KSK_STATUS_RUNNING, KSK_STATUS_HANDLER]⟩
/-- KSK_STATUS_H: spec 14_kiosk_engines.md, section 'KSK_STATUS', reset 0x0000_0000_0000_0000. -/
def KSK_STATUS_H : RegDef := ⟨77, 0x2008, [(0x400, 16)], 0x0, false, [KSK_STATUS_REFUSED, KSK_STATUS_DFAULT,
    KSK_STATUS_INTERR, KSK_STATUS_MSG_OVR, KSK_STATUS_SRAM_CLR, KSK_STATUS_RUNNING, KSK_STATUS_HANDLER]⟩
/-- KSK_DOORBELL: spec 14_kiosk_engines.md, section 'KSK_DOORBELL', reset 0x0000_0000_0000_0000. -/
def KSK_DOORBELL : RegDef := ⟨78, 0x30010, [], 0x0, false, [KSK_DOORBELL_MSG]⟩
/-- KSK_DOORBELL_H: spec 14_kiosk_engines.md, section 'KSK_DOORBELL', reset 0x0000_0000_0000_0000. -/
def KSK_DOORBELL_H : RegDef := ⟨79, 0x2010, [(0x400, 16)], 0x0, false, [KSK_DOORBELL_MSG]⟩
/-- KSK_CTX: spec 14_kiosk_engines.md, section 'KSK_CTX0 to KSK_CTX3', reset 0x0000_0000_0000_0000. -/
def KSK_CTX : RegDef := ⟨80, 0x30100, [(0x10, 4)], 0x0, false, [KSK_CTX_STATE, KSK_CTX_GO, KSK_CTX_STOP,
    KSK_CTX_PRIV, KSK_CTX_PC, KSK_CTX_PASID]⟩
/-- KSK_CTX_H: spec 14_kiosk_engines.md, section 'KSK_CTX0 to KSK_CTX3', reset 0x0000_0000_0000_0000. -/
def KSK_CTX_H : RegDef := ⟨81, 0x2100, [(0x400, 16), (0x10, 4)], 0x0, false, [KSK_CTX_STATE, KSK_CTX_GO,
    KSK_CTX_STOP, KSK_CTX_PRIV, KSK_CTX_PC, KSK_CTX_PASID]⟩
/-- KSK_CTX_FAULT: spec 14_kiosk_engines.md, section 'KSK_CTX0_FAULT to KSK_CTX3_FAULT', reset
0x0000_0000_0000_0000. -/
def KSK_CTX_FAULT : RegDef := ⟨82, 0x30108, [(0x10, 4)], 0x0, false, [KSK_CTX_FAULT_CODE, KSK_CTX_FAULT_INFO,
    KSK_CTX_FAULT_PC, KSK_CTX_FAULT_VALID]⟩
/-- KSK_CTX_FAULT_H: spec 14_kiosk_engines.md, section 'KSK_CTX0_FAULT to KSK_CTX3_FAULT', reset
0x0000_0000_0000_0000. -/
def KSK_CTX_FAULT_H : RegDef := ⟨83, 0x2108, [(0x400, 16), (0x10, 4)], 0x0, false, [KSK_CTX_FAULT_CODE,
    KSK_CTX_FAULT_INFO, KSK_CTX_FAULT_PC, KSK_CTX_FAULT_VALID]⟩
/-- KSK_TWIN: spec 14_kiosk_engines.md, section 'KSK_TWIN0 to KSK_TWIN3', reset 0x0000_0000_0000_0000. -/
def KSK_TWIN : RegDef := ⟨84, 0x30040, [(0x8, 4)], 0x0, false, [KSK_TWIN_LOG2SZ, KSK_TWIN_R, KSK_TWIN_W,
    KSK_TWIN_CTX, KSK_TWIN_BASE]⟩
/-- KSK_CL_CTL: spec 14_kiosk_engines.md, section 'KSK_CL_CTL', reset 0x0000_0000_0000_0100. -/
def KSK_CL_CTL : RegDef := ⟨85, 0x1000, [], 0x100, false, [KSK_CL_CTL_SLICE]⟩
/-- KSK_CL_STATUS: spec 14_kiosk_engines.md, section 'KSK_CL_STATUS', reset 0x0000_0000_0000_0000. -/
def KSK_CL_STATUS : RegDef := ⟨86, 0x1008, [], 0x0, false, [KSK_CL_STATUS_RUNNING, KSK_CL_STATUS_FAULTED,
    KSK_CL_STATUS_WALLED]⟩
/-- IOM_CTL: spec 15_io_root_complex.md, section 'IOM_CTL', reset 0x0000_0000_0000_0064. -/
def IOM_CTL : RegDef := ⟨87, 0x1000, [], 0x64, false, [IOM_CTL_ATS_TO_MS, IOM_CTL_EN]⟩
/-- IOM_STATUS: spec 15_io_root_complex.md, section 'IOM_STATUS', reset 0x0000_0000_0000_0000. -/
def IOM_STATUS : RegDef := ⟨88, 0x1008, [], 0x0, false, [IOM_STATUS_FAULT, IOM_STATUS_INTEGRITY,
    IOM_STATUS_ATS_TIMEOUT, IOM_STATUS_MSI_BAD, IOM_STATUS_UNCLAIMED, IOM_STATUS_REFUSED, IOM_STATUS_FAULT_RID,
    IOM_STATUS_FAULTS]⟩
/-- IOM_DTBASE: spec 15_io_root_complex.md, section 'IOM_DTBASE', reset 0x0000_0000_0000_0000. -/
def IOM_DTBASE : RegDef := ⟨89, 0x1010, [], 0x0, false, [IOM_DTBASE_BASE]⟩
/-- IOM_APERTURE: spec 15_io_root_complex.md, section 'IOM_APERTURE', reset 0x0000_0000_0000_0000. -/
def IOM_APERTURE : RegDef := ⟨90, 0x1018, [], 0x0, false, [IOM_APERTURE_BASE, IOM_APERTURE_LIMIT, IOM_APERTURE_EN]⟩
/-- IOM_CXLWIN: spec 15_io_root_complex.md, section 'IOM_CXLWIN0 to IOM_CXLWIN3', reset 0x0000_0000_0000_0000. -/
def IOM_CXLWIN : RegDef := ⟨91, 0x1020, [(0x8, 4)], 0x0, false, [IOM_CXLWIN_BASE, IOM_CXLWIN_LIMIT, IOM_CXLWIN_EN,
    IOM_CXLWIN_PORT, IOM_CXLWIN_RP]⟩
/-- IOM_INV: spec 15_io_root_complex.md, section 'IOM_INV', reset 0x0000_0000_0000_0000. -/
def IOM_INV : RegDef := ⟨92, 0x1040, [], 0x0, false, [IOM_INV_KIND, IOM_INV_GO, IOM_INV_TIMEOUT, IOM_INV_RID,
    IOM_INV_PASID, IOM_INV_PV]⟩
/-- IOM_INV_ADDR: spec 15_io_root_complex.md, section 'IOM_INV_ADDR', reset 0x0000_0000_0000_0000. -/
def IOM_INV_ADDR : RegDef := ⟨93, 0x1048, [], 0x0, false, [IOM_INV_ADDR_LOG2SZ, IOM_INV_ADDR_ADDR]⟩
/-- IOM_PWIN_CTL: spec 15_io_root_complex.md, section 'IOM_PWIN_CTL', reset 0x0000_0000_0000_0000. -/
def IOM_PWIN_CTL : RegDef := ⟨94, 0x1050, [], 0x0, false, [IOM_PWIN_CTL_COMMIT, IOM_PWIN_CTL_ACTIVE,
    IOM_PWIN_CTL_REFUSED]⟩
/-- IOM_PWIN_BASE: spec 15_io_root_complex.md, section 'IOM_PWINb_BASEn, IOM_PWINb_LIMn, IOM_PWINb_SRCn', reset
0x0000_0000_0000_0000. -/
def IOM_PWIN_BASE : RegDef := ⟨95, 0x2000, [(0x800, 2), (0x18, 64)], 0x0, false, [IOM_PWIN_BASE_EN,
    IOM_PWIN_BASE_TARGET, IOM_PWIN_BASE_BASE]⟩
/-- IOM_PWIN_LIM: spec 15_io_root_complex.md, section 'IOM_PWINb_BASEn, IOM_PWINb_LIMn, IOM_PWINb_SRCn', reset
0x0000_0000_0000_0000. -/
def IOM_PWIN_LIM : RegDef := ⟨96, 0x2008, [(0x800, 2), (0x18, 64)], 0x0, false, [IOM_PWIN_LIM_LIMIT]⟩
/-- IOM_PWIN_SRC: spec 15_io_root_complex.md, section 'IOM_PWINb_BASEn, IOM_PWINb_LIMn, IOM_PWINb_SRCn', reset
0x0000_0000_0000_0000. -/
def IOM_PWIN_SRC : RegDef := ⟨97, 0x2010, [(0x800, 2), (0x18, 64)], 0x0, false, [IOM_PWIN_SRC_SRC]⟩
/-- FB_STATUS: spec 15_io_root_complex.md, section 'FB_STATUS', reset 0x0000_0000_0000_0000. -/
def FB_STATUS : RegDef := ⟨98, 0x1000, [], 0x0, false, [FB_STATUS_STATE, FB_STATUS_PEER_SOCKET, FB_STATUS_PEER_LINK,
    FB_STATUS_MAPDIFF, FB_STATUS_REFUSED, FB_STATUS_OWN_SOCKET, FB_STATUS_RETRAINS, FB_STATUS_REPLAYS]⟩
/-- FB_ROUTE: spec 15_io_root_complex.md, section 'FB_ROUTE', reset 0x0000_0000_0000_0000. -/
def FB_ROUTE : RegDef := ⟨99, 0x1100, [], 0x0, false, [FB_ROUTE_LINK 0, FB_ROUTE_LINK 1, FB_ROUTE_LINK 2,
    FB_ROUTE_LINK 3, FB_ROUTE_LINK 4, FB_ROUTE_LINK 5, FB_ROUTE_LINK 6, FB_ROUTE_LINK 7, FB_ROUTE_VALID 0,
    FB_ROUTE_VALID 1, FB_ROUTE_VALID 2, FB_ROUTE_VALID 3, FB_ROUTE_VALID 4, FB_ROUTE_VALID 5, FB_ROUTE_VALID 6,
    FB_ROUTE_VALID 7]⟩
/-- FB_SRANGE: spec 15_io_root_complex.md, section 'FB_SRANGE0 to FB_SRANGE7', reset 0x0000_0000_0000_0000. -/
def FB_SRANGE : RegDef := ⟨100, 0x1200, [(0x8, 8)], 0x0, false, [FB_SRANGE_BASE, FB_SRANGE_LIMIT, FB_SRANGE_SOCKET,
    FB_SRANGE_EN]⟩
/-- WW_CTL: spec 16_walled_world.md, section 'WW_CTL', reset 0x0000_0000_0000_0000. -/
def WW_CTL : RegDef := ⟨101, 0x1000, [], 0x0, false, [WW_CTL_MONCORE]⟩
/-- WW_STATUS: spec 16_walled_world.md, section 'WW_STATUS', reset 0x0000_0000_0000_0000. -/
def WW_STATUS : RegDef := ⟨102, 0x1008, [], 0x0, false, [WW_STATUS_REFUSED, WW_STATUS_POWER_VETO,
    WW_STATUS_RANGE_VIOL, WW_STATUS_REG_VIOL, WW_STATUS_MONQ_DROP, WW_STATUS_WARNED]⟩
/-- WW_VIOL: spec 16_walled_world.md, section 'WW_VIOL', reset 0x0000_0000_0000_0000. -/
def WW_VIOL : RegDef := ⟨103, 0x1010, [], 0x0, false, [WW_VIOL_RANGE, WW_VIOL_POWER, WW_VIOL_REG, WW_VIOL_MONQ]⟩
/-- WW_WDOG_CTL: spec 16_walled_world.md, section 'WW_WDOG_CTL', reset 0x0000_03E8_0027_1000. -/
def WW_WDOG_CTL : RegDef := ⟨104, 0x1020, [], 0x3e800271000, false, [WW_WDOG_CTL_EN, WW_WDOG_CTL_PERIOD_MS,
    WW_WDOG_CTL_WARN_MS]⟩
/-- WW_WDOG_KICK: spec 16_walled_world.md, section 'WW_WDOG_KICK', reset 0x0000_0000_0000_0000. -/
def WW_WDOG_KICK : RegDef := ⟨105, 0x1028, [], 0x0, false, [WW_WDOG_KICK_VALUE]⟩
/-- WW_WDOG_STATUS: spec 16_walled_world.md, section 'WW_WDOG_STATUS', reset 0x0000_0000_0000_0000; EXPIRED kept
through warm reset. -/
def WW_WDOG_STATUS : RegDef := ⟨106, 0x1038, [], 0x0, false, [WW_WDOG_STATUS_REMAIN_MS, WW_WDOG_STATUS_RUNNING,
    WW_WDOG_STATUS_EXPIRED, WW_WDOG_STATUS_KICKS]⟩
/-- WW_GPIO_WORLD: spec 16_walled_world.md, section 'WW_GPIO_WORLD', reset 0x0000_0000_0000_0000. -/
def WW_GPIO_WORLD : RegDef := ⟨107, 0x1200, [], 0x0, false, [WW_GPIO_WORLD_PINS]⟩
/-- WW_RANGE: spec 16_walled_world.md, section 'WW_RANGE0 to WW_RANGE15', reset 0x0000_0000_0000_0000. -/
def WW_RANGE : RegDef := ⟨108, 0x1100, [(0x8, 16)], 0x0, false, [WW_RANGE_BASE, WW_RANGE_LIMIT, WW_RANGE_EN]⟩
/-- PWR_VIN_CTL: spec 17_power_clocks.md, section 'PWR_VIN_CTL', reset 0x0000_0000_0096_2814. -/
def PWR_VIN_CTL : RegDef := ⟨109, 0x1000, [], 0x962814, false, [PWR_VIN_CTL_SLEW, PWR_VIN_CTL_FALL, PWR_VIN_CTL_IMAX]⟩
/-- PWR_PKG_CTL: spec 17_power_clocks.md, section 'PWR_PKG_CTL', reset 0x0000_0000_0000_0578. -/
def PWR_PKG_CTL : RegDef := ⟨110, 0x1000, [], 0x578, false, [PWR_PKG_CTL_TDP_W, PWR_PKG_CTL_M6_EN,
    PWR_PKG_CTL_M7_REQ]⟩
/-- PWR_PKG_STATUS: spec 17_power_clocks.md, section 'PWR_PKG_STATUS', reset 0x0000_0000_0000_0000. -/
def PWR_PKG_STATUS : RegDef := ⟨111, 0x1008, [], 0x0, false, [PWR_PKG_STATUS_CAP, PWR_PKG_STATUS_P0_TILES,
    PWR_PKG_STATUS_AVG_W, PWR_PKG_STATUS_REFUSED, PWR_PKG_STATUS_M7_REFUSED, PWR_PKG_STATUS_M7_REASON]⟩
/-- PWR_GOV_STATUS: spec 17_power_clocks.md, section 'PWR_GOV_STATUS', reset 0x0000_0000_0000_0000. -/
def PWR_GOV_STATUS : RegDef := ⟨112, 0x1010, [], 0x0, false, [PWR_GOV_STATUS_LEVEL, PWR_GOV_STATUS_HARD,
    PWR_GOV_STATUS_VSTOP, PWR_GOV_STATUS_FALL_OVR, PWR_GOV_STATUS_EPISODES, PWR_GOV_STATUS_VSTOP_CNT]⟩
/-- PWR_RAIL_STATUS: spec 17_power_clocks.md, section 'PWR_RAIL_STATUS', reset 0x0000_0000_0000_0000. -/
def PWR_RAIL_STATUS : RegDef := ⟨113, 0x1018, [], 0x0, false, [PWR_RAIL_STATUS_VIN_MV, PWR_RAIL_STATUS_V5_MV,
    PWR_RAIL_STATUS_IIN, PWR_RAIL_STATUS_VIN_MARGIN]⟩
/-- PWR_GOV_EXEMPT: spec 17_power_clocks.md, section 'PWR_GOV_EXEMPT0 to PWR_GOV_EXEMPT3', reset
0x0000_0000_0000_0000. -/
def PWR_GOV_EXEMPT : RegDef := ⟨114, 0x1020, [(0x8, 4)], 0x0, false, [PWR_GOV_EXEMPT_TILES]⟩
/-- PWR_DOM_CTL: spec 17_power_clocks.md, section 'PWR_DOM_CTLk', reset 0x0000_0000_003E_8900. -/
def PWR_DOM_CTL : RegDef := ⟨115, 0x1000, [(0x20, 64)], 0x3e8900, false, [PWR_DOM_CTL_TARGET, PWR_DOM_CTL_POLICY,
    PWR_DOM_CTL_LOWSTATE, PWR_DOM_CTL_WAKE, PWR_DOM_CTL_TIMER_US]⟩
/-- PWR_DOM_CTL_I: spec 17_power_clocks.md, section 'PWR_DOM_CTLk', reset 0x0000_0000_003E_8900. -/
def PWR_DOM_CTL_I : RegDef := ⟨116, 0x1000, [(0x20, 64)], 0x3e8900, false, [PWR_DOM_CTL_TARGET, PWR_DOM_CTL_POLICY,
    PWR_DOM_CTL_LOWSTATE, PWR_DOM_CTL_WAKE, PWR_DOM_CTL_TIMER_US]⟩
/-- PWR_DOM_VOTE: spec 17_power_clocks.md, section 'PWR_DOM_VOTEk', reset 0x0000_0000_0000_0000. -/
def PWR_DOM_VOTE : RegDef := ⟨117, 0x1008, [(0x20, 64)], 0x0, false, [PWR_DOM_VOTE_OPEN, PWR_DOM_VOTE_WALLED]⟩
/-- PWR_DOM_VOTE_I: spec 17_power_clocks.md, section 'PWR_DOM_VOTEk', reset 0x0000_0000_0000_0000. -/
def PWR_DOM_VOTE_I : RegDef := ⟨118, 0x1008, [(0x20, 64)], 0x0, false, [PWR_DOM_VOTE_OPEN, PWR_DOM_VOTE_WALLED]⟩
/-- PWR_DOM_STATUS: spec 17_power_clocks.md, section 'PWR_DOM_STATUSk', reset 0x0000_0000_0000_0000. -/
def PWR_DOM_STATUS : RegDef := ⟨119, 0x1010, [(0x20, 64)], 0x0, false, [PWR_DOM_STATUS_STATE, PWR_DOM_STATUS_BUSY,
    PWR_DOM_STATUS_PROG, PWR_DOM_STATUS_PEND, PWR_DOM_STATUS_PTGT, PWR_DOM_STATUS_REFUSED, PWR_DOM_STATUS_REASON,
    PWR_DOM_STATUS_EPOCH, PWR_DOM_STATUS_HELD, PWR_DOM_STATUS_WHELD]⟩
/-- PWR_DOM_STATUS_I: spec 17_power_clocks.md, section 'PWR_DOM_STATUSk', reset 0x0000_0000_0000_0000. -/
def PWR_DOM_STATUS_I : RegDef := ⟨120, 0x1010, [(0x20, 64)], 0x0, false, [PWR_DOM_STATUS_STATE, PWR_DOM_STATUS_BUSY,
    PWR_DOM_STATUS_PROG, PWR_DOM_STATUS_PEND, PWR_DOM_STATUS_PTGT, PWR_DOM_STATUS_REFUSED, PWR_DOM_STATUS_REASON,
    PWR_DOM_STATUS_EPOCH, PWR_DOM_STATUS_HELD, PWR_DOM_STATUS_WHELD]⟩
/-- PWR_TILE_PERF: spec 17_power_clocks.md, section 'PWR_TILE_PERFi', reset 0x0000_0000_0000_0055. -/
def PWR_TILE_PERF : RegDef := ⟨121, 0x1018, [(0x20, 32)], 0x55, false, [PWR_TILE_PERF_REQ, PWR_TILE_PERF_GRANT,
    PWR_TILE_PERF_LIMIT]⟩
/-- CLK_CD: spec 17_power_clocks.md, section 'CLK_CD', reset 0x0000_0000_0000_0054. -/
def CLK_CD : RegDef := ⟨122, 0x2000, [], 0x54, false, [CLK_CD_FAB, CLK_CD_TKSK, CLK_CD_BUSY, CLK_CD_REFUSED]⟩
/-- CLK_IOD: spec 17_power_clocks.md, section 'CLK_IOD', reset 0x0000_0005_5555_5553. -/
def CLK_IOD : RegDef := ⟨123, 0x2000, [], 0x555555553, false, [CLK_IOD_FAB, CLK_IOD_HKSK 0, CLK_IOD_HKSK 1,
    CLK_IOD_HKSK 2, CLK_IOD_HKSK 3, CLK_IOD_HKSK 4, CLK_IOD_HKSK 5, CLK_IOD_HKSK 6, CLK_IOD_HKSK 7, CLK_IOD_BUSY,
    CLK_IOD_REFUSED]⟩
/-- CLK_REFOUT: spec 17_power_clocks.md, section 'CLK_REFOUT', reset 0x0000_0000_0000_0000; EN set in M4. -/
def CLK_REFOUT : RegDef := ⟨124, 0x2008, [], 0x0, false, [CLK_REFOUT_EN, CLK_REFOUT_SSC]⟩
/-- CLK_TIMEBASE: spec 17_power_clocks.md, section 'CLK_TIMEBASE', reset 0 at M2. -/
def CLK_TIMEBASE : RegDef := ⟨125, 0x1000, [], 0x0, false, [CLK_TIMEBASE_TIME]⟩
/-- CLK_TS_CTL: spec 17_power_clocks.md, section 'CLK_TS_CTL', reset 0x0000_0000_0000_0000. -/
def CLK_TS_CTL : RegDef := ⟨126, 0x1008, [], 0x0, false, [CLK_TS_CTL_DELAY_NS]⟩
/-- CLK_TS_STATUS: spec 17_power_clocks.md, section 'CLK_TS_STATUS', reset 0x0000_0000_0000_0000. -/
def CLK_TS_STATUS : RegDef := ⟨127, 0x1010, [], 0x0, false, [CLK_TS_STATUS_ERR_NS, CLK_TS_STATUS_LOCKED,
    CLK_TS_STATUS_MASTER, CLK_TS_STATUS_RESTART, CLK_TS_STATUS_PULSES]⟩
/-- CLK_TS_OFFSET: spec 17_power_clocks.md, section 'CLK_TS_OFFSET', reset 0x0000_0000_0000_0000. -/
def CLK_TS_OFFSET : RegDef := ⟨128, 0x1018, [], 0x0, false, [CLK_TS_OFFSET_OFFSET]⟩
/-- CNT_UCTL_L: spec 18_counters_probes.md, section 'CNT_UCTL, CNT_USTATUS, CNT_USELn, CNT_UPAIRm', reset
0x0000_0000_0000_0000. -/
def CNT_UCTL_L : RegDef := ⟨129, 0x3c0000, [], 0x0, false, [CNT_UCTL_FREEZE]⟩
/-- CNT_USTATUS_L: spec 18_counters_probes.md, section 'CNT_UCTL, CNT_USTATUS, CNT_USELn, CNT_UPAIRm', reset
0x0000_0000_0000_0000. -/
def CNT_USTATUS_L : RegDef := ⟨130, 0x3c0008, [], 0x0, false, [CNT_USTATUS_OVF]⟩
/-- CNT_USEL_L: spec 18_counters_probes.md, section 'CNT_UCTL, CNT_USTATUS, CNT_USELn, CNT_UPAIRm', reset
0x0000_0000_0000_0000. -/
def CNT_USEL_L : RegDef := ⟨131, 0x3c0040, [(0x8, 8)], 0x0, false, [CNT_USEL_EVENT, CNT_USEL_WALLED]⟩
/-- CNT_UPAIR_L: spec 18_counters_probes.md, section 'CNT_UCTL, CNT_USTATUS, CNT_USELn, CNT_UPAIRm', reset
0x0000_0000_0000_0000. -/
def CNT_UPAIR_L : RegDef := ⟨132, 0x3c0100, [(0x8, 4)], 0x0, false, [CNT_UPAIR_EVEN, CNT_UPAIR_ODD]⟩
/-- CNT_UCTL_H: spec 18_counters_probes.md, section 'CNT_UCTL, CNT_USTATUS, CNT_USELn, CNT_UPAIRm', reset
0x0000_0000_0000_0000. -/
def CNT_UCTL_H : RegDef := ⟨133, 0x3c0000, [], 0x0, false, [CNT_UCTL_FREEZE]⟩
/-- CNT_USTATUS_H: spec 18_counters_probes.md, section 'CNT_UCTL, CNT_USTATUS, CNT_USELn, CNT_UPAIRm', reset
0x0000_0000_0000_0000. -/
def CNT_USTATUS_H : RegDef := ⟨134, 0x3c0008, [], 0x0, false, [CNT_USTATUS_OVF]⟩
/-- CNT_USEL_H: spec 18_counters_probes.md, section 'CNT_UCTL, CNT_USTATUS, CNT_USELn, CNT_UPAIRm', reset
0x0000_0000_0000_0000. -/
def CNT_USEL_H : RegDef := ⟨135, 0x3c0040, [(0x8, 16)], 0x0, false, [CNT_USEL_EVENT, CNT_USEL_WALLED]⟩
/-- CNT_UPAIR_H: spec 18_counters_probes.md, section 'CNT_UCTL, CNT_USTATUS, CNT_USELn, CNT_UPAIRm', reset
0x0000_0000_0000_0000. -/
def CNT_UPAIR_H : RegDef := ⟨136, 0x3c0100, [(0x8, 8)], 0x0, false, [CNT_UPAIR_EVEN, CNT_UPAIR_ODD]⟩
/-- CNT_UCTL_M: spec 18_counters_probes.md, section 'CNT_UCTL, CNT_USTATUS, CNT_USELn, CNT_UPAIRm', reset
0x0000_0000_0000_0000. -/
def CNT_UCTL_M : RegDef := ⟨137, 0x3c0000, [], 0x0, false, [CNT_UCTL_FREEZE]⟩
/-- CNT_USTATUS_M: spec 18_counters_probes.md, section 'CNT_UCTL, CNT_USTATUS, CNT_USELn, CNT_UPAIRm', reset
0x0000_0000_0000_0000. -/
def CNT_USTATUS_M : RegDef := ⟨138, 0x3c0008, [], 0x0, false, [CNT_USTATUS_OVF]⟩
/-- CNT_USEL_M: spec 18_counters_probes.md, section 'CNT_UCTL, CNT_USTATUS, CNT_USELn, CNT_UPAIRm', reset
0x0000_0000_0000_0000. -/
def CNT_USEL_M : RegDef := ⟨139, 0x3c0040, [(0x8, 8)], 0x0, false, [CNT_USEL_EVENT, CNT_USEL_WALLED]⟩
/-- CNT_UPAIR_M: spec 18_counters_probes.md, section 'CNT_UCTL, CNT_USTATUS, CNT_USELn, CNT_UPAIRm', reset
0x0000_0000_0000_0000. -/
def CNT_UPAIR_M : RegDef := ⟨140, 0x3c0100, [(0x8, 4)], 0x0, false, [CNT_UPAIR_EVEN, CNT_UPAIR_ODD]⟩
/-- CNT_UCTL_U: spec 18_counters_probes.md, section 'CNT_UCTL, CNT_USTATUS, CNT_USELn, CNT_UPAIRm', reset
0x0000_0000_0000_0000. -/
def CNT_UCTL_U : RegDef := ⟨141, 0x3c0000, [], 0x0, false, [CNT_UCTL_FREEZE]⟩
/-- CNT_USTATUS_U: spec 18_counters_probes.md, section 'CNT_UCTL, CNT_USTATUS, CNT_USELn, CNT_UPAIRm', reset
0x0000_0000_0000_0000. -/
def CNT_USTATUS_U : RegDef := ⟨142, 0x3c0008, [], 0x0, false, [CNT_USTATUS_OVF]⟩
/-- CNT_USEL_U: spec 18_counters_probes.md, section 'CNT_UCTL, CNT_USTATUS, CNT_USELn, CNT_UPAIRm', reset
0x0000_0000_0000_0000. -/
def CNT_USEL_U : RegDef := ⟨143, 0x3c0040, [(0x8, 8)], 0x0, false, [CNT_USEL_EVENT, CNT_USEL_WALLED]⟩
/-- CNT_UPAIR_U: spec 18_counters_probes.md, section 'CNT_UCTL, CNT_USTATUS, CNT_USELn, CNT_UPAIRm', reset
0x0000_0000_0000_0000. -/
def CNT_UPAIR_U : RegDef := ⟨144, 0x3c0100, [(0x8, 4)], 0x0, false, [CNT_UPAIR_EVEN, CNT_UPAIR_ODD]⟩
/-- CNT_UCTL_P: spec 18_counters_probes.md, section 'CNT_UCTL, CNT_USTATUS, CNT_USELn, CNT_UPAIRm', reset
0x0000_0000_0000_0000. -/
def CNT_UCTL_P : RegDef := ⟨145, 0x3c0000, [], 0x0, false, [CNT_UCTL_FREEZE]⟩
/-- CNT_USTATUS_P: spec 18_counters_probes.md, section 'CNT_UCTL, CNT_USTATUS, CNT_USELn, CNT_UPAIRm', reset
0x0000_0000_0000_0000. -/
def CNT_USTATUS_P : RegDef := ⟨146, 0x3c0008, [], 0x0, false, [CNT_USTATUS_OVF]⟩
/-- CNT_USEL_P: spec 18_counters_probes.md, section 'CNT_UCTL, CNT_USTATUS, CNT_USELn, CNT_UPAIRm', reset
0x0000_0000_0000_0000. -/
def CNT_USEL_P : RegDef := ⟨147, 0x3c0040, [(0x8, 8)], 0x0, false, [CNT_USEL_EVENT, CNT_USEL_WALLED]⟩
/-- CNT_UPAIR_P: spec 18_counters_probes.md, section 'CNT_UCTL, CNT_USTATUS, CNT_USELn, CNT_UPAIRm', reset
0x0000_0000_0000_0000. -/
def CNT_UPAIR_P : RegDef := ⟨148, 0x3c0100, [(0x8, 4)], 0x0, false, [CNT_UPAIR_EVEN, CNT_UPAIR_ODD]⟩
/-- CNT_UCTL_F: spec 18_counters_probes.md, section 'CNT_UCTL, CNT_USTATUS, CNT_USELn, CNT_UPAIRm', reset
0x0000_0000_0000_0000. -/
def CNT_UCTL_F : RegDef := ⟨149, 0x3c0000, [], 0x0, false, [CNT_UCTL_FREEZE]⟩
/-- CNT_USTATUS_F: spec 18_counters_probes.md, section 'CNT_UCTL, CNT_USTATUS, CNT_USELn, CNT_UPAIRm', reset
0x0000_0000_0000_0000. -/
def CNT_USTATUS_F : RegDef := ⟨150, 0x3c0008, [], 0x0, false, [CNT_USTATUS_OVF]⟩
/-- CNT_USEL_F: spec 18_counters_probes.md, section 'CNT_UCTL, CNT_USTATUS, CNT_USELn, CNT_UPAIRm', reset
0x0000_0000_0000_0000. -/
def CNT_USEL_F : RegDef := ⟨151, 0x3c0040, [(0x8, 4)], 0x0, false, [CNT_USEL_EVENT, CNT_USEL_WALLED]⟩
/-- CNT_UPAIR_F: spec 18_counters_probes.md, section 'CNT_UCTL, CNT_USTATUS, CNT_USELn, CNT_UPAIRm', reset
0x0000_0000_0000_0000. -/
def CNT_UPAIR_F : RegDef := ⟨152, 0x3c0100, [(0x8, 2)], 0x0, false, [CNT_UPAIR_EVEN, CNT_UPAIR_ODD]⟩
/-- CNT_UCTL_K: spec 18_counters_probes.md, section 'CNT_UCTL, CNT_USTATUS, CNT_USELn, CNT_UPAIRm', reset
0x0000_0000_0000_0000. -/
def CNT_UCTL_K : RegDef := ⟨153, 0x3c0000, [], 0x0, false, [CNT_UCTL_FREEZE]⟩
/-- CNT_USTATUS_K: spec 18_counters_probes.md, section 'CNT_UCTL, CNT_USTATUS, CNT_USELn, CNT_UPAIRm', reset
0x0000_0000_0000_0000. -/
def CNT_USTATUS_K : RegDef := ⟨154, 0x3c0008, [], 0x0, false, [CNT_USTATUS_OVF]⟩
/-- CNT_USEL_K: spec 18_counters_probes.md, section 'CNT_UCTL, CNT_USTATUS, CNT_USELn, CNT_UPAIRm', reset
0x0000_0000_0000_0000. -/
def CNT_USEL_K : RegDef := ⟨155, 0x3c0040, [(0x8, 8)], 0x0, false, [CNT_USEL_EVENT, CNT_USEL_WALLED]⟩
/-- CNT_UPAIR_K: spec 18_counters_probes.md, section 'CNT_UCTL, CNT_USTATUS, CNT_USELn, CNT_UPAIRm', reset
0x0000_0000_0000_0000. -/
def CNT_UPAIR_K : RegDef := ⟨156, 0x3c0100, [(0x8, 4)], 0x0, false, [CNT_UPAIR_EVEN, CNT_UPAIR_ODD]⟩
/-- CNT_UCTL_I: spec 18_counters_probes.md, section 'CNT_UCTL, CNT_USTATUS, CNT_USELn, CNT_UPAIRm', reset
0x0000_0000_0000_0000. -/
def CNT_UCTL_I : RegDef := ⟨157, 0x3c0000, [], 0x0, false, [CNT_UCTL_FREEZE]⟩
/-- CNT_USTATUS_I: spec 18_counters_probes.md, section 'CNT_UCTL, CNT_USTATUS, CNT_USELn, CNT_UPAIRm', reset
0x0000_0000_0000_0000. -/
def CNT_USTATUS_I : RegDef := ⟨158, 0x3c0008, [], 0x0, false, [CNT_USTATUS_OVF]⟩
/-- CNT_USEL_I: spec 18_counters_probes.md, section 'CNT_UCTL, CNT_USTATUS, CNT_USELn, CNT_UPAIRm', reset
0x0000_0000_0000_0000. -/
def CNT_USEL_I : RegDef := ⟨159, 0x3c0040, [(0x8, 8)], 0x0, false, [CNT_USEL_EVENT, CNT_USEL_WALLED]⟩
/-- CNT_UPAIR_I: spec 18_counters_probes.md, section 'CNT_UCTL, CNT_USTATUS, CNT_USELn, CNT_UPAIRm', reset
0x0000_0000_0000_0000. -/
def CNT_UPAIR_I : RegDef := ⟨160, 0x3c0100, [(0x8, 4)], 0x0, false, [CNT_UPAIR_EVEN, CNT_UPAIR_ODD]⟩
/-- CNT_PRB_CTL: spec 18_counters_probes.md, section 'CNT_PRBn_CTL, CNT_PRBn_MATCH, CNT_PRBn_CNT, CNT_TRC_CTL,
CNT_TRCe', reset 0x0000_0000_0000_0000. -/
def CNT_PRB_CTL : RegDef := ⟨161, 0x380000, [(0x40, 2)], 0x0, false, [CNT_PRB_CTL_EN, CNT_PRB_CTL_TRACE,
    CNT_PRB_CTL_HEADS, CNT_PRB_CTL_PORTS, CNT_PRB_CTL_VCMASK, CNT_PRB_CTL_WALLED]⟩
/-- CNT_PRB_MATCH: spec 18_counters_probes.md, section 'CNT_PRBn_CTL, CNT_PRBn_MATCH, CNT_PRBn_CNT, CNT_TRC_CTL,
CNT_TRCe', reset 0x0000_0000_0000_0000. -/
def CNT_PRB_MATCH : RegDef := ⟨162, 0x380008, [(0x40, 2)], 0x0, false, [CNT_PRB_MATCH_VALUE, CNT_PRB_MATCH_MASK]⟩
/-- CNT_PRB_CNT: spec 18_counters_probes.md, section 'CNT_PRBn_CTL, CNT_PRBn_MATCH, CNT_PRBn_CNT, CNT_TRC_CTL,
CNT_TRCe', reset 0x0000_0000_0000_0000. -/
def CNT_PRB_CNT : RegDef := ⟨163, 0x380010, [(0x40, 2)], 0x0, false, [CNT_PRB_CNT_COUNT]⟩
/-- CNT_TRC_CTL: spec 18_counters_probes.md, section 'CNT_PRBn_CTL, CNT_PRBn_MATCH, CNT_PRBn_CNT, CNT_TRC_CTL,
CNT_TRCe', reset 0x0000_0000_0000_0000. -/
def CNT_TRC_CTL : RegDef := ⟨164, 0x380080, [], 0x0, false, [CNT_TRC_CTL_WRAP, CNT_TRC_CTL_CLEAR, CNT_TRC_CTL_FULL,
    CNT_TRC_CTL_PTR, CNT_TRC_CTL_DROPS]⟩
/-- CNT_TRC: spec 18_counters_probes.md, section 'CNT_PRBn_CTL, CNT_PRBn_MATCH, CNT_PRBn_CNT, CNT_TRC_CTL,
CNT_TRCe', reset 0x0000_0000_0000_0000. -/
def CNT_TRC : RegDef := ⟨165, 0x381000, [(0x8, 512)], 0x0, false, [CNT_TRC_ENTRY]⟩
/-- CNT_PRB_CTL_I: spec 18_counters_probes.md, section 'CNT_PRBn_CTL, CNT_PRBn_MATCH, CNT_PRBn_CNT, CNT_TRC_CTL,
CNT_TRCe', reset 0x0000_0000_0000_0000. -/
def CNT_PRB_CTL_I : RegDef := ⟨166, 0x380000, [(0x2000, 16), (0x40, 2)], 0x0, false, [CNT_PRB_CTL_EN,
    CNT_PRB_CTL_TRACE, CNT_PRB_CTL_HEADS, CNT_PRB_CTL_PORTS, CNT_PRB_CTL_VCMASK, CNT_PRB_CTL_WALLED]⟩
/-- CNT_PRB_MATCH_I: spec 18_counters_probes.md, section 'CNT_PRBn_CTL, CNT_PRBn_MATCH, CNT_PRBn_CNT, CNT_TRC_CTL,
CNT_TRCe', reset 0x0000_0000_0000_0000. -/
def CNT_PRB_MATCH_I : RegDef := ⟨167, 0x380008, [(0x2000, 16), (0x40, 2)], 0x0, false, [CNT_PRB_MATCH_VALUE,
    CNT_PRB_MATCH_MASK]⟩
/-- CNT_PRB_CNT_I: spec 18_counters_probes.md, section 'CNT_PRBn_CTL, CNT_PRBn_MATCH, CNT_PRBn_CNT, CNT_TRC_CTL,
CNT_TRCe', reset 0x0000_0000_0000_0000. -/
def CNT_PRB_CNT_I : RegDef := ⟨168, 0x380010, [(0x2000, 16), (0x40, 2)], 0x0, false, [CNT_PRB_CNT_COUNT]⟩
/-- CNT_TRC_CTL_I: spec 18_counters_probes.md, section 'CNT_PRBn_CTL, CNT_PRBn_MATCH, CNT_PRBn_CNT, CNT_TRC_CTL,
CNT_TRCe', reset 0x0000_0000_0000_0000. -/
def CNT_TRC_CTL_I : RegDef := ⟨169, 0x380080, [(0x2000, 16)], 0x0, false, [CNT_TRC_CTL_WRAP, CNT_TRC_CTL_CLEAR,
    CNT_TRC_CTL_FULL, CNT_TRC_CTL_PTR, CNT_TRC_CTL_DROPS]⟩
/-- CNT_TRC_I: spec 18_counters_probes.md, section 'CNT_PRBn_CTL, CNT_PRBn_MATCH, CNT_PRBn_CNT, CNT_TRC_CTL,
CNT_TRCe', reset 0x0000_0000_0000_0000. -/
def CNT_TRC_I : RegDef := ⟨170, 0x381000, [(0x2000, 16), (0x8, 512)], 0x0, false, [CNT_TRC_ENTRY]⟩
/-- CNT_RND_CTL: spec 18_counters_probes.md, section 'CNT_RND_CTL, CNT_RND_START, CNT_RND_BASE, CNT_RND_STATUS',
reset 0x0000_0000_0000_0000. -/
def CNT_RND_CTL : RegDef := ⟨171, 0x1000, [], 0x0, false, [CNT_RND_CTL_EN, CNT_RND_CTL_SYNC, CNT_RND_CTL_LOG2B,
    CNT_RND_CTL_PERIOD_US]⟩
/-- CNT_RND_START: spec 18_counters_probes.md, section 'CNT_RND_CTL, CNT_RND_START, CNT_RND_BASE, CNT_RND_STATUS',
reset 0x0000_0000_0000_0000. -/
def CNT_RND_START : RegDef := ⟨172, 0x1008, [], 0x0, false, [CNT_RND_START_START]⟩
/-- CNT_RND_BASE: spec 18_counters_probes.md, section 'CNT_RND_CTL, CNT_RND_START, CNT_RND_BASE, CNT_RND_STATUS',
reset 0x0000_0000_0000_0000. -/
def CNT_RND_BASE : RegDef := ⟨173, 0x1010, [], 0x0, false, [CNT_RND_BASE_BASE]⟩
/-- CNT_RND_STATUS: spec 18_counters_probes.md, section 'CNT_RND_CTL, CNT_RND_START, CNT_RND_BASE, CNT_RND_STATUS',
reset 0x0000_0000_0000_0000. -/
def CNT_RND_STATUS : RegDef := ⟨174, 0x1018, [], 0x0, false, [CNT_RND_STATUS_LAST_SEQ, CNT_RND_STATUS_MISSED,
    CNT_RND_STATUS_VALID, CNT_RND_STATUS_REFUSED]⟩
/-- CNT_ISEL: spec 18_counters_probes.md, section 'CNT_ISELn, CNT_IREQn, CNT_IBYTESn, CNT_ILATSUMn, CNT_ILATMAXn',
reset 0x0000_0000_0000_0000. -/
def CNT_ISEL : RegDef := ⟨175, 0x2000, [(0x40, 16)], 0x0, false, [CNT_ISEL_EN, CNT_ISEL_KIND, CNT_ISEL_IOD,
    CNT_ISEL_NUM, CNT_ISEL_WALLED]⟩
/-- CNT_IREQ: spec 18_counters_probes.md, section 'CNT_ISELn, CNT_IREQn, CNT_IBYTESn, CNT_ILATSUMn, CNT_ILATMAXn',
reset 0x0000_0000_0000_0000. -/
def CNT_IREQ : RegDef := ⟨176, 0x2008, [(0x40, 16)], 0x0, false, [CNT_IREQ_READS, CNT_IREQ_WRITES]⟩
/-- CNT_IBYTES: spec 18_counters_probes.md, section 'CNT_ISELn, CNT_IREQn, CNT_IBYTESn, CNT_ILATSUMn, CNT_ILATMAXn',
reset 0x0000_0000_0000_0000. -/
def CNT_IBYTES : RegDef := ⟨177, 0x2010, [(0x40, 16)], 0x0, false, [CNT_IBYTES_RBYTES, CNT_IBYTES_WBYTES]⟩
/-- CNT_ILATSUM: spec 18_counters_probes.md, section 'CNT_ISELn, CNT_IREQn, CNT_IBYTESn, CNT_ILATSUMn,
CNT_ILATMAXn', reset 0x0000_0000_0000_0000. -/
def CNT_ILATSUM : RegDef := ⟨178, 0x2018, [(0x40, 16)], 0x0, false, [CNT_ILATSUM_LATSUM]⟩
/-- CNT_ILATMAX: spec 18_counters_probes.md, section 'CNT_ISELn, CNT_IREQn, CNT_IBYTESn, CNT_ILATSUMn,
CNT_ILATMAXn', reset 0x0000_0000_0000_0000. -/
def CNT_ILATMAX : RegDef := ⟨179, 0x2020, [(0x40, 16)], 0x0, false, [CNT_ILATMAX_LATMAX]⟩
/-- GH_STATUS: spec 19_boot_selftest.md, section 'GH_STATUS', reset Per fuses and mode. -/
def GH_STATUS : RegDef := ⟨180, 0x1000, [], 0x0, false, [GH_STATUS_MODE, GH_STATUS_FAULT, GH_STATUS_REFUSED,
    GH_STATUS_RREASON, GH_STATUS_AUTH_OK, GH_STATUS_PART, GH_STATUS_DEBUG, GH_STATUS_AUTO_ON, GH_STATUS_COPY,
    GH_STATUS_BUSY, GH_STATUS_SVN, GH_STATUS_SOCKET]⟩
/-- GH_CMD: spec 19_boot_selftest.md, section 'GH_CMD', reset 0x0000_0000_0000_0000. -/
def GH_CMD : RegDef := ⟨181, 0x1008, [], 0x0, false, [GH_CMD_CODE]⟩
/-- GH_FAULT: spec 19_boot_selftest.md, section 'GH_FAULT', reset 0x0000_0000_0000_0000; kept through warm reset. -/
def GH_FAULT : RegDef := ⟨182, 0x1010, [], 0x0, false, [GH_FAULT_REASON, GH_FAULT_AUTH_A, GH_FAULT_AUTH_B,
    GH_FAULT_NODE, GH_FAULT_DIE, GH_FAULT_VALID]⟩
/-- GH_BIST: spec 19_boot_selftest.md, section 'GH_BIST', reset 0x0000_0000_0000_0000. -/
def GH_BIST : RegDef := ⟨183, 0x1018, [], 0x0, false, [GH_BIST_RUN, GH_BIST_REJECTED, GH_BIST_QUARANTINED,
    GH_BIST_DONE, GH_BIST_PASS]⟩
/-- GH_TILE_LSB: spec 19_boot_selftest.md, section 'GH_TILE_LSB0–3, GH_TILE_FATAL0–3', reset LSB and FATAL kept
through warm reset; both 0 after cold reset. -/
def GH_TILE_LSB : RegDef := ⟨184, 0x1100, [(0x8, 4)], 0x0, false, [GH_TILE_LSB_LSB]⟩
/-- GH_TILE_FATAL: spec 19_boot_selftest.md, section 'GH_TILE_LSB0–3, GH_TILE_FATAL0–3', reset LSB and FATAL kept
through warm reset; both 0 after cold reset. -/
def GH_TILE_FATAL : RegDef := ⟨185, 0x1120, [(0x8, 4)], 0x0, false, [GH_TILE_FATAL_FATAL]⟩
/-- GH_MEAS: spec 19_boot_selftest.md, section 'GH_MEASs_w, GH_MEXT_Dw, GH_MEXT_CTL', reset 0 at M2. -/
def GH_MEAS : RegDef := ⟨186, 0x2000, [(0x40, 16), (0x8, 6)], 0x0, false, [GH_MEAS_VALUE]⟩
/-- GH_MEXT_D: spec 19_boot_selftest.md, section 'GH_MEASs_w, GH_MEXT_Dw, GH_MEXT_CTL', reset 0 at M2. -/
def GH_MEXT_D : RegDef := ⟨187, 0x2400, [(0x8, 6)], 0x0, false, [GH_MEXT_D_DIGEST]⟩
/-- GH_MEXT_CTL: spec 19_boot_selftest.md, section 'GH_MEASs_w, GH_MEXT_Dw, GH_MEXT_CTL', reset 0 at M2. -/
def GH_MEXT_CTL : RegDef := ⟨188, 0x2430, [], 0x0, false, [GH_MEXT_CTL_SLOT, GH_MEXT_CTL_GO]⟩
/-- GH_GPIO_DIR: spec 19_boot_selftest.md, section 'GH_GPIO_DIR, GH_GPIO_OUT, GH_GPIO_IN, GH_GPIO_EDGE, GH_GPIO_Q',
reset 0x0000_0000_0000_0000. -/
def GH_GPIO_DIR : RegDef := ⟨189, 0x3000, [], 0x0, false, [GH_GPIO_DIR_OUT_EN]⟩
/-- GH_GPIO_OUT: spec 19_boot_selftest.md, section 'GH_GPIO_DIR, GH_GPIO_OUT, GH_GPIO_IN, GH_GPIO_EDGE, GH_GPIO_Q',
reset 0x0000_0000_0000_0000. -/
def GH_GPIO_OUT : RegDef := ⟨190, 0x3008, [], 0x0, false, [GH_GPIO_OUT_LEVEL]⟩
/-- GH_GPIO_IN: spec 19_boot_selftest.md, section 'GH_GPIO_DIR, GH_GPIO_OUT, GH_GPIO_IN, GH_GPIO_EDGE, GH_GPIO_Q',
reset 0x0000_0000_0000_0000. -/
def GH_GPIO_IN : RegDef := ⟨191, 0x3010, [], 0x0, false, [GH_GPIO_IN_LEVEL]⟩
/-- GH_GPIO_EDGE: spec 19_boot_selftest.md, section 'GH_GPIO_DIR, GH_GPIO_OUT, GH_GPIO_IN, GH_GPIO_EDGE, GH_GPIO_Q',
reset 0x0000_0000_0000_0000. -/
def GH_GPIO_EDGE : RegDef := ⟨192, 0x3018, [], 0x0, false, [GH_GPIO_EDGE_RISE, GH_GPIO_EDGE_FALL]⟩
/-- GH_GPIO_Q: spec 19_boot_selftest.md, section 'GH_GPIO_DIR, GH_GPIO_OUT, GH_GPIO_IN, GH_GPIO_EDGE, GH_GPIO_Q',
reset 0x0000_0000_0000_0000. -/
def GH_GPIO_Q : RegDef := ⟨193, 0x3020, [], 0x0, false, [GH_GPIO_Q_QUEUE, GH_GPIO_Q_EN, GH_GPIO_Q_DROPS]⟩
/-- GH_FLASH_STATUS: spec 19_boot_selftest.md, section 'GH_FLASH_STATUS', reset Per flash. -/
def GH_FLASH_STATUS : RegDef := ⟨194, 0x1000, [], 0x0, false, [GH_FLASH_STATUS_A_VALID, GH_FLASH_STATUS_B_VALID,
    GH_FLASH_STATUS_A_SVN, GH_FLASH_STATUS_B_SVN, GH_FLASH_STATUS_CE]⟩
/-- ERB_STATUS: spec 20_errors_ras_life.md, section 'ERB_STATUS', reset 0x0000_0000_0000_0000. -/
def ERB_STATUS : RegDef := ⟨195, 0x3f0000, [], 0x0, false, [ERB_STATUS_VALID, ERB_STATUS_LOST]⟩
/-- ERB_THRESH: spec 20_errors_ras_life.md, section 'ERB_THRESH', reset 0x0000_0000_0000_0010. -/
def ERB_THRESH : RegDef := ⟨196, 0x3f0008, [], 0x10, false, [ERB_THRESH_CE]⟩
/-- ERB_CE: spec 20_errors_ras_life.md, section 'ERB_CE', reset 0x0000_0000_0000_0000. -/
def ERB_CE : RegDef := ⟨197, 0x3f0010, [], 0x0, false, [ERB_CE_CE, ERB_CE_WSTART]⟩
/-- ERB_REC0: spec 20_errors_ras_life.md, section 'ERB_RECn_0 to ERB_RECn_3', reset 0x0000_0000_0000_0000; kept
under R586. -/
def ERB_REC0 : RegDef := ⟨198, 0x3f0100, [(0x20, 8)], 0x0, false, [ERB_REC0_CLASS, ERB_REC0_INJ, ERB_REC0_WORLD,
    ERB_REC0_POISON, ERB_REC0_KIND, ERB_REC0_COUNT, ERB_REC0_UNIT, ERB_REC0_NODE, ERB_REC0_VALID]⟩
/-- ERB_REC1: spec 20_errors_ras_life.md, section 'ERB_RECn_0 to ERB_RECn_3', reset 0x0000_0000_0000_0000; kept
under R586. -/
def ERB_REC1 : RegDef := ⟨199, 0x3f0108, [(0x20, 8)], 0x0, false, [ERB_REC1_ADDR]⟩
/-- ERB_REC2: spec 20_errors_ras_life.md, section 'ERB_RECn_0 to ERB_RECn_3', reset 0x0000_0000_0000_0000; kept
under R586. -/
def ERB_REC2 : RegDef := ⟨200, 0x3f0110, [(0x20, 8)], 0x0, false, [ERB_REC2_MISC]⟩
/-- ERB_REC3: spec 20_errors_ras_life.md, section 'ERB_RECn_0 to ERB_RECn_3', reset 0x0000_0000_0000_0000; kept
under R586. -/
def ERB_REC3 : RegDef := ⟨201, 0x3f0118, [(0x20, 8)], 0x0, false, [ERB_REC3_TIME]⟩
/-- ERB_INJ_CTL: spec 20_errors_ras_life.md, section 'ERB_INJ_CTL', reset 0x0000_0000_0000_0000. -/
def ERB_INJ_CTL : RegDef := ⟨202, 0x3f0200, [], 0x0, false, [ERB_INJ_CTL_TARGET, ERB_INJ_CTL_ACTION,
    ERB_INJ_CTL_COUNT]⟩
/-- ERB_INJ_PARAM: spec 20_errors_ras_life.md, section 'ERB_INJ_PARAM', reset 0x0000_0001_0100_0000. -/
def ERB_INJ_PARAM : RegDef := ⟨203, 0x3f0210, [], 0x101000000, false, [ERB_INJ_PARAM_BIT, ERB_INJ_PARAM_PORT,
    ERB_INJ_PARAM_VC, ERB_INJ_PARAM_DEV, ERB_INJ_PARAM_SYMBOLS, ERB_INJ_PARAM_CYCLES, ERB_INJ_PARAM_AGENT]⟩
/-- ERB_INJ_STATUS: spec 20_errors_ras_life.md, section 'ERB_INJ_STATUS', reset 0x0000_0000_0000_0000. -/
def ERB_INJ_STATUS : RegDef := ⟨204, 0x3f0218, [], 0x0, false, [ERB_INJ_STATUS_REMAIN, ERB_INJ_STATUS_ARMED,
    ERB_INJ_STATUS_REFUSED, ERB_INJ_STATUS_SKIPPED, ERB_INJ_STATUS_DONE]⟩
/-- ERB_ROUTE: spec 20_errors_ras_life.md, section 'ERB_ROUTE', reset 0x0000_001E_0002_0000. -/
def ERB_ROUTE : RegDef := ⟨205, 0x3f1000, [], 0x1e00020000, false, [ERB_ROUTE_PRIMARY, ERB_ROUTE_ALT, ERB_ROUTE_MASK]⟩
/-- ERB_INJ_GLOBAL: spec 20_errors_ras_life.md, section 'ERB_INJ_GLOBAL', reset 0x0000_0000_0000_0000. -/
def ERB_INJ_GLOBAL : RegDef := ⟨206, 0x3f1008, [], 0x0, false, [ERB_INJ_GLOBAL_EN]⟩
/-- GK_AGE_CTL: spec 20_errors_ras_life.md, section 'GK_AGE_CTL', reset 0x0000_0000_003C_0100. -/
def GK_AGE_CTL : RegDef := ⟨207, 0x2000, [], 0x3c0100, false, [GK_AGE_CTL_EN, GK_AGE_CTL_PERIOD_MIN]⟩
/-- GK_WEAR_CTL: spec 20_errors_ras_life.md, section 'GK_WEAR_CTL', reset 0x0000_0000_0001_01C2. -/
def GK_WEAR_CTL : RegDef := ⟨208, 0x2008, [], 0x101c2, false, [GK_WEAR_CTL_RATE, GK_WEAR_CTL_EN]⟩
/-- GK_LIFE_STATUS: spec 20_errors_ras_life.md, section 'GK_LIFE_STATUS', reset From the record at M2. -/
def GK_LIFE_STATUS : RegDef := ⟨209, 0x2010, [], 0x0, false, [GK_LIFE_STATUS_SEQ, GK_LIFE_STATUS_COPY,
    GK_LIFE_STATUS_FAIL, GK_LIFE_STATUS_LOST, GK_LIFE_STATUS_POH]⟩
/-- GK_RETIRE_CMD: spec 20_errors_ras_life.md, section 'GK_RETIRE_CMD', reset 0x0000_0000_0000_0000. -/
def GK_RETIRE_CMD : RegDef := ⟨210, 0x2018, [], 0x0, false, [GK_RETIRE_CMD_TILE, GK_RETIRE_CMD_GO,
    GK_RETIRE_CMD_EXTEST]⟩
/-- GK_RETIRE_STATUS: spec 20_errors_ras_life.md, section 'GK_RETIRE_STATUS', reset 0x0000_0000_0000_0000. -/
def GK_RETIRE_STATUS : RegDef := ⟨211, 0x2020, [], 0x0, false, [GK_RETIRE_STATUS_DONE, GK_RETIRE_STATUS_RESULT,
    GK_RETIRE_STATUS_TRIED, GK_RETIRE_STATUS_CD, GK_RETIRE_STATUS_X, GK_RETIRE_STATUS_Y]⟩
/-- GK_TILE: spec 20_errors_ras_life.md, section 'GK_TILEt', reset From the lifetime record. -/
def GK_TILE : RegDef := ⟨212, 0x2100, [(0x8, 128)], 0x0, false, [GK_TILE_SLOW, GK_TILE_GB0, GK_TILE_GB1,
    GK_TILE_GB2, GK_TILE_AGE_LIMIT, GK_TILE_PROPOSE, GK_TILE_QUIET, GK_TILE_RECOV]⟩
/-- GK_WEAR: spec 20_errors_ras_life.md, section 'GK_WEARt', reset From the lifetime record. -/
def GK_WEAR : RegDef := ⟨213, 0x2500, [(0x8, 128)], 0x0, false, [GK_WEAR_BALANCE, GK_WEAR_CAPPED, GK_WEAR_HOT_HOURS]⟩

/-- The registers a node of a kind implements. `first` holds for the one node of the kind that carries the registers
named
for it alone: unit 0x040 of a compute die, the fabric node of IOD0, link node 0x018, the Groundskeeper of IOD0. -/
def nodeRegs (c : NodeCls) (first : Bool) : List RegDef :=
  match c with
  | .tile => [TRL_NODE_ID, TRL_NODE_CTL, TRL_NODE_STATUS, ARB_STATUS, ARB_MISMATCH, ARB_LAST_PC, ARB_LAST_TIME,
    ARB_RB_STATUS, L2_CTL, L2_STATUS, L2_WAY_DIS, L2_LFSR, L2_WAYERR, KSK_CTL, KSK_STATUS, KSK_DOORBELL, KSK_CTX,
    KSK_CTX_FAULT, KSK_TWIN, ERB_STATUS, ERB_THRESH, ERB_CE, ERB_REC0, ERB_REC1, ERB_REC2, ERB_REC3, ERB_INJ_CTL,
    ERB_INJ_PARAM, ERB_INJ_STATUS]
  | .llc => [TRL_NODE_ID, TRL_NODE_CTL, TRL_NODE_STATUS, LLC_CTL, LLC_STATUS, LLC_WAY_DIS, LLC_LFSR, LLC_VB_STATUS,
    LLC_WALLED_WAYS, LLC_WAYERR, MESH_STATUS, MESH_ERRCNT, MESH_ERRLOG, MESH_TSLOT, CNT_UCTL_L, CNT_USTATUS_L,
    CNT_USEL_L, CNT_UPAIR_L, CNT_PRB_CTL, CNT_PRB_MATCH, CNT_PRB_CNT, CNT_TRC_CTL, CNT_TRC, ERB_STATUS, ERB_THRESH,
    ERB_CE, ERB_REC0, ERB_REC1, ERB_REC2, ERB_REC3, ERB_INJ_CTL, ERB_INJ_PARAM, ERB_INJ_STATUS]
  | .bridge => [TRL_NODE_ID, TRL_NODE_CTL, TRL_NODE_STATUS, MESH_STATUS_B, MESH_ERRCNT_B, MESH_ERRLOG_B,
    MESH_TSLOT_B, CNT_PRB_CTL, CNT_PRB_MATCH, CNT_PRB_CNT, CNT_TRC_CTL, CNT_TRC, ERB_STATUS, ERB_THRESH, ERB_CE,
    ERB_REC0, ERB_REC1, ERB_REC2, ERB_REC3, ERB_INJ_CTL, ERB_INJ_PARAM, ERB_INJ_STATUS] ++ (if first then
    [MESH_ROUTE, MESH_TILEMAP, MESH_DIE_STATUS] else [])
  | .cdPower => [TRL_NODE_ID, TRL_NODE_CTL, TRL_NODE_STATUS, PWR_DOM_CTL, PWR_DOM_VOTE, PWR_DOM_STATUS,
    PWR_TILE_PERF, CLK_CD, ERB_STATUS, ERB_THRESH, ERB_CE, ERB_REC0, ERB_REC1, ERB_REC2, ERB_REC3]
  | .chan => [TRL_NODE_ID, TRL_NODE_CTL, TRL_NODE_STATUS, MEM_CTL, MEM_CFG, MEM_STATUS, MEM_MARK, MEM_THRESH,
    MEM_ERRCNT, MEM_ERRLOG, MEM_VG_STATUS, MEM_RANGE, CNT_UCTL_M, CNT_USTATUS_M, CNT_USEL_M, CNT_UPAIR_M,
    ERB_STATUS, ERB_THRESH, ERB_CE, ERB_REC0, ERB_REC1, ERB_REC2, ERB_REC3, ERB_INJ_CTL, ERB_INJ_PARAM,
    ERB_INJ_STATUS]
  | .port => [TRL_NODE_ID, TRL_NODE_CTL, TRL_NODE_STATUS, CNT_UCTL_P, CNT_USTATUS_P, CNT_USEL_P, CNT_UPAIR_P,
    ERB_STATUS, ERB_THRESH, ERB_CE, ERB_REC0, ERB_REC1, ERB_REC2, ERB_REC3]
  | .fb => [TRL_NODE_ID, TRL_NODE_CTL, TRL_NODE_STATUS, FB_STATUS, CNT_UCTL_F, CNT_USTATUS_F, CNT_USEL_F,
    CNT_UPAIR_F, ERB_STATUS, ERB_THRESH, ERB_CE, ERB_REC0, ERB_REC1, ERB_REC2, ERB_REC3] ++ (if first then
    [FB_ROUTE, FB_SRANGE] else [])
  | .cluster => [TRL_NODE_ID, TRL_NODE_CTL, TRL_NODE_STATUS, KSK_CTL_H, KSK_STATUS_H, KSK_DOORBELL_H, KSK_CTX_H,
    KSK_CTX_FAULT_H, KSK_CL_CTL, KSK_CL_STATUS, CNT_UCTL_K, CNT_USTATUS_K, CNT_USEL_K, CNT_UPAIR_K, ERB_STATUS,
    ERB_THRESH, ERB_CE, ERB_REC0, ERB_REC1, ERB_REC2, ERB_REC3]
  | .urn => [TRL_NODE_ID, TRL_NODE_CTL, TRL_NODE_STATUS, URN_CTL, URN_STATUS, URN_CADDY, URN_DROPS, URN_QCFG,
    URN_QBASE, URN_QPTR, URN_QSTAT, CNT_UCTL_U, CNT_USTATUS_U, CNT_USEL_U, CNT_UPAIR_U, ERB_STATUS, ERB_THRESH,
    ERB_CE, ERB_REC0, ERB_REC1, ERB_REC2, ERB_REC3]
  | .tsv => [TRL_NODE_ID, TRL_NODE_CTL, TRL_NODE_STATUS, TSV_REQ0, TSV_REQ1, TSV_CMD, TSV_STATUS, TSV_CCFG,
    TSV_CLIM, TSV_CCNT, ERB_STATUS, ERB_THRESH, ERB_CE, ERB_REC0, ERB_REC1, ERB_REC2, ERB_REC3]
  | .home => [TRL_NODE_ID, TRL_NODE_CTL, TRL_NODE_STATUS, HOME_TIMEOUT, HOME_STATUS, HOME_DEAD, HOME_TO_LOG,
    HOME_SF_STATUS, HOME_CQ_STATUS, HOME_LFSR, CNT_UCTL_H, CNT_USTATUS_H, CNT_USEL_H, CNT_UPAIR_H, ERB_STATUS,
    ERB_THRESH, ERB_CE, ERB_REC0, ERB_REC1, ERB_REC2, ERB_REC3, ERB_INJ_CTL, ERB_INJ_PARAM, ERB_INJ_STATUS]
  | .iommu => [TRL_NODE_ID, TRL_NODE_CTL, TRL_NODE_STATUS, IOM_CTL, IOM_STATUS, IOM_DTBASE, IOM_APERTURE,
    IOM_CXLWIN, IOM_INV, IOM_INV_ADDR, IOM_PWIN_CTL, IOM_PWIN_BASE, IOM_PWIN_LIM, IOM_PWIN_SRC, ERB_STATUS,
    ERB_THRESH, ERB_CE, ERB_REC0, ERB_REC1, ERB_REC2, ERB_REC3]
  | .gk => [TRL_NODE_ID, TRL_NODE_CTL, TRL_NODE_STATUS, GK_SCRUB_CTL, GK_SCRUB_STATUS, GK_INIT_STATUS, GK_CAL_CTL,
    ERB_STATUS, ERB_THRESH, ERB_CE, ERB_REC0, ERB_REC1, ERB_REC2, ERB_REC3, GK_AGE_CTL, GK_WEAR_CTL, GK_LIFE_STATUS,
    GK_TILE, GK_WEAR] ++ (if first then [GK_RETIRE_CMD, GK_RETIRE_STATUS] else [])
  | .iodMesh => [TRL_NODE_ID, TRL_NODE_CTL, TRL_NODE_STATUS, MESH_STATUS_I, MESH_ERRCNT_I, MESH_ERRLOG_I,
    MESH_TSLOT_I, CNT_UCTL_I, CNT_USTATUS_I, CNT_USEL_I, CNT_UPAIR_I, CNT_PRB_CTL_I, CNT_PRB_MATCH_I, CNT_PRB_CNT_I,
    CNT_TRC_CTL_I, CNT_TRC_I, ERB_STATUS, ERB_THRESH, ERB_CE, ERB_REC0, ERB_REC1, ERB_REC2, ERB_REC3, ERB_INJ_CTL,
    ERB_INJ_PARAM, ERB_INJ_STATUS] ++ (if first then [MESH_FLIP_CTL, MESH_FLIP_STATUS] else [])
  | .iodPower => [TRL_NODE_ID, TRL_NODE_CTL, TRL_NODE_STATUS, PWR_DOM_CTL_I, PWR_DOM_VOTE_I, PWR_DOM_STATUS_I,
    CLK_IOD, CLK_REFOUT, ERB_STATUS, ERB_THRESH, ERB_CE, ERB_REC0, ERB_REC1, ERB_REC2, ERB_REC3]
  | .flash => [TRL_NODE_ID, TRL_NODE_CTL, TRL_NODE_STATUS, GH_FLASH_STATUS, ERB_STATUS, ERB_THRESH, ERB_CE,
    ERB_REC0, ERB_REC1, ERB_REC2, ERB_REC3]
  | .regul => [TRL_NODE_ID, TRL_NODE_CTL, TRL_NODE_STATUS, PWR_VIN_CTL, ERB_STATUS, ERB_THRESH, ERB_CE, ERB_REC0,
    ERB_REC1, ERB_REC2, ERB_REC3]
  | .root => [TRL_NODE_ID, TRL_NODE_CTL, TRL_NODE_STATUS, TRL_BUSERR_INFO, TRL_BUSERR_ADDR, ERB_STATUS, ERB_THRESH,
    ERB_CE, ERB_REC0, ERB_REC1, ERB_REC2, ERB_REC3, ERB_ROUTE, ERB_INJ_GLOBAL]
  | .gh => [TRL_NODE_ID, TRL_NODE_CTL, TRL_NODE_STATUS, GH_STATUS, GH_CMD, GH_FAULT, GH_BIST, GH_TILE_LSB,
    GH_TILE_FATAL, GH_MEAS, GH_MEXT_D, GH_MEXT_CTL, GH_GPIO_DIR, GH_GPIO_OUT, GH_GPIO_IN, GH_GPIO_EDGE, GH_GPIO_Q,
    ERB_STATUS, ERB_THRESH, ERB_CE, ERB_REC0, ERB_REC1, ERB_REC2, ERB_REC3]
  | .ww => [TRL_NODE_ID, TRL_NODE_CTL, TRL_NODE_STATUS, WW_CTL, WW_STATUS, WW_VIOL, WW_WDOG_CTL, WW_WDOG_KICK,
    WW_WDOG_STATUS, WW_GPIO_WORLD, WW_RANGE, ERB_STATUS, ERB_THRESH, ERB_CE, ERB_REC0, ERB_REC1, ERB_REC2, ERB_REC3]
  | .tb => [TRL_NODE_ID, TRL_NODE_CTL, TRL_NODE_STATUS, CLK_TIMEBASE, CLK_TS_CTL, CLK_TS_STATUS, CLK_TS_OFFSET,
    ERB_STATUS, ERB_THRESH, ERB_CE, ERB_REC0, ERB_REC1, ERB_REC2, ERB_REC3]
  | .rnd => [TRL_NODE_ID, TRL_NODE_CTL, TRL_NODE_STATUS, CNT_RND_CTL, CNT_RND_START, CNT_RND_BASE, CNT_RND_STATUS,
    CNT_ISEL, CNT_IREQ, CNT_IBYTES, CNT_ILATSUM, CNT_ILATMAX, ERB_STATUS, ERB_THRESH, ERB_CE, ERB_REC0, ERB_REC1,
    ERB_REC2, ERB_REC3]
  | .pkg => [TRL_NODE_ID, TRL_NODE_CTL, TRL_NODE_STATUS, PWR_PKG_CTL, PWR_PKG_STATUS, PWR_GOV_STATUS,
    PWR_RAIL_STATUS, PWR_GOV_EXEMPT, ERB_STATUS, ERB_THRESH, ERB_CE, ERB_REC0, ERB_REC1, ERB_REC2, ERB_REC3]

end Sys2Proof.Machine
end

