-- ==== Sys2Proof/Machine/State.lean ====
section
/-! DEFINITION. The state of the PM-8512, and the state after reset. -/
set_option autoImplicit false
namespace Sys2Proof.Machine

/-- The operating modes of Table 1-4. -/
inductive Mode where
  | m0 | m1 | m2 | m3 | m4 | m5 | m6 | m7 | m8 | m9 | m10 | m11
  deriving DecidableEq, Repr

/-- The two parts of Table 0-1. -/
inductive Part where
  | a1 | x1
  deriving DecidableEq, Repr

/-- Why the machine stops with a fault. -/
inductive Fault where
  /-- Raised by the meaning of a command that names a unit the part does not have (a memory channel past 15, a tile
  past 255): no such command can reach the part. Safe: nothing is claimed about it. -/
  | absent
  deriving DecidableEq, Repr

/-- Why a command is refused. -/
inductive Refusal where
  /-- Raised by the dispatch for a command that has no meaning yet. Safe: nothing is claimed about it. -/
  | notModelled (mnemonic : String)
  deriving DecidableEq, Repr

/-- The whole package. -/
structure State where
  /-- The commands that wait, first in, first out. -/
  pending : List Instr
  /-- The counter from which free values are taken: the model's own field, no state of the part. -/
  free : Nat
  part : Part
  mode : Mode
  /-- The package timebase in ns (R539). -/
  time : Nat
  /-- Control-space registers by 36-bit offset; an unlisted register holds its reset value. -/
  regs : Tbl (BitVec 64)
  cores : Tbl Core
  tiles : Tbl TileCache
  /-- The arbours by logical tile (R256, R261). -/
  arbours : Tbl Arbour
  slices : Tbl Slice
  homes : Tbl Home
  chans : Tbl Chan
  /-- Stored value bytes of DRAM by channel × 2^39 + channel line × 128 + byte; an unlisted byte is 0 (R79, R357). -/
  mem : List Host.Cell
  /-- Stored tag bytes of DRAM by channel × 2^36 + channel line × 16 + word; an unlisted tag byte is 0. -/
  memTags : List Host.Cell
  urn : Tbl UrnHalf
  /-- Answers of the Urn and state messages on their way (R161, R414). -/
  urnAns : List UrnAns
  /-- Timebase of the last timed push of each contract (R419). -/
  tsvLast : Tbl Nat
  /-- The Urn service schedules, by 128 × half + slot: the contract that owns the slot (R423). -/
  urnSched : Tbl Nat
  stateMsgs : List StateMsg
  /-- Broadcast TLBIs that have not reached their target cores, oldest first (R209, R210). -/
  tlbis : List TlbiMsg
  /-- Broadcast TLBIs that other sockets have yet to report done (R210). -/
  tlbiOuts : List TlbiOut
  /-- Coherence messages in flight, oldest first. -/
  net : List Msg
  /-- Refused requests whose senders have yet to send them again (R321). -/
  nacked : List Msg
  /-- The kiosks: 0 to 255 by logical tile, 256 to 511 hub kiosks (R428). -/
  kiosks : Tbl Kiosk
  /-- Flits sent by a stop and not yet received by the next one (R375). -/
  flits : List FlitAt
  /-- Flits that failed their check and await a replay, by 2^16 × die + 2^8 × stop + port (R379). -/
  flitFails : Tbl FlitAt
  /-- Flits of packets being assembled at their destination stops, by 2^20 × die + 2^12 × stop + 8 × port + channel. -/
  meshRx : Tbl (List Flit)
  /-- Buffers, turns and slots of the stops' ports (R375, R385, R386). -/
  ports : MeshPorts
  /-- Packets delivered to the agents of a stop, with their die and stop. -/
  delivered : List (Nat × Nat × List Flit)
  /-- Whether a flip holds injection (R391), or has flipped and waits for the old epoch's flits. -/
  flip : FlipPhase
  /-- Slot schedules of the stops that carry no die index, by 2^16 × die + 2^8 × stop + 16 × port + register. -/
  spareTslot : Tbl (BitVec 64)
  /-- The two IOMMUs' caches (R479). -/
  iommus : Tbl Iommu
  /-- PCIe, CXL and Footbridge state (15_io_root_complex.md). -/
  io : IoState
  /-- Power, level and clock state beside the PWR_ and CLK_ registers (17_power_clocks.md). -/
  pwr : PwrState
  /-- The boot configuration that the Gatehouse holds (R565, R569). -/
  bootCfg : BootCfg
  /-- What has been sent outside the package, oldest first. -/
  out : List Out
  /-- Scan index of the tile stop of each logical tile, by logical tile; an unlisted tile has its die index (R14, R15). -/
  stops : Tbl Nat
  /-- Injection of packets into the mesh stops is enabled: INJ_EN of every stop (R386, R391, R393). -/
  injEn : Bool
  /-- An event of R604 awaits the writing of the lifetime record. -/
  lifeDue : Bool
  /-- The Gatehouse (19_boot_selftest.md). -/
  boot : BootState
  /-- The life of the part (20_errors_ras_life.md). -/
  life : LifeState
  /-- Shadow copies and armed guarded pairs of the control space. -/
  ctl : CtlState
  /-- Counter rounds on their way (R551). -/
  rnd : RndState
  /-- Nanoseconds that the Walled watchdog has counted since its last start or restart, and whether it has warned since (R508). -/
  wdog : Nat
  wdogWarned : Bool
  deriving DecidableEq, Repr

/-- The package right after reset: standby power has risen, M1 (R26, R560). -/
def State.reset : State :=
  { pending := [], free := 0, part := .a1, mode := .m1, time := 0, regs := [], cores := [], tiles := [], arbours := [], slices := [], homes := [],
    chans := [], mem := [], memTags := [], urn := [], urnAns := [], stateMsgs := [], tlbis := [], tlbiOuts := [], net := [], nacked := [], iommus := [], io := IoState.reset, pwr := PwrState.reset, bootCfg := BootCfg.reset, out := [],
    stops := [], kiosks := [], flits := [], flitFails := [], meshRx := [], ports := MeshPorts.reset, delivered := [], flip := .none, spareTslot := [], tsvLast := [], urnSched := [], injEn := false, lifeDue := false,
    boot := BootState.reset, life := LifeState.reset, ctl := { shadow := [], guard := [], busCycle := none }, rnd := { rounds := [], next := 0 }, wdog := 0, wdogWarned := false }

end Sys2Proof.Machine
end

