-- ==== Sys2Proof/Machine/Ops.lean ====
section
/-! DEFINITION. The named operations over the state: cores, tiles, slices, homes, channels and Urn halves by number, the
control-space registers by node and field, and the stored words of DRAM. -/
set_option autoImplicit false
namespace Sys2Proof.Machine

/-- The answer of a command that names units of the part: a fault where it names none (no such command can reach the part). -/
def onUnit (ok : Bool) (s : State) : Host.Outcome State Fault Refusal := if ok then .next s else .fault .absent

/-- A core at reset: s.status is 0x7 on PM-8512-A1 and 0x2 on PM-8512-X1 (06_privilege_translation.md, s.status). -/
def Core.atReset (part : Part) : Core := { Core.reset with sys := [(0x000, if part = .a1 then 7 else 2)] }

/-- Logical core lc. -/
def State.core (s : State) (lc : Nat) : Core := tget s.cores (Core.atReset s.part) lc
/-- The state with logical core lc written. -/
def State.setCore (s : State) (lc : Nat) (c : Core) : State := { s with cores := tset s.cores (Core.atReset s.part) lc c }
/-- The caches of logical tile lt. -/
def State.tile (s : State) (lt : Nat) : TileCache := tget s.tiles TileCache.reset lt
/-- The state with the caches of a tile written. -/
def State.setTile (s : State) (lt : Nat) (t : TileCache) : State := { s with tiles := tset s.tiles TileCache.reset lt t }
/-- The arbour of logical tile lt. -/
def State.arbour (s : State) (lt : Nat) : Arbour := tget s.arbours Arbour.reset lt
/-- The state with an arbour written. -/
def State.setArbour (s : State) (lt : Nat) (a : Arbour) : State := { s with arbours := tset s.arbours Arbour.reset lt a }
/-- The LLC slice of logical tile lt. -/
def State.slice (s : State) (lt : Nat) : Slice := tget s.slices Slice.reset lt
/-- The state with an LLC slice written. -/
def State.setSlice (s : State) (lt : Nat) (x : Slice) : State := { s with slices := tset s.slices Slice.reset lt x }
/-- The home of I/O die i. -/
def State.home (s : State) (i : Nat) : Home := tget s.homes Home.reset i
/-- The state with a home written. -/
def State.setHome (s : State) (i : Nat) (h : Home) : State := { s with homes := tset s.homes Home.reset i h }
/-- Memory channel 0 to 15: 8 × I/O die + channel. -/
def State.chan (s : State) (n : Nat) : Chan := tget s.chans Chan.reset n
/-- The state with a channel written. -/
def State.setChan (s : State) (n : Nat) (c : Chan) : State := { s with chans := tset s.chans Chan.reset n c }
/-- IOMMU i. -/
def State.iommu (s : State) (i : Nat) : Iommu := tget s.iommus Iommu.reset i
/-- The state with an IOMMU's caches written. -/
def State.setIommu (s : State) (i : Nat) (m : Iommu) : State := { s with iommus := tset s.iommus Iommu.reset i m }
/-- Something sent outside the package. -/
def State.emit (s : State) (o : Out) : State := { s with out := s.out ++ [o] }
/-- An event counted in the lifetime record (Table 20-5). -/
def State.lifeEvent (s : State) (k : Nat) : State :=
  { s with life := { s.life with events := tset s.life.events 0 k (tget s.life.events 0 k + 1) } }
/-- Scan index of the stop of a logical tile (R14, R309). -/
def State.scanOf (s : State) (lt : Nat) : Nat := match tfind s.stops lt with | some n => n | none => lt % 32
/-- The scan index of no tile stop: that of a die index that no stop holds for want of a spare (R18). -/
def noScan : Nat := 63
/-- Whether no tile stop holds the die index of a logical tile (R18). -/
def State.noStop (s : State) (lt : Nat) : Bool := tfind s.stops lt == some noScan
/-- Urn half i. -/
def State.urnHalf (s : State) (i : Nat) : UrnHalf := tget s.urn UrnHalf.reset i
/-- The state with an Urn half written. -/
def State.setUrn (s : State) (i : Nat) (u : UrnHalf) : State := { s with urn := tset s.urn UrnHalf.reset i u }

/-- A free value is taken from the counter, which advances (the model's own device for values the spec leaves open). -/
def State.takeFree (s : State) : Nat × State := (s.free, { s with free := s.free + 1 })

/-- Byte offset of an element of a register array. -/
def dimOff (dims : List (Nat × Nat)) (idx : List Nat) : Nat :=
  match dims, idx with
  | [], _ => 0
  | _, [] => 0
  | (st, _) :: ds, i :: is => st * i + dimOff ds is

/-- Control-space offset (Table 2-1) of a register of a node. -/
def regKey (die unit : Nat) (r : RegDef) (idx : List Nat) : Nat :=
  die * 2 ^ 32 + unit * 2 ^ 22 + r.off + dimOff r.dims idx

/-- Reset value of a register: its table's, but for MESH_ROUTE0, which is 0xAA on even and 0x55 on odd dies. -/
def regResetVal (die : Nat) (r : RegDef) (idx : List Nat) : BitVec 64 :=
  if r.id = MESH_ROUTE.id then (if idx = [0] then (if die % 2 = 0 then 0xAA else 0x55) else 0) else v64 r.reset

/-- The stored value of a register. -/
def State.reg (s : State) (die unit : Nat) (r : RegDef) (idx : List Nat) : BitVec 64 :=
  tget s.regs (regResetVal die r idx) (regKey die unit r idx)

/-- The state with the stored value of a register written. -/
def State.setReg (s : State) (die unit : Nat) (r : RegDef) (idx : List Nat) (v : BitVec 64) : State :=
  { s with regs := tset s.regs (regResetVal die r idx) (regKey die unit r idx) v }

/-- A field of a register. -/
def State.fld (s : State) (die unit : Nat) (r : RegDef) (idx : List Nat) (f : RField) : Nat :=
  field (s.reg die unit r idx) f.lo f.n

/-- A one-bit field of a register. -/
def State.flag (s : State) (die unit : Nat) (r : RegDef) (idx : List Nat) (f : RField) : Bool :=
  s.fld die unit r idx f != 0

/-- The state with a field of a register written by the hardware. -/
def State.setFld (s : State) (die unit : Nat) (r : RegDef) (idx : List Nat) (f : RField) (x : Nat) : State :=
  s.setReg die unit r idx (setField (s.reg die unit r idx) f.lo f.n x)

/-- The state with a counting field increased by k, saturating at its width. -/
def State.addFld (s : State) (die unit : Nat) (r : RegDef) (idx : List Nat) (f : RField) (k : Nat) : State :=
  s.setFld die unit r idx f (satAdd (s.fld die unit r idx f) k f.n)

/-- Node ID of a node (R35): die in [13:10], unit in [9:0]. -/
def nodeId (die unit : Nat) : Nat := die * 2 ^ 10 + unit

/-- Die number of a logical tile (R14). -/
def ltDie (lt : Nat) : Nat := lt / 32
/-- Die index of a logical tile (R14). -/
def ltIdx (lt : Nat) : Nat := lt % 32
/-- Logical tile of a logical core (R19). -/
def lcTile (lc : Nat) : Nat := lc / 2

/-- Stored byte of DRAM; an unlisted byte reads 0. -/
def memByte (m : List Host.Cell) (a : Nat) : BitVec 8 := tget m 0 a
/-- DRAM with a stored byte written. -/
def memSetByte (m : List Host.Cell) (a : Nat) (b : BitVec 8) : List Host.Cell := tset m 0 a b

/-- The 64-bit little-endian value of eight stored bytes. -/
def memVal (m : List Host.Cell) (a : Nat) : BitVec 64 :=
  v64 (foldN 8 (fun acc i => acc + (memByte m (a + i)).toNat * 2 ^ (8 * i)) 0)

/-- DRAM with eight stored bytes written from a value, little-endian. -/
def memSetVal (m : List Host.Cell) (a : Nat) (v : BitVec 64) : List Host.Cell :=
  foldN 8 (fun m i => memSetByte m (a + i) (BitVec.ofNat 8 (v.toNat >>> (8 * i)))) m

/-- Key of the first stored value byte of word w of a channel line. -/
def dramKey (ch chline w : Nat) : Nat := ch * 2 ^ 39 + chline * 128 + 8 * w
/-- Key of the tag byte of word w of a channel line. -/
def dramTagKey (ch chline w : Nat) : Nat := ch * 2 ^ 36 + chline * 16 + w

/-- Stored word w of a channel line. -/
def State.dramWord (s : State) (ch chline w : Nat) : Word :=
  ⟨memVal s.mem (dramKey ch chline w), memByte s.memTags (dramTagKey ch chline w)⟩

/-- The state with a stored word of DRAM written. -/
def State.setDramWord (s : State) (ch chline w : Nat) (x : Word) : State :=
  { s with mem := memSetVal s.mem (dramKey ch chline w) x.val,
           memTags := memSetByte s.memTags (dramTagKey ch chline w) x.tag }

/-- The 16 stored words of a channel line. -/
def State.dramLine (s : State) (ch chline : Nat) : List Word := (List.range 16).map (s.dramWord ch chline)

/-- The state with the 16 words of a channel line written. -/
def State.setDramLine (s : State) (ch chline : Nat) (ws : List Word) : State :=
  foldN 16 (fun s w => s.setDramWord ch chline w (ws.getD w Word.zero)) s

/-- A line whose every word is poison with a code (R59). -/
def poisonLine (code : BitVec 6) : List Word := List.replicate 16 (Word.poison code)
/-- A line of zero words with tag 0x00 (R79). -/
def zeroLine : List Word := List.replicate 16 Word.zero

/-! ## Events of one Trellis cycle (R26) -/

/-- The modes in which the timebase runs (R539). -/
def Mode.timeRuns (m : Mode) : Bool :=
  match m with
  | .m0 | .m1 => false
  | .m2 | .m3 | .m4 | .m5 | .m6 | .m7 | .m8 | .m9 | .m10 | .m11 => true

/-- The Trellis cycle of the present time: a cycle lasts 2.5 ns. -/
def State.trellisCycle (s : State) : Nat := s.time * 2 / 5

/-- Whether the device has taken an event of a higher rank in this Trellis cycle (R26); where the timebase stands it has not. Ranks: 4 loss of
VIN or a cold reset, 3 a fatal error, 2 a warm reset, 1 a wake, 0 a request. -/
def State.outranked (s : State) (rank : Nat) : Bool :=
  match s.boot.event with
  | some (cycle, r) => s.mode.timeRuns && cycle == s.trellisCycle && decide (r > rank)
  | none => false

/-- An event of R26 taken (DEDUCED, entry 102: commands of the same 2.5 ns are events of one Trellis cycle). -/
def State.noteEvent (s : State) (rank : Nat) : State := { s with boot := { s.boot with event := some (s.trellisCycle, rank) } }

/-- Whether the debug fuse is intact: it is on every PM-8512-X1 (Table 0-1). -/
def State.debugFuse (s : State) : Bool := s.part == .x1 || s.boot.fuses.debugOk

/-- A window that opens, counts and restarts as R292 gives: `limit` events within 24 hours, timebase in ns. -/
def winStep (w : ErrWin) (now : Nat) : ErrWin :=
  if w.ce = 0 ∨ now ≥ w.start * 2 ^ 16 + 0x4E94914F0000 then ⟨1, now / 2 ^ 16⟩ else ⟨w.ce + 1, w.start⟩

end Sys2Proof.Machine
end

