-- ==== Sys2Proof/Machine/UrnCore.lean ====
section
/-! DEFINITION. The parts of the Urn that need no ring memory (13_urn_timed_service.md): queue descriptors, counts,
acceptance of an entry into the caddy (R404), the answers to waiting operations (R407), interrupt entries (R413), state
messages (R414) and bindings (R415). -/
set_option autoImplicit false
namespace Sys2Proof.Machine

/-- Whether a logical core number names a core: the odd number of a safe-mode arbour is reserved (R20), and the cores of
a tile quarantined after its fatal path are absent (R14, R268). -/
def State.coreExists (s : State) (lc : Nat) : Bool :=
  decide (lc < 512) &&
  !((s.flag (ltDie (lcTile lc)) (ltIdx (lcTile lc)) ARB_STATUS [] ARB_STATUS_MODE) && lc % 2 == 1) &&
  !natBit (s.fld 15 1 GH_TILE_FATAL [lcTile lc / 64] GH_TILE_FATAL_FATAL) (lcTile lc % 64)

/-- The half of a queue number (R11). -/
def qHalf (q : Nat) : Nat := q / 32768
/-- The local index of a queue number (R399). -/
def qIdx (q : Nat) : Nat := q % 32768
/-- The interrupt queue of a logical core (R412). -/
def iqNum (lc : Nat) : Nat := if lc < 256 then 0x7E00 + lc else 0xFE00 + (lc - 256)
/-- The logical core whose interrupt queue a number is (Table 13-1). -/
def iqOwner (q : Nat) : Option Nat :=
  if within 0x7E00 q 0x7EFF then some (q - 0x7E00) else if within 0xFE00 q 0xFEFF then some (q - 0xFE00 + 256) else none
/-- The last three groups of Table 13-1: interrupt, monitor and error queues. -/
def qSystem (q : Nat) : Bool := within 0x7E00 q 0x7FFF || within 0xFE00 q 0xFFFF

/-- A field of a queue descriptor. -/
def State.qf (s : State) (q : Nat) (r : RegDef) (f : RField) : Nat := s.fld (8 + qHalf q) 0x030 r [qIdx q] f
/-- A field of a queue descriptor written by the Urn. -/
def State.setQf (s : State) (q : Nat) (r : RegDef) (f : RField) (x : Nat) : State :=
  s.setFld (8 + qHalf q) 0x030 r [qIdx q] f x
/-- A counting field of a queue descriptor increased. -/
def State.addQf (s : State) (q : Nat) (r : RegDef) (f : RField) (k : Nat) : State :=
  s.addFld (8 + qHalf q) 0x030 r [qIdx q] f k

/-- Whether a queue is enabled. -/
def State.qEn (s : State) (q : Nat) : Bool := decide (q < 65536) && s.qf q URN_QCFG URN_QCFG_EN != 0
/-- Words of an entry (ESZ). -/
def State.qWords (s : State) (q : Nat) : Nat := 2 ^ s.qf q URN_QCFG URN_QCFG_ESZ
/-- Entries of a ring, 2^LOG2N. -/
def State.qCap (s : State) (q : Nat) : Nat := 2 ^ s.qf q URN_QCFG URN_QCFG_LOG2N
/-- HEAD. -/
def State.qHead (s : State) (q : Nat) : Nat := s.qf q URN_QPTR URN_QPTR_HEAD
/-- TAIL. -/
def State.qTail (s : State) (q : Nat) : Nat := s.qf q URN_QPTR URN_QPTR_TAIL
/-- The entry count (TAIL − HEAD) mod 2^21 (R403). -/
def State.qCount (s : State) (q : Nat) : Nat := (s.qTail q + 2 ^ 21 - s.qHead q) % 2 ^ 21
/-- Whether a queue is full (R403). -/
def State.qFull (s : State) (q : Nat) : Bool := decide (s.qCount q ≥ s.qCap q)
/-- SEQ of a queue. -/
def State.qSeq (s : State) (q : Nat) : Nat := s.qf q URN_QPTR URN_QPTR_SEQ
/-- The queue increments SEQ at every operation that it serves (R414; DEDUCED: one that ends with EMPTY, FULL or DROPPED is an
operation too, one that fails the checks is none, entry 100). -/
def State.qOp (s : State) (q : Nat) : State := s.setQf q URN_QPTR URN_QPTR_SEQ ((s.qSeq q + 1) % 2 ^ 16)
/-- Physical address of the ring words of the entry with count index i (R403). -/
def State.qAddr (s : State) (q i : Nat) : Nat :=
  s.qf q URN_QBASE URN_QBASE_BASE * 128 + i % s.qCap q * (s.qWords q * 8)

/-- Words held in the caddy of a half, by timed or untimed entries (R404). -/
def UrnHalf.caddyUse (u : UrnHalf) (timed : Bool) : Nat :=
  u.caddy.foldl (fun n e => if e.timed = timed then n + e.words.length else n) 0

/-- Whether the caddy takes n more words: 14,336 slots for untimed entries, 2,048 reserved for contracts (R404). -/
def UrnHalf.caddyRoom (u : UrnHalf) (timed : Bool) (n : Nat) : Bool :=
  decide (u.caddyUse timed + n ≤ if timed then 2048 else 14336)

/-- The entry with count index i that the caddy still holds. -/
def UrnHalf.caddyFind (u : UrnHalf) (q i : Nat) : Option (List Word) :=
  (u.caddy.find? (fun e => e.queue == q && e.idx == i)).map (fun e => e.words)

/-- The entry count after an operation and its sequence number, for an interrupt queue (R414). -/
def State.iqInfo (s : State) (q : Nat) : Option (Nat × Nat) :=
  if (iqOwner q).isSome then some (s.qCount q, s.qSeq q) else none

/-- An answer of the Urn sent to a core or kiosk (R161). -/
def State.answer (s : State) (who : QWho) (q status : Nat) (ws : List Word) : State :=
  match who with
  | .hardware => s
  | .function _ => s
  | w => { s with urnAns := s.urnAns ++ [{ who := w, status := status, words := ws, iq := s.iqInfo q }] }

/-- HEAD advances past the entry it names; the kind of an interrupt entry is forgotten with it. -/
def State.dropHead (s : State) (q : Nat) : State :=
  let s := s.setQf q URN_QPTR URN_QPTR_HEAD ((s.qHead q + 1) % 2 ^ 21)
  let u := s.urnHalf (qHalf q)
  if (iqOwner q).isSome then
    s.setUrn (qHalf q) { u with iqKinds := tset u.iqKinds [] q ((tget u.iqKinds [] q).drop 1) }
  else s

/-- An entry placed in the caddy at TAIL, and TAIL advanced (R403, R404). -/
def State.place (s : State) (q : Nat) (ws : List Word) (timed : Bool) : State :=
  let u := s.urnHalf (qHalf q)
  let e : CaddyEnt := { queue := q, idx := s.qTail q, words := ws, timed := timed }
  let s := s.setUrn (qHalf q) { u with caddy := u.caddy ++ [e] }
  s.setQf q URN_QPTR URN_QPTR_TAIL ((s.qTail q + 1) % 2 ^ 21)

/-- Kinds of the entries an interrupt queue holds. -/
def State.iqKindList (s : State) (q : Nat) : List Nat := tget (s.urnHalf (qHalf q)).iqKinds [] q

/-- KIND of an interrupt entry's first word (Table 6-7). -/
def entryKind (ws : List Word) : Nat := field (ws.getD 0 Word.zero).val 0 8

/-- Kinds of the entries that have been accepted for an interrupt queue: those it holds and those that wait for caddy space (R404). -/
def State.iqKindsDue (s : State) (q : Nat) : List Nat :=
  s.iqKindList q ++ ((s.urnHalf (qHalf q)).waiting.filter (fun w => w.caddy && w.queue == q)).map (fun w => entryKind w.words)

/-- R413: room for an entry in an interrupt queue: a timer entry when none of its kind is held (R194), any other while
fewer than 2^k − 2 entries of other kinds are held. -/
def State.iqRoom (s : State) (q kind : Nat) : Bool :=
  let ks := s.iqKindsDue q
  if kind = 1 ∨ kind = 2 then !ks.contains kind
  else decide ((ks.filter (fun k => k != 1 && k != 2)).length + 2 < s.qCap q)

/-- A state message sent to the tile of an interrupt queue's core (R414). -/
def State.sendState (s : State) (q : Nat) : State :=
  match iqOwner q with
  | some lc => { s with stateMsgs := s.stateMsgs ++ [{ lc := lc, seq := s.qSeq q, pending := true }] }
  | none => s

/-- An interrupt entry pushed to an interrupt queue with its STAMP (R190, R413), and the state message of a count that
leaves 0 (R414). The queue is known to have room. -/
def State.iqAccept (s : State) (q : Nat) (w0 : BitVec 64) : State :=
  let was := s.qCount q
  let s := s.place q [Word.data w0, Word.data (v64 s.time)] false
  let u := s.urnHalf (qHalf q)
  let s := s.setUrn (qHalf q) { u with iqKinds := tset u.iqKinds [] q (tget u.iqKinds [] q ++ [field w0 0 8]) }
  let s := s.qOp q
  if was = 0 then s.sendState q else s

/-- Waiting pops and queue waits of an interrupt queue are served as those of any other; this serves the oldest waiting
pop of a queue with its head entry, from the caddy (R407). A waiting pop means that the queue was empty, so the head is
the entry just accepted. -/
def State.serveWaitPop (s : State) (q : Nat) : State :=
  let h := qHalf q
  let u := s.urnHalf h
  match u.waiting.find? (fun w => w.queue == q && w.kind == .pop) with
  | none => s
  | some w =>
    match u.caddyFind q (s.qHead q) with
    | none => s
    | some ws =>
      if s.qCount q = 0 then s
      else
        let s := (s.setUrn h { u with waiting := u.waiting.erase w }).dropHead q
        let s := s.qOp q
        s.answer w.who q 0 ws

/-- R407: an entry in an empty queue ends every QWAIT on it with OK, and the waiting pop that came first takes the entry. -/
def State.serveWaits (s : State) (q : Nat) : State :=
  let h := qHalf q
  let u := s.urnHalf h
  let qs := u.waiting.filter (fun w => w.queue == q && w.kind == .wait)
  let s := s.setUrn h { u with waiting := u.waiting.filter (fun w => !(w.queue == q && w.kind == .wait)) }
  let s := qs.foldl (fun s w => (s.qOp q).answer w.who q 0 []) s
  s.serveWaitPop q

/-- An untimed push that finds the unreserved caddy slots full waits in the Urn, and STALLS counts it (R404). -/
def State.caddyStall (s : State) (who : QWho) (q : Nat) (ws : List Word) (timed hold : Bool) : State :=
  let u := s.urnHalf (qHalf q)
  let w : UrnWait := { who := who, kind := .push, queue := q, words := ws, caddy := true, timed := timed, hold := hold }
  let s := s.setUrn (qHalf q) { u with waiting := u.waiting ++ [w] }
  if timed then s else s.addFld (8 + qHalf q) 0x030 URN_CADDY [] URN_CADDY_STALLS 1

/-- Whether an IPI of a core waits in the Urn for caddy space (R404). -/
def State.ipiWaits (s : State) (lc : Nat) : Bool := [0, 1].any (fun h => (s.urnHalf h).waiting.any (fun w => w.who == .ipi lc))

/-- What becomes of an interrupt entry: no room for it or no queue, pushed, or waiting for caddy space (R404, R413). -/
inductive IqRes where
  | refused | pushed | waits
  deriving DecidableEq, Repr

/-- An interrupt entry for logical core lc: pushed when the queue is enabled and has room (R413). -/
def State.iqAsk (s : State) (who : QWho) (lc kind source data : Nat) : State × IqRes :=
  let q := iqNum lc
  let w0 := v64 (kind + source % 2 ^ 16 * 2 ^ 16 + data % 2 ^ 32 * 2 ^ 32)
  if s.coreExists lc && s.qEn q && s.iqRoom q kind then
    if (s.urnHalf (qHalf q)).caddyRoom false 2 then ((s.iqAccept q w0).serveWaits q, .pushed)
    else (s.caddyStall who q [Word.data w0, Word.zero] false false, .waits)
  else (s, .refused)

/-- An interrupt entry that the hardware pushes. Answers whether the queue took it. -/
def State.iqPush (s : State) (lc kind source data : Nat) : State × Bool :=
  let r := s.iqAsk .hardware lc kind source data
  (r.1, r.2 != .refused)

/-- R415: the QUEUE entry of a bound queue, or BIND_PEND when the interrupt queue has no room. A bound queue whose
target is absent has lost its binding already (R416). -/
def State.bindPush (s : State) (q : Nat) : State :=
  if s.qf q URN_QSTAT URN_QSTAT_BIND_PEND != 0 then s
  else
    let (s, ok) := s.iqPush (s.qf q URN_QBASE URN_QBASE_ITARGET) 0x08 q 0
    if ok then s else s.setQf q URN_QSTAT URN_QSTAT_BIND_PEND 1

/-- An entry accepted in a queue with room and caddy space (R404): placed, announced, and given to what waits. -/
def State.accept (s : State) (q : Nat) (ws : List Word) (timed : Bool) : State :=
  let was := s.qCount q
  let s := s.place q ws timed
  let s := s.qOp q
  let s := if was = 0 ∧ s.qf q URN_QCFG URN_QCFG_IBEN ≠ 0 then s.bindPush q else s
  if was = 0 then s.serveWaits q else s

/-- The entries of a full best-effort drop-oldest queue: the oldest is discarded (Table 13-4). -/
def State.dropOldest (s : State) (q : Nat) : State := (s.dropHead q).addQf q URN_QSTAT URN_QSTAT_DROPS 1

/-- A push by the hardware itself to an enabled best-effort queue: the error log queue (R588), the counter and trace
rings' queues, GPIO events. Answers whether the new entry was pushed. -/
def State.hwPush (s : State) (q : Nat) (ws : List Word) : State × Bool :=
  let ws' := (ws ++ List.replicate 8 Word.zero).take (s.qWords q)
  if !s.qEn q then (s, false)
  else if !(s.urnHalf (qHalf q)).caddyRoom false ws'.length then (s.caddyStall .hardware q ws' false false, true)
  else if s.qFull q then
    if s.qf q URN_QCFG URN_QCFG_CLASS = 0 then (s, false)
    else if s.qf q URN_QCFG URN_QCFG_POLICY = 0 then (s.addQf q URN_QSTAT URN_QSTAT_DROPS 1, false)
    else ((s.dropOldest q).accept q ws' false, true)
  else (s.accept q ws' false, true)

/-- BIND_PEND entries pushed once room appears in an interrupt queue (R415): the queues bound to the core, lowest number
first, among those whose descriptor is written. -/
def State.retryBinds (s : State) (lc : Nat) : State :=
  let pend := (s.regs.filter (fun p => decide (p.1 / 2 ^ 32 = 8 ∨ p.1 / 2 ^ 32 = 9) &&
      decide (p.1 / 2 ^ 22 % 2 ^ 10 = 0x030) && decide (p.1 % 2 ^ 22 ≥ 0x200000) && decide (p.1 % 32 = 0x18) &&
      bitOf p.2 47)).map (fun p => (p.1 / 2 ^ 32 - 8) * 32768 + (p.1 % 2 ^ 22 - 0x200000) / 32)
  pend.foldl (fun s q =>
    if s.qf q URN_QBASE URN_QBASE_ITARGET = lc then
      let (s', ok) := s.iqPush lc 0x08 q 0
      if ok then s'.setQf q URN_QSTAT URN_QSTAT_BIND_PEND 0 else s'
    else s) s

end Sys2Proof.Machine
end

