-- ==== Sys2Proof/Machine/CoreCounts.lean ====
section
/-! DEFINITION. The counters of a logical core (18_counters_probes.md, R542 to R545): what an event adds, and the COUNTER entries
of overflows. Events that count cycles are timing and are not produced. -/
set_option autoImplicit false
namespace Sys2Proof.Machine

/-- Counter j of s.cnt0 to s.cntf2 (Table 18-1) increased by k (R543, R544): it wraps at 48 bits, the sticky OVF bit is set, and
an entry falls due when OVF changes with INTEN set. -/
def Core.cntBump (c : Core) (j k : Nat) : Core :=
  let n := 0x040 + j
  let v := (c.sysr n).toNat + k
  let ctl := c.sysr 0x058
  let c := c.setSys n (v64 (v % 2 ^ 48))
  if v < 2 ^ 48 then c
  else
    let c := c.setSys 0x058 (setBit ctl j true)
    if !bitOf ctl j && bitOf ctl (16 + j) then { c with cntDue := c.cntDue ++ [j] } else c

/-- Whether counter j counts at a level and in a world (R543). -/
def Core.cntOn (c : Core) (j pl : Nat) (walled : Bool) : Bool :=
  let ctl := c.sysr 0x058
  let sel := c.sysr (0x050 + j)
  bitOf ctl (32 + j) &&
    (if j < 8 then bitOf sel (12 + pl) && (!walled || bitOf sel 16) else bitOf ctl (44 + pl) && (!walled || bitOf ctl 48))

/-- An event of Table 18-2 counted by every counter that selects it. -/
def Core.countEv (c : Core) (pl : Nat) (walled : Bool) (code : Nat) : Core :=
  let c := foldN 8 (fun (c : Core) j =>
    if c.cntOn j pl walled && field (c.sysr (0x050 + j)) 0 12 == code && code != 0 then c.cntBump j 1 else c) c
  if code = 0x002 ∧ c.cntOn 9 pl walled then c.cntBump 9 1 else c

/-- Several events counted. -/
def Core.countEvs (c : Core) (pl : Nat) (walled : Bool) (codes : List Nat) : Core :=
  codes.foldl (fun (c : Core) k => c.countEv pl walled k) c

/-- An event of the running program counted at once. -/
def State.coreEv (s : State) (lc code : Nat) : State :=
  let c := s.core lc
  s.setCore lc (c.countEv c.pl c.walled code)

/-- An interrupt entry of the hardware for a core that is only counted when its queue takes it not (Table 13-5). -/
def State.iqPushOrDrop (s : State) (lc kind source data : Nat) : State :=
  match s.iqPush lc kind source data with
  | (s, true) => s
  | (s, false) => s.addFld (8 + qHalf (iqNum lc)) 0x030 URN_DROPS [] URN_DROPS_IQ 1

/-- R544: the COUNTER entries due from older instructions are pushed as this one retires. -/
def State.pushDue (s : State) (lc : Nat) : State :=
  let due := (s.core lc).cntDue
  let s := s.setCore lc { s.core lc with cntDue := [] }
  due.foldl (fun (s : State) j => s.iqPushOrDrop lc 0x07 0 j) s

end Sys2Proof.Machine
end

