-- ==== Sys2Proof/Config.lean ====
section
/-! DEFINITION. What the spec leaves to an implementation or leaves open: opaque constants without a body, so that no proof
can see a value. Each is named in a row of the assumption log. -/
set_option autoImplicit false
namespace Sys2Proof

/-- The vendor ID that Mestabel was assigned (R471); the spec does not give it. -/
opaque Config.vendorId : BitVec 16

/-- The 32-bit signature of a retire group (R258), of which the spec gives what it covers and not how it is formed. -/
opaque Config.signature : List Nat → BitVec 32

/-- Values the spec does not state, drawn by the model's counter `State.free`. -/
opaque Config.freeValue : Nat → BitVec 64

/-- The contract that a timed packet's head names in its payload, whose layout the spec does not give (R377). -/
opaque Config.timedContract : List Word → Nat

/-- The bytes of the state record (Table 19-4), whose layout the spec does not give, from its fields in the table's order. -/
opaque Config.stateRecord : List Nat → List Nat

/-- The certificate chain of slot 0, which ends in the alias key derived from the identity seed and measurement slot 0 (R568); neither
the derivation nor the chain is given. -/
opaque Config.aliasChain : Nat → List Nat → List Nat

/-- A signature by the alias key of some bytes; the last argument stands for the signature's random number. -/
opaque Config.aliasSign : Nat → List Nat → List Nat → Nat → List Nat

/-- Mestabel's JEDEC manufacturer code (R621), which the spec does not give. -/
opaque Config.jedecCode : BitVec 11

end Sys2Proof
end

