-- ==== Sys2Proof/Machine/LineCode.lean ====
section
/-! DEFINITION. The line code (R342, R343, R345): the field GF(2^8), the codeword of a line, the places of its symbols on the module, and
the decoder with and without a marked device. -/
set_option autoImplicit false
namespace Sys2Proof.Machine

/-! ## The field -/

/-- α times a field element: the field polynomial is x^8 + x^4 + x^3 + x^2 + 1 (R342). -/
def gfAlpha (a : Nat) : Nat := if a < 128 then 2 * a else 2 * a ^^^ 0x11D

/-- The product of two field elements, over the low n bits of the second. -/
def gfMulBits (n a b : Nat) : Nat :=
  match n with
  | 0 => 0
  | k + 1 => (if b % 2 = 1 then a else 0) ^^^ gfMulBits k (gfAlpha a) (b / 2)

/-- The product of two field elements. -/
def gfMul (a b : Nat) : Nat := gfMulBits 8 a b

/-- α to a power. -/
def gfExp (n : Nat) : Nat :=
  match n with
  | 0 => 1
  | k + 1 => gfAlpha (gfExp k)

/-- The inverse of a field element, its 254th power; 0 for 0. -/
def gfInv (a : Nat) : Nat :=
  let a2 := gfMul a a
  let a4 := gfMul a2 a2
  let a8 := gfMul a4 a4
  let a16 := gfMul a8 a8
  let a32 := gfMul a16 a16
  let a64 := gfMul a32 a32
  gfMul (gfMul (gfMul a2 a4) (gfMul a8 a16)) (gfMul (gfMul a32 a64) (gfMul a64 a64))

/-! ## Polynomials, lowest coefficient first -/

/-- The sum of two polynomials. -/
def polyAdd (p q : List Nat) : List Nat :=
  match p, q with
  | [], q => q
  | p, [] => p
  | a :: p, b :: q => (a ^^^ b) :: polyAdd p q

/-- A polynomial times a field element. -/
def polyScale (k : Nat) (p : List Nat) : List Nat := p.map (gfMul k)

/-- The product of two polynomials. -/
def polyMul (p q : List Nat) : List Nat :=
  match p with
  | [] => []
  | a :: p => polyAdd (polyScale a q) (0 :: polyMul p q)

/-- The value of a polynomial at a field element. -/
def polyEval (p : List Nat) (x : Nat) : Nat := p.foldr (fun a acc => a ^^^ gfMul x acc) 0

/-- A polynomial without its leading zeros. -/
def polyTrim (p : List Nat) : List Nat := (p.reverse.dropWhile (fun a => a == 0)).reverse

/-- Quotient and remainder of a division of polynomials, as far as the fuel goes. -/
def polyDiv (fuel : Nat) (p q : List Nat) : List Nat × List Nat :=
  let p := polyTrim p
  match fuel with
  | 0 => ([], p)
  | n + 1 =>
    if p.length < q.length ∨ q = [] then ([], p)
    else
      let k := gfMul (p.getLastD 0) (gfInv (q.getLastD 0))
      let d := List.replicate (p.length - q.length) 0
      let r := polyDiv n (polyAdd p (d ++ polyScale k q)) q
      (polyAdd r.1 (d ++ [k]), r.2)

/-- The formal derivative of a polynomial: its odd coefficients, in even places. -/
def polyDeriv (p : List Nat) : List Nat :=
  match p with
  | [] => []
  | _ :: [] => []
  | _ :: b :: r => b :: 0 :: polyDeriv r

/-! ## Codeword and module -/

/-- The generator polynomial, of roots α^0 to α^15 (R342). -/
def lineGen : List Nat := (List.range 16).foldl (fun g k => polyMul [gfExp k, 1] g) [1]

/-- The payload symbols of a line (Table 11-3): its value bytes, then its tag bytes. -/
def payload (ws : List Word) : List Nat :=
  let word := fun (n : Nat) => ws.getD n Word.zero
  (List.range 128).map (fun s => (word (s / 8)).val.toNat / 2 ^ (8 * (s % 8)) % 256) ++ (List.range 16).map (fun n => (word n).tag.toNat)

/-- The check symbols 144 to 159 of a payload: the remainder by the generator, shifted in symbol by symbol (R342). -/
def checkSymbols (pay : List Nat) : List Nat :=
  let g := (lineGen.take 16).reverse
  pay.foldl (fun (r : List Nat) a =>
    let k := a ^^^ r.headD 0
    polyAdd (r.drop 1 ++ [0]) (polyScale k g)) (List.replicate 16 0)

/-- The 160 symbols of a line (R342). -/
def lineCode (ws : List Word) : List Nat := payload ws ++ checkSymbols (payload ws)

/-- The device of a symbol (Table 11-4). -/
def symDev (x8 : Bool) (sym : Nat) : Nat := if x8 then sym / 16 else sym / 8

/-- Whether a device is on sub-channel B, and whether on its check lines CB[7:0] rather than DQ[31:0] (R343, Table 11-4). -/
def devLines (x8 : Bool) (dev : Nat) : Bool × Bool :=
  let half := if x8 then 5 else 10
  (decide (dev ≥ half), decide (dev % half ≥ (if x8 then 4 else 8)))

/-- What a device drives in a beat of a line's BL16 burst (R343): a nibble of an x4 device, low nibble first, or a symbol of an x8 one. -/
def devBeat (x8 : Bool) (code : List Nat) (dev beat : Nat) : Nat :=
  if x8 then code.getD (16 * dev + beat) 0 else code.getD (8 * dev + beat / 2) 0 / 16 ^ (beat % 2) % 16

/-! ## The decoder -/

/-- Symbol errors in one entry per symbol, errors of value 0 left out. -/
def errNorm (errs : List (Nat × Nat)) : List (Nat × Nat) :=
  (List.range 160).filterMap (fun s =>
    let v := errs.foldl (fun v e => if e.1 = s then v ^^^ e.2 % 256 else v) 0
    if v = 0 then none else some (s, v))

/-- The locator of a symbol: α to the power of its coefficient's place (R342). -/
def symLoc (s : Nat) : Nat := gfExp (159 - s)

/-- The 16 syndromes of an error pattern; a codeword adds nothing to them. -/
def syndromes (errs : List (Nat × Nat)) : List Nat :=
  (List.range 16).map (fun j => errs.foldl (fun a e => a ^^^ gfMul e.2 (gfExp ((159 - e.1) * j % 255))) 0)

/-- Euclid's steps on x^16 and the modified syndromes, until the remainder's degree is below (16 + f) / 2 for f erasures: the error
evaluator and the error locator. -/
def keySolve (fuel f : Nat) (r0 r1 t0 t1 : List Nat) : List Nat × List Nat :=
  match fuel with
  | 0 => (r1, t1)
  | n + 1 =>
    let r1 := polyTrim r1
    if 2 * r1.length < 16 + f + 2 then (r1, t1)
    else
      let d := polyDiv 20 r0 r1
      keySolve n f r1 d.2 t1 (polyAdd t0 (polyMul d.1 t1))

/-- The one error pattern with given syndromes that has at most `limit` errors outside the erased symbols, where there is one (R345):
2e + f ≤ 16 makes it unique. -/
def rsDecode (erased : List Nat) (limit : Nat) (syn : List Nat) : Option (List (Nat × Nat)) :=
  let gamma := erased.foldl (fun g s => polyMul [1, symLoc s] g) [1]
  let x16 := List.replicate 16 0 ++ [1]
  let (omega, lam) := keySolve 20 erased.length x16 ((polyMul syn gamma).take 16) [] [1]
  let psi := polyMul lam gamma
  let d := polyDeriv psi
  let found := (List.range 160).filterMap (fun s =>
    let x := symLoc s
    let xi := gfExp ((255 - (159 - s)) % 255)
    if polyEval psi xi ≠ 0 then none
    else
      let v := gfMul x (gfMul (polyEval omega xi) (gfInv (polyEval d xi)))
      if v = 0 then none else some (s, v))
  if syndromes found = syn ∧ (found.filter (fun e => !erased.contains e.1)).length ≤ limit then some found else none

/-- The symbols of a device. -/
def devSyms (x8 : Bool) (dev : Nat) : List Nat := if x8 then (List.range 16).map (16 * dev + ·) else (List.range 8).map (8 * dev + ·)

/-- What a decode finds (R345): nothing wrong, the symbols that it corrects, or a line that it flags. -/
inductive EccOut where
  | clean
  | corrected (found : List (Nat × Nat))
  | flagged
  deriving DecidableEq, Repr

/-- The decoder of Table 11-5 on a line with some symbol errors: up to 8 symbols without a mark; with one, the marked device's symbols as
erasures and up to 4 others, or none on an x8 rank or with POSTMARK. -/
def eccDecode (x8 post : Bool) (mark : Option Nat) (errs : List (Nat × Nat)) : EccOut :=
  if errs = [] then .clean
  else
    let syn := syndromes errs
    if syn.all (fun a => a == 0) then .clean
    else
      let (erased, limit) := match mark with
        | none => ([], 8)
        | some d => (devSyms x8 d, if x8 || post then 0 else 4)
      match rsDecode erased limit syn with
      | some found => .corrected found
      | none => .flagged

/-- The words of a stored line with the symbol errors that a decode leaves in its payload. -/
def lineWith (ws : List Word) (errs : List (Nat × Nat)) : List Word :=
  (List.range 16).map (fun n =>
    let w := ws.getD n Word.zero
    let at' := fun (s : Nat) => errs.foldl (fun v e => if e.1 = s then v ^^^ e.2 else v) 0
    ⟨w.val ^^^ BitVec.ofNat 64 ((List.range 8).foldl (fun v b => v + at' (8 * n + b) * 2 ^ (8 * b)) 0),
     w.tag ^^^ BitVec.ofNat 8 (at' (128 + n))⟩)

end Sys2Proof.Machine
end

