-- ==== Sys2Proof/Machine/Errors.lean ====
section
/-! DEFINITION. Error records (20_errors_ras_life.md): the error record bank of a node (R582, R583), the windows of
corrected events (R584), reporting (R587, R588) and the entry into Safe Stop (R591). -/
set_option autoImplicit false
namespace Sys2Proof.Machine

/-- What an error record holds beside its count, node and time (R582). -/
structure ErrRec where
  cls : Nat
  kind : Nat
  inj : Bool
  walled : Bool
  poison : Nat
  unitNo : Nat
  addr : Nat
  misc : Nat
  deriving DecidableEq, Repr

/-- A record with a class, kind, unit and address, and nothing else set. -/
def ErrRec.mk1 (cls kind unitNo addr : Nat) : ErrRec :=
  { cls := cls, kind := kind, inj := false, walled := false, poison := 0, unitNo := unitNo, addr := addr, misc := 0 }

/-- Word 0 of a record with COUNT 1 (ERB_RECn_0). -/
def ErrRec.word0 (r : ErrRec) (node : Nat) : BitVec 64 :=
  v64 (r.cls % 8 + r.inj.toNat * 8 + r.walled.toNat * 16 + r.poison % 8 * 32 + r.kind % 256 * 256 + 2 ^ 16 +
    r.unitNo % 2 ^ 16 * 2 ^ 32 + node % 2 ^ 14 * 2 ^ 48 + 2 ^ 63)

/-- Word 0 of slot n of a node's bank. -/
def State.erb0 (s : State) (die unit n : Nat) : BitVec 64 := s.reg die unit ERB_REC0 [n]
/-- VALID of slot n. -/
def State.erbValid (s : State) (die unit n : Nat) : Bool := bitOf (s.erb0 die unit n) 63
/-- The four words of slot n. -/
def State.erbWords (s : State) (die unit n : Nat) : List (BitVec 64) :=
  [s.reg die unit ERB_REC0 [n], s.reg die unit ERB_REC1 [n], s.reg die unit ERB_REC2 [n], s.reg die unit ERB_REC3 [n]]

/-- Slot n written. -/
def State.erbWrite (s : State) (die unit n : Nat) (ws : List (BitVec 64)) : State :=
  (((s.setReg die unit ERB_REC0 [n] (ws.getD 0 0)).setReg die unit ERB_REC1 [n] (ws.getD 1 0)).setReg die unit ERB_REC2 [n]
    (ws.getD 2 0)).setReg die unit ERB_REC3 [n] (ws.getD 3 0)

/-- Step 1 of R583: a valid record with the same CLASS, KIND, UNIT and ADDR. -/
def State.erbMatch (s : State) (die unit : Nat) (r : ErrRec) : Option Nat :=
  (List.range 8).find? (fun n =>
    let w := s.erb0 die unit n
    bitOf w 63 && field w 0 3 == r.cls && field w 8 8 == r.kind && field w 32 16 == r.unitNo % 2 ^ 16 &&
      (s.reg die unit ERB_REC1 [n] == v64 r.addr))

/-- Steps 2 and 3 of R583: the slot a new record takes, if any. -/
def State.erbSlot (s : State) (die unit cls : Nat) : Option Nat :=
  let free := (List.range 7).find? (fun n => !s.erbValid die unit n)
  let lower := (List.range 7).filter (fun n => decide (field (s.erb0 die unit n) 0 3 < cls))
  let time := fun n => (s.reg die unit ERB_REC3 [n]).toNat
  let oldest := lower.foldl (fun (o : Option Nat) n =>
    match o with
    | none => some n
    | some m => if time n < time m then some n else some m) none
  if cls = 5 ∧ !s.erbValid die unit 7 then some 7
  else match free with
    | some n => some n
    | none => oldest

/-- The words of a record that an Open reader sees: words 1 and 2 are zero when WORLD is 1 (R585). -/
def erbHide (ws : List (BitVec 64)) : List (BitVec 64) :=
  if bitOf (ws.getD 0 0) 4 then [ws.getD 0 0, 0, 0, ws.getD 3 0] else ws

/-- R587: the ERROR entry of a placed record; `own` is the core whose own arbour's fatal path the record is. -/
def State.errReport (s : State) (node slot cls : Nat) (own : Option Nat) : State :=
  if s.mode = .m9 ∨ !natBit (s.fld 15 0 ERB_ROUTE [] ERB_ROUTE_MASK) (cls - 1) then s
  else
    let p := s.fld 15 0 ERB_ROUTE [] ERB_ROUTE_PRIMARY
    let a := s.fld 15 0 ERB_ROUTE [] ERB_ROUTE_ALT
    let ok := fun lc => s.coreExists lc && !(own == some lc)
    let drop := fun (s : State) lc => s.addFld (8 + qHalf (iqNum lc)) 0x030 URN_DROPS [] URN_DROPS_IQ 1
    if ok p then
      let (s', pushed) := s.iqPush p 0x05 node slot
      if pushed then s' else drop s' p
    else if ok a then
      let (s', pushed) := s.iqPush a 0x05 node slot
      if pushed then s' else drop s' a
    else drop s p

/-- R588: the copy of a placed record in the error log queue. -/
def State.errLog (s : State) (ws : List (BitVec 64)) : State := (s.hwPush 0x7F01 ((erbHide ws).map Word.data)).1

/-- Records of slots 0 to 6 below a slot that were placed in the Trellis cycle of a new event and have a higher KIND: the new event is placed before
them (R583). -/
def State.erbLater (s : State) (die unit kind time n : Nat) : List Nat :=
  if n > 6 then []
  else (List.range n).filter (fun m => s.erbValid die unit m && decide (field (s.erb0 die unit m) 8 8 > kind) &&
    (s.reg die unit ERB_REC3 [m]).toNat * 2 / 5 == time * 2 / 5)

/-- A record written in slot n, with the records of the same Trellis cycle that come after it moved on (R583). -/
def State.erbInsert (s : State) (die unit kind time n : Nat) (ws : List (BitVec 64)) : State :=
  let later := s.erbLater die unit kind time n
  ((later ++ [n]).zip (ws :: later.map (s.erbWords die unit))).foldl (fun (s : State) p => s.erbWrite die unit p.1 p.2) s

/-- R583: a new event placed in a node's bank, counted when it repeats a record, lost when no slot is free; reported and
logged when placed. `time` is the timebase of the event. -/
def State.errPlace (s : State) (die unit : Nat) (r : ErrRec) (time : Nat) (own : Option Nat) : State :=
  match s.erbMatch die unit r with
  | some n => s.addFld die unit ERB_REC0 [n] ERB_REC0_COUNT 1
  | none =>
    match s.erbSlot die unit r.cls with
    | none => s.addFld die unit ERB_STATUS [] ERB_STATUS_LOST 1
    | some n =>
      let ws := [r.word0 (nodeId die unit), v64 r.addr, v64 r.misc, v64 time]
      ((s.erbInsert die unit r.kind time n ws).errReport (nodeId die unit) n r.cls own).errLog ws

/-- An event recorded now. -/
def State.err (s : State) (die unit : Nat) (r : ErrRec) : State := s.errPlace die unit r s.time none

/-- R584: a corrected event of a unit without a threshold of its own. The window opens, counts and restarts as R292
gives; at the limit a THRESHOLD record is written and the window restarts. -/
def State.errCorrected (s : State) (die unit unitNo addr : Nat) : State :=
  let w : ErrWin := ⟨s.fld die unit ERB_CE [] ERB_CE_CE, s.fld die unit ERB_CE [] ERB_CE_WSTART⟩
  let w' := winStep w s.time
  if w'.ce ≥ max 1 (s.fld die unit ERB_THRESH [] ERB_THRESH_CE) then
    (s.setReg die unit ERB_CE [] 0).err die unit (ErrRec.mk1 1 0x01 unitNo addr)
  else (s.setFld die unit ERB_CE [] ERB_CE_CE w'.ce).setFld die unit ERB_CE [] ERB_CE_WSTART w'.start

/-- Whether a fatal error takes the device to M9 from its mode (Table 1-5). -/
def Mode.fatalLeaves (m : Mode) : Bool :=
  match m with
  | .m4 | .m5 | .m6 | .m7 | .m8 | .m10 => true
  | .m0 | .m1 | .m2 | .m3 | .m9 | .m11 => false

/-- A fatal error met in M1: a slow node's, or that of a node which a cold reset of the same Trellis cycle has switched off (R26), is kept by the
always-on island in the first slot that holds none; of any other node nothing is on. -/
def State.islandRecord (s : State) (die unit : Nat) (r : ErrRec) : State :=
  let node := nodeId die unit
  let on : Bool := die == 10 || (die == 15 && unit == 1) || s.boot.event.isSome
  match (7 :: List.range 7).find? (fun n => (tfind s.boot.retained (8 * node + n)).isNone) with
  | some n =>
    if on then
      { s with boot := { s.boot with retained := tput s.boot.retained (8 * node + n) [r.word0 node, v64 r.addr, v64 r.misc, v64 s.time] } }
    else s
  | none => s

/-- R591: the detecting node writes its FATAL record and the device enters M9: injection stops, GH_FAULT.REASON becomes
FATAL, FAULT is asserted, and the lifetime record is due (R604). A further fatal event in M9 is only recorded. -/
def State.fatalRec (s : State) (die unit code : Nat) (r : ErrRec) : State :=
  let s := if s.mode = .m1 then s.islandRecord die unit r else s.err die unit r
  if s.mode.fatalLeaves then
    let s := ({ s.noteEvent 3 with mode := .m9, injEn := false, lifeDue := true }.lifeEvent (16 + code)).emit .inBand
    ((s.setFld 15 1 GH_FAULT [] GH_FAULT_REASON 9).setFld 15 1 GH_FAULT [] GH_FAULT_VALID 1).setFld 15 1 GH_STATUS []
      GH_STATUS_FAULT 1
  else s

/-- A fatal event of a code of Table 20-3. -/
def State.fatal (s : State) (die unit code unitNo addr : Nat) : State :=
  s.fatalRec die unit code (ErrRec.mk1 5 (0x20 + code) unitNo addr)

end Sys2Proof.Machine
end

