-- ==== Sys2Proof/Machine/Counts.lean ====
section
/-! DEFINITION. Uncore counters (18_counters_probes.md, R548 to R550): an event of a node counted by every counter that
selects it. -/
set_option autoImplicit false
namespace Sys2Proof.Machine

/-- The counter registers of one kind of node (Table 18-4). -/
structure CntRegs where
  ctl : RegDef
  status : RegDef
  sel : RegDef
  pair : RegDef
  n : Nat

/-- Counters of the kinds of node of Table 18-4. -/
def cntLlc : CntRegs := ⟨CNT_UCTL_L, CNT_USTATUS_L, CNT_USEL_L, CNT_UPAIR_L, 8⟩
/-- Home counters. -/
def cntHome : CntRegs := ⟨CNT_UCTL_H, CNT_USTATUS_H, CNT_USEL_H, CNT_UPAIR_H, 16⟩
/-- Memory channel counters. -/
def cntMem : CntRegs := ⟨CNT_UCTL_M, CNT_USTATUS_M, CNT_USEL_M, CNT_UPAIR_M, 8⟩
/-- Urn half counters. -/
def cntUrn : CntRegs := ⟨CNT_UCTL_U, CNT_USTATUS_U, CNT_USEL_U, CNT_UPAIR_U, 8⟩
/-- x16 port counters. -/
def cntPort : CntRegs := ⟨CNT_UCTL_P, CNT_USTATUS_P, CNT_USEL_P, CNT_UPAIR_P, 8⟩
/-- Footbridge link counters. -/
def cntFb : CntRegs := ⟨CNT_UCTL_F, CNT_USTATUS_F, CNT_USEL_F, CNT_UPAIR_F, 4⟩
/-- Hub kiosk cluster counters. -/
def cntKsk : CntRegs := ⟨CNT_UCTL_K, CNT_USTATUS_K, CNT_USEL_K, CNT_UPAIR_K, 8⟩
/-- I/O die fabric counters. -/
def cntIod : CntRegs := ⟨CNT_UCTL_I, CNT_USTATUS_I, CNT_USEL_I, CNT_UPAIR_I, 8⟩

/-- The value of counter j of a node. -/
def State.cntVal (s : State) (die unit : Nat) (c : CntRegs) (j : Nat) : Nat :=
  field (s.reg die unit c.pair [j / 2]) (32 * (j % 2)) 32

/-- One counter increased by k, with the carry rules of R549 (fuel: an even counter may carry into its odd partner). -/
def State.cntAdd (s : State) (die unit : Nat) (c : CntRegs) (j k fuel : Nat) : State :=
  match fuel with
  | 0 => s
  | n + 1 =>
    let v := s.cntVal die unit c j
    let s := s.setReg die unit c.pair [j / 2] (setField (s.reg die unit c.pair [j / 2]) (32 * (j % 2)) 32 (v + k))
    if v + k ≥ 2 ^ 32 then
      if j % 2 = 0 ∧ s.fld die unit c.sel [j + 1] CNT_USEL_EVENT = 0 then s.cntAdd die unit c (j + 1) 1 n
      else s.setReg die unit c.status [] (setBit (s.reg die unit c.status []) (CNT_USTATUS_OVF.lo + j) true)
    else s

/-- An event counted k times by every counter of a node that selects it; `walled` is the world of an event that has one
(R550). Code 0 selects nothing here. -/
def State.count (s : State) (die unit : Nat) (c : CntRegs) (ev k : Nat) (walled : Bool) : State :=
  if s.flag die unit c.ctl [] CNT_UCTL_FREEZE then s
  else foldN c.n (fun s j =>
    if s.fld die unit c.sel [j] CNT_USEL_EVENT = ev ∧ ev ≠ 0 ∧ (!walled ∨ s.flag die unit c.sel [j] CNT_USEL_WALLED) then
      s.cntAdd die unit c j k 2
    else s) s

/-- Whether slot n of CNT_ISEL follows a non-caching agent (R559): hub kiosks 256 to 511 by their cluster, Urn halves 512 and
513, x16 ports 520 + 5 × I/O die + port. -/
def State.iselHas (s : State) (n agent : Nat) : Bool :=
  let f := fun (r : RField) => s.fld 15 0x004 CNT_ISEL [n] r
  f CNT_ISEL_EN != 0 &&
    (match f CNT_ISEL_KIND with
     | 0 => within 256 agent 511 && decide ((agent - 256) / 16 = 8 * f CNT_ISEL_IOD + f CNT_ISEL_NUM)
     | 1 => within 520 agent 529 && decide (agent - 520 = 5 * f CNT_ISEL_IOD + f CNT_ISEL_NUM ∧ f CNT_ISEL_NUM < 5)
     | 2 => decide (agent = 512 + f CNT_ISEL_IOD)
     | _ => false)

/-- A field of an initiator slot that counts and wraps. -/
def State.iselAdd (s : State) (n : Nat) (r : RegDef) (f : RField) (k : Nat) : State :=
  s.setFld 15 0x004 r [n] f ((s.fld 15 0x004 r [n] f + k) % 2 ^ f.n)

/-- The slots that measure a request of an agent in a world (R559). -/
def State.iselSlots (s : State) (agent : Nat) (walled : Bool) : List Nat :=
  (List.range 16).filter (fun n => s.iselHas n agent && !(walled && s.fld 15 0x004 CNT_ISEL [n] CNT_ISEL_WALLED == 0))

/-- R559: a masked write of a non-caching agent measured. -/
def State.iselWrite (s : State) (agent mask : Nat) (walled : Bool) : State :=
  let halves := (if mask % 2 ^ 64 ≠ 0 then 1 else 0) + (if mask / 2 ^ 64 ≠ 0 then 1 else 0)
  (s.iselSlots agent walled).foldl (fun (s : State) n =>
    (s.iselAdd n CNT_IREQ CNT_IREQ_WRITES 1).iselAdd n CNT_IBYTES CNT_IBYTES_WBYTES halves) s

/-- R559: a read of a line, or a device read of an address, injected: it counts now, and its slots keep when it was. -/
def State.iselSend (s : State) (agent key : Nat) (dev walled : Bool) : State :=
  let slots := s.iselSlots agent walled
  let m := s.io.measured.filter (fun r => !(r.agent == agent && r.key == key && r.dev == dev))
  let s := slots.foldl (fun (s : State) n => s.iselAdd n CNT_IREQ CNT_IREQ_READS 1) s
  { s with io := { s.io with measured := if slots = [] then m else m ++ [{ agent := agent, key := key, dev := dev, since := s.time, slots := slots }] } }

/-- R559: a read's last data delivered: its lines and its latency. -/
def State.iselRead (s : State) (agent key : Nat) (dev : Bool) (lines : Nat) : State :=
  match s.io.measured.find? (fun r => r.agent == agent && r.key == key && r.dev == dev) with
  | none => s
  | some r =>
    let t := s.time - r.since
    r.slots.foldl (fun (s : State) n =>
      let s := (s.iselAdd n CNT_IBYTES CNT_IBYTES_RBYTES (2 * lines)).iselAdd n CNT_ILATSUM CNT_ILATSUM_LATSUM t
      s.setFld 15 0x004 CNT_ILATMAX [n] CNT_ILATMAX_LATMAX (max (s.fld 15 0x004 CNT_ILATMAX [n] CNT_ILATMAX_LATMAX) (min t (2 ^ 24 - 1))))
      { s with io := { s.io with measured := s.io.measured.erase r } }

/-- R559: a write to CNT_ISELn: the slot's statistics clear, and no request injected before counts in it. -/
def State.iselClear (s : State) (n : Nat) : State :=
  let s := [CNT_IREQ, CNT_IBYTES, CNT_ILATSUM, CNT_ILATMAX].foldl (fun (s : State) x => s.setReg 15 0x004 x [n] 0) s
  { s with io := { s.io with measured := s.io.measured.map (fun r => { r with slots := r.slots.filter (fun x => x != n) }) } }

end Sys2Proof.Machine
end

