-- ==== Sys2Proof/Machine/PhysMap.lean ====
section
/-! DEFINITION. The physical address map: the decode order of Table 15-4 (R467), the interleave of local DRAM (R352), the
home of a line (R311, R312), Walled memory (R497) and the channel line address (R355). -/
set_option autoImplicit false
namespace Sys2Proof.Machine

/-- What a physical address names (Table 15-4). -/
inductive PhysClass where
  | control (off : Nat)
  | msi (off : Nat)
  | ecam (off : Nat)
  | mmio (iod : Nat)
  | cxl (iod win : Nat)
  | dram (range chan chline : Nat)
  | remote (socket : Nat)
  | unmapped
  deriving DecidableEq, Repr

/-- The exclusive or of all k-bit groups of a line number (R352). -/
def foldSel (k line fuel : Nat) : Nat :=
  match fuel with
  | 0 => 0
  | n + 1 => (line % 2 ^ k) ^^^ foldSel k (line / 2 ^ k) n

/-- A MEM_RANGE register of the package; it is held in channel 0 of IOD0 and copied everywhere (R353). -/
def State.memRange (s : State) (n : Nat) : BitVec 64 := s.reg 8 0 MEM_RANGE [n]

/-- Whether a physical address lies in an enabled range register value. -/
def rangeHas (r : BitVec 64) (pa : Nat) : Bool :=
  field r 44 2 != 0 && within (field r 0 22) (pa / 2 ^ 30) (field r 22 22)

/-- R352: channel (8 × I/O die + channel) and channel line of an address in a range. -/
def rangeMap (r : BitVec 64) (pa : Nat) : Nat × Nat :=
  let line := (pa - field r 0 22 * 2 ^ 30) / 128
  let ways := field r 44 2
  let chbase := field r 46 13
  if ways = 1 then (foldSel 4 line 12, chbase * 2 ^ 19 + line / 16)
  else ((ways - 2) * 8 + foldSel 3 line 16, chbase * 2 ^ 19 + line / 8)

/-- Bounds and EN of a register with BASE [21:0], LIMIT [43:22] in GiB units and an enable bit. -/
def gibHas (r : BitVec 64) (enBit pa : Nat) : Bool :=
  bitOf r enBit && within (field r 0 22) (pa / 2 ^ 30) (field r 22 22)

/-- This socket's ID (R491). -/
def State.socketId (s : State) : Nat := s.fld 15 1 GH_STATUS [] GH_STATUS_SOCKET
/-- The package link towards another socket, when its route is valid (R492). -/
def State.fbLinkTo (s : State) (n : Nat) : Option Nat :=
  if s.flag 8 0x018 FB_ROUTE [] (FB_ROUTE_VALID n) then some (s.fld 8 0x018 FB_ROUTE [] (FB_ROUTE_LINK n)) else none
/-- Whether a package link is up, and whether it carries coherent traffic (R493, R494). -/
def State.fbLinkUp (s : State) (l : Nat) : Bool := decide (l < 6) && tget s.io.fbUp false l
/-- Whether messages can reach another socket. -/
def State.fbReach (s : State) (n : Nat) : Bool :=
  match s.fbLinkTo n with
  | some l => s.fbLinkUp l
  | none => false
/-- Whether the link towards a socket found other socket ranges at its peer (R493). -/
def State.fbDiff (s : State) (n : Nat) : Bool :=
  match s.fbLinkTo n with
  | some l => s.flag (8 + l / 3) (0x018 + l % 3) FB_STATUS [] FB_STATUS_MAPDIFF
  | none => false

/-- R467: the first row of Table 15-4 that contains an address. Memory of a socket without a valid route is unmapped (R492). -/
def State.classify (s : State) (pa : Nat) : PhysClass :=
  if pa ≥ 0x000FFFF000000000 ∧ pa < 2 ^ 52 then .control (pa - 0x000FFFF000000000)
  else if within 0x000FFFE000000000 pa 0x000FFFE0001FFFFF then .msi (pa - 0x000FFFE000000000)
  else if within 0xF0000000 pa 0xFFFFFFFF then .ecam (pa - 0xF0000000)
  else if within 0xC0000000 pa 0xDFFFFFFF then .mmio 0
  else if within 0xE0000000 pa 0xEFFFFFFF then .mmio 1
  else if gibHas (s.reg 8 0x039 IOM_APERTURE []) 44 pa then .mmio 0
  else if gibHas (s.reg 9 0x039 IOM_APERTURE []) 44 pa then .mmio 1
  else match (List.range 8).find? (fun k => gibHas (s.reg (8 + k / 4) 0x039 IOM_CXLWIN [k % 4]) 44 pa) with
    | some k => .cxl (k / 4) (k % 4)
    | none =>
      match (List.range 4).find? (fun n => rangeHas (s.memRange n) pa) with
      | some n => .dram n (rangeMap (s.memRange n) pa).1 (rangeMap (s.memRange n) pa).2
      | none =>
        match (List.range 8).find? (fun n => gibHas (s.reg 8 0x018 FB_SRANGE [n]) 47 pa) with
        | some n =>
          let k := s.fld 8 0x018 FB_SRANGE [n] FB_SRANGE_SOCKET
          if (s.fbLinkTo k).isSome then .remote k else .unmapped
        | none => .unmapped

/-- Rows 1 to 5 are device memory (R204, R467). -/
def PhysClass.isDevice (c : PhysClass) : Bool :=
  match c with
  | .control _ | .msi _ | .ecam _ | .mmio _ => true
  | .cxl _ _ | .dram _ _ _ | .remote _ | .unmapped => false

/-- The I/O die whose home (or proxy home) serves a line of normal memory (R311, R312, R354). -/
def State.homeOf (s : State) (line : Nat) : Nat :=
  match s.classify (line * 128) with
  | .dram _ ch _ => ch / 8
  | .cxl iod _ => iod
  | .remote _ => foldSel 4 line 12 / 8
  | .unmapped => 0
  | .control _ | .msi _ | .ecam _ | .mmio _ => 0

/-- The socket whose home a line has, when it is not this one. -/
def State.remoteHome (s : State) (line : Nat) : Option Nat :=
  match s.classify (line * 128) with
  | .remote n => some n
  | _ => none

/-- Whether a line is CXL memory. -/
def State.isCxl (s : State) (line : Nat) : Bool :=
  match s.classify (line * 128) with
  | .cxl _ _ => true
  | _ => false

/-- Walled memory: the union of the enabled WW_RANGEs, in 32 MiB units (R497). -/
def State.walledMem (s : State) (pa : Nat) : Bool :=
  (List.range 16).any (fun n =>
    let r := s.reg 15 2 WW_RANGE [n]
    bitOf r 54 && within (field r 0 27) (pa / 2 ^ 25) (field r 27 27))

/-- The LLC slice of a die that a line goes to (R280): its die index. -/
def sliceOf (line : Nat) : Nat := foldSel 5 line 9
/-- The slice of a die that serves a line, as 32 × die + die index. -/
def llcOf (die line : Nat) : Nat := 32 * die + sliceOf line

/-- Column bits below the rank selection, c of R355: 7 for x4 ranks and 6 for x8 ranks. -/
def State.chanC (s : State) (ch : Nat) : Nat :=
  if s.flag (8 + ch / 8) (ch % 8) MEM_CFG [] MEM_CFG_WIDTH then 6 else 7

/-- Where a channel line lies in its DRAM (Table 11-6). -/
structure DramAddr where
  /-- The bank group sent, the field XOR row[2:0]. -/
  group : Nat
  bank : Nat
  /-- The DRAM column: 16 × the column burst. -/
  column : Nat
  rank : Nat
  row : Nat
  deriving DecidableEq, Repr

/-- R355: the address of a channel line for c column bits and a rank count. -/
def dramAddr (c ranks chline : Nat) : DramAddr :=
  let q := chline / 2 ^ (c + 5)
  let row := q / ranks
  { group := chline % 8 ^^^ row % 8, bank := chline / 2 ^ (c + 3) % 4, column := 16 * (chline / 8 % 2 ^ c), rank := q % ranks, row := row }

/-- The DRAM address of a line of a channel. -/
def State.chanAddr (s : State) (ch chline : Nat) : DramAddr :=
  dramAddr (s.chanC ch) (s.fld (8 + ch / 8) (ch % 8) MEM_CFG [] MEM_CFG_RANKS + 1) chline

/-- Rank of a channel line (R355). -/
def State.chanRank (s : State) (ch chline : Nat) : Nat := (s.chanAddr ch chline).rank

/-- A capacity in lines: 64 MiB units of MEM_CFG.CAP are 2^19 lines (R339, R355). -/
def State.chanLines (s : State) (ch : Nat) : Nat := s.fld (8 + ch / 8) (ch % 8) MEM_CFG [] MEM_CFG_CAP * 2 ^ 19

end Sys2Proof.Machine
end

