-- ==== Sys2Proof/Machine/Words.lean ====
section
/-! DEFINITION. What stores do to memory words and their tag bytes (03_tagged_word.md, R62, R66 to R69, R84): whole-word and
sub-word writes, colours, and masked writes of a line. -/
set_option autoImplicit false
namespace Sys2Proof.Machine

/-- A word with some of its 72 bits inverted. -/
def flipWord (w : Word) (bits : Nat) : Word := ⟨w.val ^^^ v64 bits, w.tag ^^^ BitVec.ofNat 8 (bits / 2 ^ 64)⟩
/-- A data or pointer word with a colour. -/
def Word.withColour (w : Word) (c : BitVec 6) : Word := ⟨w.val, (w.tag &&& 0xC0) ||| c.setWidth 8⟩

/-- R62, R66, R69: a whole-word store. Data and pointer keep the colour of the word, which counts as 0 where the old word
is system or poison; system and poison replace it with their payload or code. -/
def storeWhole (old new : Word) : Word :=
  match new.cls with
  | .data => Word.withColour ⟨new.val, 0x00⟩ old.colour
  | .pointer => Word.withColour ⟨new.val, 0x40⟩ old.colour
  | .system => new
  | .poison => new

/-- The value of a word with the bytes of a mask replaced. -/
def mergeBytes (old new : BitVec 64) (mask : Nat) : BitVec 64 :=
  foldN 8 (fun v i => if natBit mask i then setField v (8 * i) 8 (field new (8 * i) 8) else v) old

/-- R62, R67: a sub-word store merges its bytes and makes the word data class, keeping its colour; a poison word stays
poison with its code. -/
def storeSub (old : Word) (new : BitVec 64) (mask : Nat) : Word :=
  if old.isPoison then ⟨mergeBytes old.val new mask, old.tag⟩
  else Word.withColour ⟨mergeBytes old.val new mask, 0x00⟩ old.colour

/-- R67: a sub-word store of poison makes the word poison with the source's code; a poison word keeps its own. -/
def storeSubPoison (old : Word) (code : BitVec 6) : Word := if old.isPoison then old else Word.poison code

/-- R69, R140: STCOL of a colour. -/
def setColour (old : Word) (c : BitVec 6) : Word :=
  match old.cls with
  | .data => Word.withColour old c
  | .pointer => Word.withColour old c
  | .system => old
  | .poison => old

/-- R140: STCOL with a poison gb. -/
def setColourPoison (old : Word) (code : BitVec 6) : Word :=
  match old.cls with
  | .data => Word.poison code
  | .pointer => Word.poison code
  | .system => old
  | .poison => old

/-- R331: a masked write of one word: whole when all eight bytes are set, sub-word otherwise, nothing with no byte set. -/
def maskWord (old new : Word) (mask : Nat) : Word :=
  if mask % 256 = 0 then old
  else if mask % 256 = 255 then storeWhole old new
  else if new.isPoison then storeSubPoison old new.aux
  else storeSub old new.val (mask % 256)

/-- The mask of a line written as it is held: a writeback carries 16 words with their tags (Table 10-4), so memory takes the
words with their classes and colours. Bit 128 tells it from a store that sets every byte, which keeps the colour of a data
word (R84). -/
def backMask : Nat := 2 ^ 129 - 1

/-- A masked write of a line: 128 mask bits, 16 words; bit 128 writes the words as they are. -/
def maskLine (old new : List Word) (mask : Nat) : List Word :=
  if mask / 2 ^ 128 = 1 then (List.range 16).map (fun i => new.getD i Word.zero)
  else (List.range 16).map (fun i => maskWord (old.getD i Word.zero) (new.getD i Word.zero) (mask / 2 ^ (8 * i)))

/-- The mask that sets every byte of a line. -/
def fullMask : Nat := 2 ^ 128 - 1

/-- R80, R81: the words of a line as CXL memory holds them: data class with colour 0, poison as it is. -/
def cxlLine (ws : List Word) : List Word := ws.map (fun w => if w.isPoison then w else Word.data w.val)

/-- R82: the 64-byte halves of a line, by bit, that hold a poison word. -/
def cxlPoison (ws : List Word) : Nat :=
  ((ws.take 8).any Word.isPoison).toNat + 2 * ((ws.drop 8).any Word.isPoison).toNat

/-- R81: the whole-word stores of pointer or system class in a masked write of a line. -/
def cxlDrops (ws : List Word) (mask : Nat) : Nat :=
  (List.range 16).countP (fun i => mask / 2 ^ (8 * i) % 256 == 255 &&
    ((ws.getD i Word.zero).isPointer || (ws.getD i Word.zero).isSystem))

end Sys2Proof.Machine
end

