-- ==== Sys2Proof/Machine/Memory.lean ====
section
/-! DEFINITION. The memory channels (11_memory_ecc.md): corrections, marks and the device probe (R346 to R350), granule states (R356 to R359), and reads and writes of a channel line. -/
set_option autoImplicit false
namespace Sys2Proof.Machine

/-- Die of the node of channel ch (0 to 15). -/
def chDie (ch : Nat) : Nat := 8 + ch / 8
/-- Unit of the node of channel ch. -/
def chUnit (ch : Nat) : Nat := ch % 8

/-- A field of a channel's register. -/
def State.mf (s : State) (ch : Nat) (r : RegDef) (f : RField) : Nat := s.fld (chDie ch) (chUnit ch) r [] f
/-- A field of a channel's register written. -/
def State.setMf (s : State) (ch : Nat) (r : RegDef) (f : RField) (x : Nat) : State :=
  s.setFld (chDie ch) (chUnit ch) r [] f x
/-- A counting field of a channel's register increased. -/
def State.addMf (s : State) (ch : Nat) (r : RegDef) (f : RField) (k : Nat) : State :=
  s.addFld (chDie ch) (chUnit ch) r [] f k

/-- Whether the ranks of a channel are x8. -/
def State.chX8 (s : State) (ch : Nat) : Bool := s.mf ch MEM_CFG MEM_CFG_WIDTH != 0
/-- The mark of a rank (R346). -/
def State.chMark (s : State) (ch rank : Nat) : Option Nat :=
  if s.mf ch MEM_MARK (MEM_MARK_VALID rank) = 0 then none else some (s.mf ch MEM_MARK (MEM_MARK_DEV rank))
/-- A mark set by hardware (R347, R348). -/
def State.setMark (s : State) (ch rank dev : Nat) : State :=
  let s := ((s.setMf ch MEM_MARK (MEM_MARK_DEV rank) dev).setMf ch MEM_MARK (MEM_MARK_HW rank) 1).setMf ch MEM_MARK
    (MEM_MARK_VALID rank) 1
  { s.addMf ch MEM_ERRCNT MEM_ERRCNT_MARKS 1 with lifeDue := true }

/-- The event as MEM_ERRLOG and the node's error record bank hold it. Two logged events keep the first (MEM_ERRLOG). -/
def State.memEvent (s : State) (ch chline dev kind cls : Nat) (patrol inj walled : Bool) (poison : Nat) : State :=
  let rank := s.chanRank ch chline
  let s := if s.mf ch MEM_ERRLOG MEM_ERRLOG_VALID != 0 then s else
    s.setReg (chDie ch) (chUnit ch) MEM_ERRLOG [] (v64 (chline % 2 ^ 32 + rank * 2 ^ 32 + dev * 2 ^ 35 + kind * 2 ^ 40 +
      patrol.toNat * 2 ^ 43 + 2 ^ 63))
  s.err (chDie ch) (chUnit ch) { ErrRec.mk1 cls (0x40 + kind) (chUnit ch * 8 + rank) chline with
    inj := inj, walled := walled, poison := poison }

/-- R347: the windows of a line in which the decoder corrected some symbols. -/
def State.memWindows (s : State) (ch chline : Nat) (found : List (Nat × Nat)) (patrol inj walled : Bool) : State :=
  let rank := s.chanRank ch chline
  let x8 := s.chX8 ch
  let devs := (found.map (fun e => symDev x8 e.1)).eraseDups
  let c := s.chan ch
  match devs with
  | [d] =>
    let w := winStep (tget c.devWin ⟨0, 0⟩ (32 * rank + d)) s.time
    let s := s.setChan ch { c with devWin := tset c.devWin ⟨0, 0⟩ (32 * rank + d) w }
    if w.ce = max 1 (s.mf ch MEM_THRESH MEM_THRESH_DEV_CE) then
      match s.chMark ch rank with
      | none =>
        if s.mf ch MEM_THRESH MEM_THRESH_MARK_AUTO != 0 then
          (s.setMark ch rank d).memEvent ch chline d 2 4 patrol inj walled 0
        else s.memEvent ch chline d 7 1 patrol inj walled 0
      | some m => if m = d then s else s.memEvent ch chline d 5 1 patrol inj walled 0
    else s
  | _ =>
    let w := winStep (tget c.rankWin ⟨0, 0⟩ rank) s.time
    if w.ce ≥ max 1 (s.mf ch MEM_THRESH MEM_THRESH_RANK_CE) then
      (s.setChan ch { c with rankWin := terase c.rankWin rank }).memEvent ch chline 0 6 1 patrol inj walled 0
    else s.setChan ch { c with rankWin := tset c.rankWin ⟨0, 0⟩ rank w }

/-- The symbol errors of a stored line forgotten: the line has been rewritten. -/
def State.clearRaw (s : State) (ch chline : Nat) : State :=
  s.setChan ch { s.chan ch with raw := terase (s.chan ch).raw chline }

/-- A stored line rewritten with some words, without symbol errors. -/
def State.rewrite (s : State) (ch chline : Nat) (ws : List Word) : State := (s.setDramLine ch chline ws).clearRaw ch chline

/-- The words of a stored line with the symbol errors that stand in it and the corrections of a decode: what the channel returns (R345). -/
def State.decoded (s : State) (ch chline : Nat) (errs found : List (Nat × Nat)) : List Word :=
  let left := errNorm (errs ++ found)
  if left = [] then s.dramLine ch chline else lineWith (s.dramLine ch chline) left

/-- R347, R350: a corrected line is counted and entered in the windows of the symbols corrected. -/
def State.memCounted (s : State) (ch chline : Nat) (found : List (Nat × Nat)) (patrol inj walled : Bool) : State :=
  ((s.addMf ch MEM_ERRCNT MEM_ERRCNT_CE 1).count (chDie ch) (chUnit ch) cntMem 0x03 1 walled).memWindows ch chline found patrol inj walled

/-- R350: a corrected line is counted, and rewritten with the words returned when CWB is 1. -/
def State.memCorrected (s : State) (ch chline : Nat) (ws : List Word) (found : List (Nat × Nat)) (patrol inj walled : Bool) : State :=
  let s := s.memCounted ch chline found patrol inj walled
  if s.mf ch MEM_CTL MEM_CTL_CWB != 0 then s.rewrite ch chline ws else s

/-- R349: an uncorrectable line is poisoned and counted. -/
def State.memPoison (s : State) (ch chline : Nat) : State :=
  (s.rewrite ch chline (poisonLine 0x01)).addMf ch MEM_ERRCNT MEM_ERRCNT_UE 1

/-- R348: the device probe of an uncorrectable line; `bad` are the devices whose bits differ from the written patterns. A line that the
new mark corrects is rewritten with what its decode returns and counts in the windows as any corrected line does (entry 96). -/
def State.memProbe (s : State) (ch chline : Nat) (errs : List (Nat × Nat)) (bad : List Nat) (patrol inj walled : Bool) :
    State :=
  let rank := s.chanRank ch chline
  let mark := s.chMark ch rank
  let failing := (bad.eraseDups).filter (fun d => !(mark == some d))
  let s := s.addMf ch MEM_ERRCNT MEM_ERRCNT_PROBES 1
  match failing, mark with
  | [d], none =>
    let s := s.setMark ch rank d
    match eccDecode (s.chX8 ch) (s.mf ch MEM_CTL MEM_CTL_POSTMARK != 0) (some d) errs with
    | .flagged => (s.memPoison ch chline).memEvent ch chline d 2 4 patrol inj walled 1
    | .clean => (s.memCounted ch chline [] patrol inj walled).memEvent ch chline d 2 4 patrol inj walled 0
    | .corrected found =>
      ((s.memCounted ch chline found patrol inj walled).rewrite ch chline (s.decoded ch chline errs found)).memEvent ch chline d 2 4 patrol inj
        walled 0
  | [d], some _ => (s.memPoison ch chline).memEvent ch chline d 5 3 patrol inj walled 1
  | [], _ => (s.memPoison ch chline).memEvent ch chline 0 3 3 patrol inj walled 1
  | _ :: _ :: _, _ => (s.memPoison ch chline).memEvent ch chline 0 4 3 patrol inj walled 1

/-- A decoded read of a line held in DRAM (R345 to R350): the words, and the state after correction, probe or poison. -/
def State.dramRead (s : State) (ch chline : Nat) (bad : List Nat) (patrol walled : Bool) : List Word × State :=
  let raw := tget (s.chan ch).raw ⟨[], false, []⟩ chline
  match eccDecode (s.chX8 ch) (s.mf ch MEM_CTL MEM_CTL_POSTMARK != 0) (s.chMark ch (s.chanRank ch chline)) raw.syms with
  | .clean => (s.decoded ch chline raw.syms [], s)
  | .corrected found =>
    let ws := s.decoded ch chline raw.syms found
    (ws, s.memCorrected ch chline ws found patrol raw.inj walled)
  | .flagged =>
    let s' :=
      if s.mf ch MEM_CTL MEM_CTL_PROBE != 0 then s.memProbe ch chline raw.syms (raw.bad ++ bad) patrol raw.inj walled
      else (s.memPoison ch chline).memEvent ch chline 0 1 3 patrol raw.inj walled 1
    (s'.dramLine ch chline, s')

/-- Granule of a channel line (R356). -/
def granOf (chline : Nat) : Nat := chline / 512

/-- The done map of a FILLING granule (R356). -/
def Chan.fillMap (c : Chan) (g : Nat) : Option Nat := (c.fill.find? (fun e => e.1 == g)).map (fun e => e.2)

/-- Whether a line is held in DRAM: its granule is VALID, or FILLING with its done bit set (Table 11-7). -/
def Chan.lineDone (c : Chan) (chline : Nat) : Bool :=
  tget c.valid false (granOf chline) ||
    match c.fillMap (granOf chline) with
    | some m => natBit m (chline % 512)
    | none => false

/-- A line with the stalled writes to it applied (R359, R364): a read behind them returns what they write. -/
def stalledLine (ws : List StalledWrite) (chline : Nat) (base : List Word) : List Word :=
  (ws.filter (fun w => w.chline == chline)).foldl (fun l w => maskLine l w.data w.mask) base

/-- Table 11-7, read of a line. -/
def State.chanRead (s : State) (ch chline : Nat) (bad : List Nat) (patrol walled : Bool) : List Word × State :=
  let s := s.count (chDie ch) (chUnit ch) cntMem 0x01 1 walled
  if (s.chan ch).lineDone chline then s.dramRead ch chline bad patrol walled
  else (stalledLine (s.chan ch).stalled chline zeroLine, s.count (chDie ch) (chUnit ch) cntMem 0x05 1 walled)

/-- An armed injection of a node meets a qualifying event of a target while injection is enabled (R592, R594, R595): the action's parameters, and REMAIN,
DONE or SKIPPED counted. -/
def State.inject (s : State) (die unit target : Nat) (walled : Bool) : Option Nat × State :=
  let rem := s.fld die unit ERB_INJ_STATUS [] ERB_INJ_STATUS_REMAIN
  if rem = 0 ∨ !s.flag 15 0 ERB_INJ_GLOBAL [] ERB_INJ_GLOBAL_EN ∨ s.fld die unit ERB_INJ_CTL [] ERB_INJ_CTL_TARGET ≠ target then (none, s)
  else if walled then (none, s.addFld die unit ERB_INJ_STATUS [] ERB_INJ_STATUS_SKIPPED 1)
  else
    let s := (s.setFld die unit ERB_INJ_STATUS [] ERB_INJ_STATUS_REMAIN (rem - 1)).addFld die unit ERB_INJ_STATUS []
      ERB_INJ_STATUS_DONE 1
    let s := if rem = 1 then s.setFld die unit ERB_INJ_STATUS [] ERB_INJ_STATUS_ARMED 0 else s
    (some (s.fld die unit ERB_INJ_CTL [] ERB_INJ_CTL_ACTION), s)

/-- Word bits that a flip of a node inverts (R594): BIT, and the next one for FLIP2. -/
def State.flipBits (s : State) (die unit : Nat) (dbl : Bool) : Nat :=
  let b := s.fld die unit ERB_INJ_PARAM [] ERB_INJ_PARAM_BIT
  2 ^ b + (if dbl then 2 ^ ((b + 1) % 72) else 0)

/-- The symbols that a SYMBOLS injection inverts (Table 20-4). -/
def injSymbols (x8 : Bool) (dev n : Nat) : List Nat :=
  if x8 then (List.range (min n 16)).map (fun i => dev % 10 * 16 + i)
  else (List.range (min n 8)).map (fun i => dev % 20 * 8 + i) ++
    (List.range (n - 8)).map (fun i => (dev + 1) % 20 * 8 + i)

/-- A line stored in DRAM, with the injection of Table 20-4. -/
def State.dramWrite (s : State) (ch chline : Nat) (ws : List Word) (walled : Bool) : State :=
  let s := (s.setDramLine ch chline ws).clearRaw ch chline
  match s.inject (chDie ch) (chUnit ch) 1 walled with
  | (some _, s) =>
    let syms := injSymbols (s.chX8 ch) (s.mf ch ERB_INJ_PARAM ERB_INJ_PARAM_DEV)
      (max 1 (s.mf ch ERB_INJ_PARAM ERB_INJ_PARAM_SYMBOLS))
    s.setChan ch { s.chan ch with raw := tput (s.chan ch).raw chline ⟨syms.map (fun x => (x, 0xFF)), true, []⟩ }
  | (none, s) => s

/-- The done bit of a line set; when all 512 are set, the valid bit is set and the entry frees (R358). -/
def Chan.setDone (c : Chan) (chline : Nat) : Chan :=
  let g := granOf chline
  match c.fillMap g with
  | none => c
  | some m =>
    let m' := m ||| 2 ^ (chline % 512)
    if m' = 2 ^ 512 - 1 then { c with fill := c.fill.filter (fun e => e.1 != g), valid := tset c.valid false g true }
    else { c with fill := c.fill.map (fun e => if e.1 = g then (g, m') else e) }

/-- A write of a line of a VALID or FILLING granule (Table 11-7). One of less than the line reads a stored line first, decoded as any read
is (R349, R350). -/
def State.chanStore (s : State) (ch chline : Nat) (ws : List Word) (mask : Nat) (walled : Bool) : State :=
  let part : Bool := mask % 2 ^ 128 != 2 ^ 128 - 1
  let (old, s) :=
    if !(s.chan ch).lineDone chline then (zeroLine, s)
    else if part then s.dramRead ch chline [] false walled
    else (s.dramLine ch chline, s)
  let s := s.dramWrite ch chline (maskLine old ws mask) walled
  s.setChan ch ((s.chan ch).setDone chline)

/-- Whether a granule may take a write now: it is VALID or FILLING, or a fill entry is free (R358). -/
def Chan.canWrite (c : Chan) (chline : Nat) : Bool :=
  tget c.valid false (granOf chline) || (c.fillMap (granOf chline)).isSome || decide (c.fill.length < 64)

/-- A fill entry allocated to an INVALID granule (R358). -/
def Chan.allocFill (c : Chan) (g : Nat) : Chan :=
  if tget c.valid false g || (c.fillMap g).isSome then c else { c with fill := c.fill ++ [(g, 0)] }

/-- The first INVALID granule from a granule on. -/
def Chan.nextInvalid (c : Chan) (g fuel : Nat) : Nat :=
  match fuel with
  | 0 => g
  | f + 1 => if tget c.valid false g || (c.fillMap g).isSome then c.nextInvalid (g + 1) f else g

/-- The Groundskeeper's unit on each I/O die. -/
def gkUnit : Nat := 0x03A

/-- GK_INIT_STATUS.DONE of a channel set, and ALL with the last (R360). -/
def State.initDone (s : State) (ch : Nat) : State :=
  let d := s.fld (chDie ch) gkUnit GK_INIT_STATUS [] GK_INIT_STATUS_DONE ||| 2 ^ (ch % 8)
  let s := s.setFld (chDie ch) gkUnit GK_INIT_STATUS [] GK_INIT_STATUS_DONE d
  if d = 255 then s.setFld (chDie ch) gkUnit GK_INIT_STATUS [] GK_INIT_STATUS_ALL 1 else s

/-- Whether a channel has no INVALID granule left (R360); one without capacity has none. -/
def State.allInit (s : State) (ch : Nat) : Bool :=
  let c := s.chan ch
  decide (s.chanLines ch ≤ 512 * c.nextInvalid 0 (c.valid.length + c.fill.length + 1))

/-- A granule of a channel leaves INVALID for FILLING, unless it has (R358); with the last one DONE is set (R360). -/
def State.fillStart (s : State) (ch g : Nat) : State :=
  let c := s.chan ch
  let c' := c.allocFill g
  let s := s.setChan ch c'
  if c'.fill.length ≠ c.fill.length ∧ s.allInit ch then s.initDone ch else s

/-- Stalled first writes take entries in their order of arrival once entries are free (R359). -/
def State.chanDrain (s : State) (ch fuel : Nat) : State :=
  match fuel with
  | 0 => s
  | n + 1 =>
    match (s.chan ch).stalled with
    | [] => s
    | w :: rest =>
      if (s.chan ch).canWrite w.chline then
        let s := (s.setChan ch { s.chan ch with stalled := rest }).fillStart ch (granOf w.chline)
        (s.chanStore ch w.chline w.data w.mask w.walled).chanDrain ch n
      else s

/-- Table 11-7, write to a line, with the stall of R359. -/
def State.chanWrite (s : State) (ch chline : Nat) (ws : List Word) (mask : Nat) (walled : Bool) : State :=
  let s := s.count (chDie ch) (chUnit ch) cntMem 0x02 1 walled
  let c := s.chan ch
  if c.canWrite chline && !(c.stalled.any (fun w => granOf w.chline == granOf chline)) then
    ((s.fillStart ch (granOf chline)).chanStore ch chline ws mask walled).chanDrain ch 64
  else
    let s := s.setChan ch { c with stalled := c.stalled ++ [⟨chline, ws, mask, walled⟩] }
    (s.setMf ch MEM_STATUS MEM_STATUS_VG_STALL 1).addMf ch MEM_VG_STATUS MEM_VG_STATUS_STALLS 1

end Sys2Proof.Machine
end

