-- ==== Sys2Proof/Machine/Caches.lean ====
section
/-! DEFINITION. The cache arrays (09_cache_hierarchy.md): L1 replacement (R282), the L2 and LLC with their LFSR (R283), the
victim buffer (R285 to R287), errors and way disabling (R290 to R296), and what a die does to its copies of a line. -/
set_option autoImplicit false
namespace Sys2Proof.Machine

/-- A message with nothing but its kind, ends, line and world. -/
def mkMsg (kind : MsgKind) (src dst : Agent) (line : Nat) (walled : Bool) : Msg :=
  { kind := kind, src := src, dst := dst, line := line, walled := walled, pl3 := false, retried := false, nc := false,
    dirty := false, grant := .none, mask := 0, data := [], core := none, refused := .nack }

/-- The virtual channels of Table 10-4. -/
inductive VChan where
  | request | snoop | response | data
  deriving DecidableEq, Repr

/-- The channel of a message kind (Table 10-4). -/
def msgChan (k : MsgKind) : VChan :=
  match k with
  | .rdS | .rdX | .upg | .rdNC => .request
  | .fwdS | .fwdX | .inv => .snoop
  | .ack | .cmp | .wbAck | .nack => .response
  | .wrInv | .wbM | .evC | .data => .data

/-- The state of a tile's power domain: 0 to 4 for T0 to T4. -/
def State.tileSt (s : State) (lt : Nat) : Nat := s.fld (ltDie lt) 0x050 PWR_DOM_STATUS [ltIdx lt] PWR_DOM_STATUS_STATE

/-- Whether an agent is dead to home i (R338, HOME_DEAD). -/
def State.homeDead (s : State) (i : Nat) (a : Agent) : Bool :=
  match a with
  | .llc x => natBit (s.fld (8 + i) 0x038 HOME_DEAD [] HOME_DEAD_DIES) (x / 32)
  | .socket n => natBit (s.fld (8 + i) 0x038 HOME_DEAD [] HOME_DEAD_SOCKETS) n
  | .iommu n => natBit (s.fld (8 + i) 0x038 HOME_DEAD [] HOME_DEAD_IOMMU) n
  | .tile _ | .home _ | .nca _ => false

/-- A coherence message for another socket: discarded where its link is down (R494) or carries no coherent traffic (R493). -/
def State.emitCoh (s : State) (m : Msg) : State :=
  match m.dst with
  | .socket n => if s.fbReach n && !s.fbDiff n then s.emit (.coh m) else s
  | .tile _ | .llc _ | .home _ | .iommu _ | .nca _ => s

/-- A message sent: to another socket it leaves the package, to a dead agent it is not sent (R338). -/
def State.send (s : State) (m : Msg) : State :=
  let dead : Bool := match m.src with
    | .home i => s.homeDead i m.dst
    | .tile _ | .llc _ | .socket _ | .iommu _ | .nca _ => false
  if dead then s
  else match m.dst with
    | .socket _ => s.emitCoh m
    | .tile t => if (s.tile t).dead then s else { s with net := s.net ++ [m] }
    | .llc _ | .home _ | .iommu _ | .nca _ => { s with net := s.net ++ [m] }

/-- A line removed from a core's L1I, L1D and fill shelf (R240, R277). -/
def Core.dropLine (c : Core) (line : Nat) : Core :=
  { c with l1i := c.l1i.filter (fun p => p.2 != line), l1d := c.l1d.filter (fun p => p.2 != line),
           shelf := c.shelf.filter (fun e => e.line != line) }

/-- A snoop that hits a shelf entry of an arbour's cores invalidates it (R240). -/
def State.shelfDrop (s : State) (lt line : Nat) : State :=
  let drop := fun (c : Core) => { c with shelf := c.shelf.filter (fun e => e.line != line) }
  (s.setCore (2 * lt) (drop (s.core (2 * lt)))).setCore (2 * lt + 1) (drop (s.core (2 * lt + 1)))

/-- A line removed from every L1 of an arbour. -/
def State.l1Drop (s : State) (lt line : Nat) : State :=
  let s := s.setCore (2 * lt) ((s.core (2 * lt)).dropLine line)
  s.setCore (2 * lt + 1) ((s.core (2 * lt + 1)).dropLine line)

/-- The MRU bits of an L1D set after a use of a way (R282). -/
def mruUse (bits way ways : Nat) : Nat :=
  let b := bits ||| 2 ^ way
  if b % 2 ^ ways = 2 ^ ways - 1 then 2 ^ way else b

/-- The 7-bit tree of an L1I set after a use of a way: each node on its path points away from it (R282). -/
def treeUse (t way : Nat) : Nat :=
  let b2 := way / 4; let b1 := way / 2 % 2; let b0 := way % 2
  let put := fun (t i v : Nat) => (setField (v64 t) i 1 v).toNat
  put (put (put t 0 (1 - b2)) (1 + b2) (1 - b1)) (3 + 2 * b2 + b1) (1 - b0)

/-- The victim way of an L1I set: the path the tree's bits name. -/
def treeVictim (t : Nat) : Nat :=
  let b2 := (natBit t 0).toNat
  let b1 := (natBit t (1 + b2)).toNat
  let b0 := (natBit t (3 + 2 * b2 + b1)).toNat
  4 * b2 + 2 * b1 + b0

/-- A use of a line in the L1D: a hit moves its MRU bit, a miss installs it (R282). -/
def Core.l1dUse (c : Core) (line : Nat) : Core :=
  let set := line % 43
  let ways := if set = 42 then 8 else 12
  let way := match (List.range ways).find? (fun w => tget c.l1d (2 ^ 60) (12 * set + w) == line) with
    | some w => w
    | none =>
      match (List.range ways).find? (fun w => (tfind c.l1d (12 * set + w)).isNone) with
      | some w => w
      | none =>
        match (List.range ways).find? (fun w => !natBit (tget c.l1dMru 0 set) w) with
        | some w => w
        | none => 0
  { c with l1d := tput c.l1d (12 * set + way) line, l1dMru := tset c.l1dMru 0 set (mruUse (tget c.l1dMru 0 set) way ways) }

/-- A use of a line in the L1I. -/
def Core.l1iUse (c : Core) (line : Nat) : Core :=
  let set := line % 64
  let way := match (List.range 8).find? (fun w => tget c.l1i (2 ^ 60) (8 * set + w) == line) with
    | some w => w
    | none =>
      match (List.range 8).find? (fun w => (tfind c.l1i (8 * set + w)).isNone) with
      | some w => w
      | none => treeVictim (tget c.l1iTree 0 set)
  { c with l1i := tput c.l1i (8 * set + way) line, l1iTree := tset c.l1iTree 0 set (treeUse (tget c.l1iTree 0 set) way) }

/-- One step of a replacement LFSR, x^31 + x^28 + 1 (R283). -/
def lfsrStep (x : Nat) : Nat := (x * 2 + (xor (natBit x 30) (natBit x 27)).toNat) % 2 ^ 31

/-- The victim way of R283, the LFSR already stepped: the lowest invalid allowed way, else the first allowed way in the
order that starts at s[3:0]. -/
def pickWay (lfsr : Nat) (allowed used : Nat → Bool) : Option Nat :=
  match (List.range 16).find? (fun w => allowed w && !used w) with
  | some w => some w
  | none => ((List.range 16).map (fun i => (lfsr + i) % 16)).find? allowed

/-- The L2 line of a tile that a request hits: its world's, or any world's at PL3 (R279). -/
def State.l2Find (s : State) (lt line : Nat) (walled pl3 : Bool) : Option (Nat × CacheLine) :=
  (s.tile lt).l2.find? (fun p => p.1 / 16 == line % 1024 && p.2.line == line && (pl3 || p.2.walled == walled))

/-- The L2 line of a tile whatever its world. -/
def State.l2Any (s : State) (lt line : Nat) : Option (Nat × CacheLine) := s.l2Find lt line false true

/-- The L2 line at an entry written. -/
def State.l2Put (s : State) (lt key : Nat) (l : CacheLine) : State :=
  s.setTile lt { s.tile lt with l2 := tput (s.tile lt).l2 key l }

/-- The LLC line of a slice that a request hits (R279). -/
def State.llcFind (s : State) (lt line : Nat) (walled pl3 : Bool) : Option (Nat × CacheLine) :=
  (s.slice lt).lines.find? (fun p => p.1 / 16 == line % 2048 && p.2.line == line && (pl3 || p.2.walled == walled))

/-- The LLC line at an entry written. -/
def State.llcPut (s : State) (lt key : Nat) (l : CacheLine) : State :=
  s.setSlice lt { s.slice lt with lines := tput (s.slice lt).lines key l }

/-- The LLC line at an entry removed. -/
def State.llcDel (s : State) (lt key : Nat) : State :=
  s.setSlice lt { s.slice lt with lines := terase (s.slice lt).lines key }

/-- Ways of an L2 that may not allocate: DIS, HWDIS, or going out of service by hardware (R293). A way re-enabled while its flush is
pending allocates again at once (R296). -/
def State.l2Off (s : State) (lt way : Nat) : Bool :=
  let r := s.reg (ltDie lt) (ltIdx lt) L2_WAY_DIS []
  bitOf r way || bitOf r (16 + way) || natBit (s.tile lt).hwPend way

/-- Unit of the LLC node of a tile. -/
def llcUnit (lt : Nat) : Nat := 0x020 + ltIdx lt

/-- Ways of an LLC slice that may not allocate: as for the L2, and those that a mask change flushes (R300). -/
def State.llcOff (s : State) (lt way : Nat) : Bool :=
  let r := s.reg (ltDie lt) (llcUnit lt) LLC_WAY_DIS []
  let moving : Bool := match (s.slice lt).newMask with
    | some (_, ways) => natBit ways way
    | none => false
  bitOf r way || bitOf r (16 + way) || natBit (s.slice lt).hwPend way || moving

/-- Whether a way of a slice lies inside the Walled mask (R299). On PM-8512-X1 no way does. -/
def State.llcWalledWay (s : State) (lt way : Nat) : Bool :=
  s.part == .a1 && natBit (s.fld (ltDie lt) (llcUnit lt) LLC_WALLED_WAYS [] LLC_WALLED_WAYS_MASK) way

/-- The ways a cache would have enabled, after one more is disabled: R295. -/
def State.l2WaysOk (s : State) (lt disabled : Nat) : Bool :=
  let _ := s
  let _ := lt
  decide ((List.range 16).countP (fun w => !natBit disabled w) ≥ 4)

/-- R295 for an LLC slice, by its disabled ways and its Walled mask. -/
def State.llcWaysOk (s : State) (disabled mask : Nat) : Bool :=
  let on := (List.range 16).filter (fun w => !natBit disabled w)
  if s.part = .a1 then decide (on.countP (fun w => !natBit mask w) ≥ 2) && decide (on.countP (fun w => natBit mask w) ≥ 1)
  else decide (on.length ≥ 2)

/-- R295 for a slice at every moment: under its present Walled mask and under the one that a change brings. -/
def State.llcWaysAlways (s : State) (lt disabled : Nat) : Bool :=
  s.llcWaysOk disabled (s.fld (ltDie lt) (llcUnit lt) LLC_WALLED_WAYS [] LLC_WALLED_WAYS_MASK) &&
    (match (s.slice lt).newMask with
     | some (m, _) => s.llcWaysOk disabled m
     | none => true)

/-- The error window of a way counts an error (R292): the new register value and whether the way reached its threshold. -/
def wayWindow (r : BitVec 64) (now : Nat) (dbl : Bool) : BitVec 64 × Bool :=
  let ce := field r 0 5; let ue := field r 8 2; let ws := field r 16 48
  let fresh : Bool := decide (ce = 0 ∧ ue = 0) || decide (now ≥ ws * 2 ^ 16 + 0x4E94914F0000)
  let ce' := (if fresh then 0 else ce) + (if dbl then 0 else 1)
  let ue' := (if fresh then 0 else ue) + (if dbl then 1 else 0)
  let ws' := if fresh then now / 2 ^ 16 else ws
  (v64 (min ce' 16 + min ue' 2 * 2 ^ 8 + ws' * 2 ^ 16), decide (ce' ≥ 16) || decide (ue' ≥ 2))

/-- An error of an L2 way counted, and the way disabled by hardware at its threshold unless R295 forbids it (R292 to R294).
Answers whether the way is being disabled. -/
def State.l2WayErr (s : State) (lt way : Nat) (dbl inj walled : Bool) : Bool × State :=
  let die := ltDie lt
  let i := ltIdx lt
  let (r, hit) := wayWindow (s.reg die i L2_WAYERR [way]) s.time dbl
  let s := s.setReg die i L2_WAYERR [way] r
  let hw := s.fld die i L2_WAY_DIS [] L2_WAY_DIS_HWDIS ||| (s.tile lt).hwPend
  let off := s.fld die i L2_WAY_DIS [] L2_WAY_DIS_DIS ||| hw
  if !hit ∨ natBit hw way then (false, s)
  else if s.l2WaysOk lt (off ||| 2 ^ way) then
    let s := s.setFld die i L2_WAY_DIS [] L2_WAY_DIS_PENDING (s.fld die i L2_WAY_DIS [] L2_WAY_DIS_PENDING ||| 2 ^ way)
    (true, s.setTile lt { s.tile lt with hwPend := (s.tile lt).hwPend ||| 2 ^ way })
  else
    (false, (s.setFld die i L2_STATUS [] L2_STATUS_WAY_LIMIT 1).err die i
      { ErrRec.mk1 1 0x04 way 0 with inj := inj, walled := walled })

/-- An error of an LLC way counted, as for the L2; the victim buffer counts against way 0. -/
def State.llcWayErr (s : State) (lt way : Nat) (dbl inj walled : Bool) : Bool × State :=
  let die := ltDie lt
  let u := llcUnit lt
  let (r, hit) := wayWindow (s.reg die u LLC_WAYERR [way]) s.time dbl
  let s := s.setReg die u LLC_WAYERR [way] r
  let hw := s.fld die u LLC_WAY_DIS [] LLC_WAY_DIS_HWDIS ||| (s.slice lt).hwPend
  let off := s.fld die u LLC_WAY_DIS [] LLC_WAY_DIS_DIS ||| hw
  if !hit ∨ natBit hw way then (false, s)
  else if s.llcWaysAlways lt (off ||| 2 ^ way) then
    let s := s.setFld die u LLC_WAY_DIS [] LLC_WAY_DIS_PENDING (s.fld die u LLC_WAY_DIS [] LLC_WAY_DIS_PENDING ||| 2 ^ way)
    (true, s.setSlice lt { s.slice lt with hwPend := (s.slice lt).hwPend ||| 2 ^ way })
  else
    (false, (s.setFld die u LLC_STATUS [] LLC_STATUS_WAY_LIMIT 1).err die u
      { ErrRec.mk1 1 0x04 way 0 with inj := inj, walled := walled })

/-- The words of a line after its standing errors are met on a read: an uncorrectable word is poison 0x01 (R290). -/
def badWords (l : CacheLine) : CacheLine :=
  { l with data := l.bad.foldl (fun d b => if b.dbl ∧ b.word < 16 then lset d b.word (Word.poison 0x01) else d) l.data,
           bad := [] }

/-- The errors of an L2 line met on a read (R290, R291): each counted against the way; a poisoned word recorded, unless
the way goes out of service with it (R580); an uncorrectable tag entry is fatal. -/
def State.l2Check (s : State) (lt key : Nat) : State :=
  match tfind (s.tile lt).l2 key with
  | none => s
  | some l =>
    if l.bad = [] then s
    else
      let s' := s.l2Put lt key (badWords l)
      l.bad.foldl (fun s b =>
        let (off, s) := s.l2WayErr lt (key % 16) b.dbl b.inj l.walled
        if !b.dbl then s
        else if b.word ≥ 16 then s.fatalRec (ltDie lt) (ltIdx lt) 5
          { ErrRec.mk1 5 0x25 (key % 16) (l.line * 128) with inj := b.inj, walled := l.walled }
        else if off then s
        else s.err (ltDie lt) (ltIdx lt) { ErrRec.mk1 3 0x02 (key % 16) (l.line * 128 + 8 * b.word) with
          inj := b.inj, walled := l.walled, poison := 1 }) s'

/-- The errors of an LLC line met on a read. -/
def State.llcCheck (s : State) (lt key : Nat) : State :=
  match tfind (s.slice lt).lines key with
  | none => s
  | some l =>
    if l.bad = [] then s
    else
      let s' := s.llcPut lt key (badWords l)
      l.bad.foldl (fun s b =>
        let (off, s) := s.llcWayErr lt (key % 16) b.dbl b.inj l.walled
        if !b.dbl then s
        else if b.word ≥ 16 then s.fatalRec (ltDie lt) (llcUnit lt) 5
          { ErrRec.mk1 5 0x25 (key % 16) (l.line * 128) with inj := b.inj, walled := l.walled }
        else if off then s
        else s.err (ltDie lt) (llcUnit lt) { ErrRec.mk1 3 0x02 (key % 16) (l.line * 128 + 8 * b.word) with
          inj := b.inj, walled := l.walled, poison := 1 }) s'

/-- The errors of a victim-buffer entry met on a read; they count against way 0 of the slice. R291 names only lines of the L2 and the
LLC: an uncorrectable tag error of a victim-buffer entry is fatal with code 5 as well (DESIGN CHOICE, entry 50). -/
def State.vbCheck (s : State) (lt line : Nat) : State :=
  match (s.slice lt).vb.find? (fun l => l.line == line && l.bad != []) with
  | none => s
  | some l =>
    let x := s.slice lt
    let s' := s.setSlice lt { x with vb := x.vb.map (fun e => if e.line = line then badWords e else e) }
    l.bad.foldl (fun s b =>
      let (off, s) := s.llcWayErr lt 0 b.dbl b.inj l.walled
      if !b.dbl then s
      else if b.word ≥ 16 then s.fatalRec (ltDie lt) (llcUnit lt) 5
        { ErrRec.mk1 5 0x25 0 (l.line * 128) with inj := b.inj, walled := l.walled }
      else if off then s
      else s.err (ltDie lt) (llcUnit lt) { ErrRec.mk1 3 0x02 0 (l.line * 128 + 8 * b.word) with
        inj := b.inj, walled := l.walled, poison := 1 }) s'

/-- A line removed from a tile's L2 and L1s: dirty data is written back with WbM, a clean line is reported with EvC, and the
entry waits in the writeback buffer for WbAck (R309, R323). -/
def State.l2Evict (s : State) (lt key : Nat) : State :=
  let s := s.l2Check lt key
  match tfind (s.tile lt).l2 key with
  | none => s
  | some l =>
    let s := s.l1Drop lt l.line
    let dirty := l.st == .m
    let t := s.tile lt
    let s := s.setTile lt { t with l2 := terase t.l2 key, wb := t.wb ++ [⟨l.line, dirty, l.data⟩] }
    s.send { mkMsg (if dirty then .wbM else .evC) (.tile lt) (.llc (llcOf (ltDie lt) l.line)) l.line l.walled with
      data := if dirty then l.data else [] }

/-- The flip of an injection on a line written (R594): the target's action marks word 0, or the tag entry. -/
def State.injectLine (s : State) (die unit target word : Nat) (l : CacheLine) : CacheLine × State :=
  match s.inject die unit target l.walled with
  | (some a, s) => ({ l with bad := l.bad ++ [⟨word, a == 2, true⟩] }, s)
  | (none, s) => (l, s)

/-- A line installed in the L2 (R283), which evicts the victim way's line. With no way allowed nothing is installed. -/
def State.l2Install (s : State) (lt : Nat) (l : CacheLine) : State :=
  let die := ltDie lt
  let idx := ltIdx lt
  let set := l.line % 1024
  let lf := lfsrStep (s.fld die idx L2_LFSR [] L2_LFSR_STATE)
  let s := s.setFld die idx L2_LFSR [] L2_LFSR_STATE lf
  match pickWay lf (fun w => !s.l2Off lt w) (fun w => (tfind (s.tile lt).l2 (16 * set + w)).isSome) with
  | none => s
  | some w =>
    let s := s.l2Evict lt (16 * set + w)
    let (l, s) := s.injectLine die idx 5 0 l
    let (l, s) := s.injectLine die idx 6 16 l
    s.l2Put lt (16 * set + w) l

/-- The errors of whatever L2 line holds an address met on a read. -/
def State.l2CheckLine (s : State) (lt line : Nat) : State :=
  match s.l2Any lt line with
  | some (key, _) => s.l2Check lt key
  | none => s

/-- What a tile holds of a line, removed: the dirty data of an M line or of a WbM in its writeback buffer. The L1s and
the fill shelves lose the line (R240, R277). -/
def State.tileTake (s : State) (lt line : Nat) : Option (List Word) × State :=
  let s := s.l1Drop lt line
  let s := s.l2CheckLine lt line
  match s.l2Any lt line with
  | some (key, l) =>
    let t := s.tile lt
    ((if l.st = .m then some l.data else none), s.setTile lt { t with l2 := terase t.l2 key })
  | none =>
    match (s.tile lt).wb.find? (fun w => w.line == line) with
    | some w => ((if w.dirty then some w.data else none), s)
    | none => (none, s)

/-- What a tile holds of a line, downgraded to S: the dirty data of an M line. A fill-shelf copy is removed (R240). -/
def State.tileDown (s : State) (lt line : Nat) : Option (List Word) × State :=
  let s := (s.l2CheckLine lt line).shelfDrop lt line
  match s.l2Any lt line with
  | some (key, l) =>
    ((if l.st = .m then some l.data else none), s.l2Put lt key { l with st := .s })
  | none =>
    match (s.tile lt).wb.find? (fun w => w.line == line) with
    | some w => ((if w.dirty then some w.data else none), s)
    | none => (none, s.l1Drop lt line)

/-- The errors of a tile's copy of a line met on a forward that leaves it (R290), and its shelf entry dropped (R240). -/
def State.tileMeet (s : State) (lt line : Nat) : State := (s.l2CheckLine lt line).shelfDrop lt line

/-- The newest data a tile holds of a line, unchanged: of an M line or of a WbM on its way. -/
def State.tilePeek (s : State) (lt line : Nat) : Option (List Word) :=
  match s.l2Any lt line with
  | some (_, l) => if l.st = .m then some l.data else none
  | none =>
    match (s.tile lt).wb.find? (fun w => w.line == line) with
    | some w => if w.dirty then some w.data else none
    | none => none

/-- Tiles of a slice's die that the presence vector of a line names (R309). -/
def State.presTiles (s : State) (lt pres : Nat) : List Nat :=
  ((List.range 32).map (fun d => 32 * ltDie lt + d)).filter (fun t => natBit pres (s.scanOf t))

/-- A line's data replaced whole by its holder's: the errors of its old words are gone with them (R290). -/
def CacheLine.fresh (l : CacheLine) (ws : List Word) : CacheLine := { l with data := ws, bad := l.bad.filter (fun b => decide (b.word ≥ 16)) }

/-- A tile no longer counts as a holder of any line of its die (R309, R338). A line that it alone held in M or E may be lost: the LLC copy
is poisoned with code 0x03 and recorded (R337), as a line whose owner is dead. -/
def State.presClear (s : State) (lt : Nat) : State :=
  let b := s.scanOf lt
  (List.range 32).foldl (fun (s : State) d =>
    let sl := 32 * ltDie lt + d
    (s.slice sl).lines.foldl (fun (s : State) p =>
      if !natBit p.2.pres b then s
      else if p.2.excl then
        (s.llcPut sl p.1 { p.2.fresh (poisonLine 0x03) with st := .m, pres := 0, excl := false }).err (ltDie lt) (llcUnit sl)
          { ErrRec.mk1 4 0x05 (lt % 32) (p.2.line * 128) with walled := p.2.walled, poison := 3, misc := lt % 32 }
      else s.llcPut sl p.1 { p.2 with pres := clearBit p.2.pres b }) s) s

/-- Every tile copy of an LLC line removed and the newest data taken (R277, R306). -/
def State.tilesTake (s : State) (lt : Nat) (l : CacheLine) : CacheLine × State :=
  let (l, s) := (s.presTiles lt l.pres).foldl (fun (p : CacheLine × State) t =>
    let (d, s) := p.2.tileTake t l.line
    match d with
    | some ws => ({ p.1.fresh ws with st := .m }, s)
    | none => (p.1, s)) (l, s)
  ({ l with pres := 0, excl := false }, s)

/-- Every tile copy of an LLC line downgraded and the newest data taken (R328). -/
def State.tilesDown (s : State) (lt : Nat) (l : CacheLine) : CacheLine × State :=
  let (l, s) := (s.presTiles lt l.pres).foldl (fun (p : CacheLine × State) t =>
    let (d, s) := p.2.tileDown t l.line
    match d with
    | some ws => ({ p.1.fresh ws with st := .m }, s)
    | none => (p.1, s)) (l, s)
  ({ l with excl := false }, s)

/-- An LLC line without tile copies leaves its slice towards the home: WbM when M or O, EvC when E or S (R286). -/
def State.llcOut (s : State) (lt : Nat) (l : CacheLine) : State :=
  let dirty := l.st == .m || l.st == .o
  let x := s.slice lt
  let s := s.setSlice lt { x with wb := x.wb ++ [⟨l.line, dirty, l.data⟩] }
  s.send { mkMsg (if dirty then .wbM else .evC) (.llc lt) (.home (s.homeOf l.line)) l.line l.walled with
    data := if dirty then l.data else [] }

/-- A replaced line enters the victim buffer; a full buffer pushes its oldest entry out first (R285, R286). -/
def State.vbPush (s : State) (lt : Nat) (l : CacheLine) : State :=
  let x := s.slice lt
  let s := match x.vb with
    | o :: _ =>
      if x.vb.length ≥ 64 then
        let s := s.vbCheck lt o.line
        let x := s.slice lt
        ((s.setSlice lt { x with vb := x.vb.drop 1 }).llcOut lt (x.vb.headD o)).addFld (ltDie lt) (llcUnit lt) LLC_VB_STATUS []
          LLC_VB_STATUS_OVERFLOWS 1
      else s
    | [] => s
  let (l, s) := s.injectLine (ltDie lt) (llcUnit lt) 8 0 l
  s.setSlice lt { s.slice lt with vb := (s.slice lt).vb ++ [l] }

/-- Whether a way of a slice may take a line of a world: enabled, of its world, and not holding a line that is blocked (R320): a blocked
line is passed over (DESIGN CHOICE, entry 47). -/
def State.llcTakes (s : State) (lt line : Nat) (walled : Bool) (w : Nat) : Bool :=
  !s.llcOff lt w && s.llcWalledWay lt w == walled &&
    (match tfind (s.slice lt).lines (16 * (line % 2048) + w) with
     | some v => !((s.slice lt).txns.any (fun t => t.line == v.line))
     | none => true)

/-- Whether a slice may allocate a line now: no full flush is in progress (R297) and some way takes it. -/
def State.llcRoom (s : State) (lt line : Nat) (walled : Bool) : Bool :=
  !(s.slice lt).flushing && (List.range 16).any (s.llcTakes lt line walled)

/-- A line installed in an LLC slice in the ways of its world (R283, R299); the victim goes to the victim buffer after its
tile copies are removed. -/
def State.llcInstall (s : State) (lt : Nat) (l : CacheLine) : State :=
  let die := ltDie lt
  let u := llcUnit lt
  let set := l.line % 2048
  let lf := lfsrStep (s.fld die u LLC_LFSR [] LLC_LFSR_STATE)
  let s := s.setFld die u LLC_LFSR [] LLC_LFSR_STATE lf
  match pickWay lf (s.llcTakes lt l.line l.walled)
      (fun w => (tfind (s.slice lt).lines (16 * set + w)).isSome) with
  | none => s
  | some w =>
    let s := s.llcCheck lt (16 * set + w)
    let s := match tfind (s.slice lt).lines (16 * set + w) with
      | none => s
      | some v =>
        let (v, s) := s.tilesTake lt v
        ((s.llcDel lt (16 * set + w)).vbPush lt v).count die u cntLlc 0x04 1 v.walled
    let (l, s) := s.injectLine die u 5 0 l
    let (l, s) := s.injectLine die u 6 16 l
    s.llcPut lt (16 * set + w) l

/-- An error found in an array: entered in the line so that the read that finds it handles it; in an invalid entry a tag
error is corrected by writing the entry invalid and counts as corrected (R291). -/
def State.cacheErr (s : State) (e : CacheErr) : State :=
  let b : BadWord := ⟨e.word, e.dbl, false⟩
  match e.cache with
  | .l2 =>
    match tfind (s.tile e.lt).l2 e.entry with
    | some l => (s.l2Put e.lt e.entry { l with bad := l.bad ++ [b] }).l2Check e.lt e.entry
    | none => (s.l2WayErr e.lt (e.entry % 16) false false false).2
  | .llc =>
    match tfind (s.slice e.lt).lines e.entry with
    | some l => (s.llcPut e.lt e.entry { l with bad := l.bad ++ [b] }).llcCheck e.lt e.entry
    | none => (s.llcWayErr e.lt (e.entry % 16) false false false).2
  | .vb =>
    let x := s.slice e.lt
    match x.vb[e.entry]? with
    | some l => (s.setSlice e.lt { x with vb := lset x.vb e.entry { l with bad := l.bad ++ [b] } }).vbCheck e.lt l.line
    | none => (s.llcWayErr e.lt 0 false false false).2

/-- What a home asks of a die's copies of a line (R328). -/
inductive DieOp where
  | fwdS | fwdNC | fwdX | inv
  deriving DecidableEq, Repr

/-- The answer of a holder: data with its D flag, or Ack without data (Table 10-7). -/
abbrev DieAns := Option (List Word × Bool)

/-- The answer of an LLC or victim-buffer line in its state, its tiles already brought to it (Table 10-7). -/
def lineAns (l : CacheLine) (op : DieOp) : DieAns :=
  match op, l.st with
  | .inv, _ => none
  | _, .m => some (l.data, true)
  | _, .o => some (l.data, true)
  | _, .e => some (l.data, false)
  | _, .s => none

/-- State after FwdS (Table 10-7). -/
def downSt (st : LineState) : LineState :=
  match st with
  | .m => .o
  | .o => .o
  | .e => .s
  | .s => .s

/-- R323, R328: a die answers a forward or invalidation of the home for a line, its tile copies brought along first, then a
victim-buffer entry (R288), then its writeback buffer; a line no longer held is answered without data. -/
def State.dieAnswer (s : State) (die line : Nat) (op : DieOp) : DieAns × State :=
  let lt := llcOf die line
  match s.llcFind lt line false true with
  | some (key, _) =>
    let s := s.llcCheck lt key
    match tfind (s.slice lt).lines key with
    | none => (none, s)
    | some l =>
      match op with
      | .fwdS =>
        let (l, s) := s.tilesDown lt l
        (lineAns l .fwdS, s.llcPut lt key { l with st := downSt l.st })
      | .fwdNC =>
        let s := (s.presTiles lt l.pres).foldl (fun (s : State) t => s.tileMeet t line) s
        let newest := (s.presTiles lt l.pres).findSome? (fun t => s.tilePeek t line)
        (match newest with
          | some d => some (d, true)
          | none => lineAns l .fwdNC, s)
      | .fwdX =>
        let (l, s) := s.tilesTake lt l
        (lineAns l .fwdX, s.llcDel lt key)
      | .inv =>
        let (_, s) := s.tilesTake lt l
        (none, s.llcDel lt key)
  | none =>
    match (s.slice lt).vb.find? (fun l => l.line == line) with
    | some _ =>
      let s := s.vbCheck lt line
      let x := s.slice lt
      match x.vb.find? (fun l => l.line == line) with
      | none => (none, s)
      | some l =>
        match op with
        | .fwdS => (lineAns l .fwdS,
            s.setSlice lt { x with vb := x.vb.map (fun e => if e.line = line then { e with st := downSt e.st } else e) })
        | .fwdNC => (lineAns l .fwdNC, s)
        | .fwdX => (lineAns l .fwdX, s.setSlice lt { x with vb := x.vb.filter (fun e => e.line != line) })
        | .inv => (none, s.setSlice lt { x with vb := x.vb.filter (fun e => e.line != line) })
    | none =>
      match (s.slice lt).wb.find? (fun w => w.line == line), op with
      | some w, .fwdS => (some (w.data, w.dirty), s)
      | some w, .fwdNC => (some (w.data, w.dirty), s)
      | some w, .fwdX => (some (w.data, w.dirty), s)
      | _, _ => (none, s)

end Sys2Proof.Machine
end

