-- ==== Sys2Proof/Machine/Release.lean ====
section
/-! DEFINITION. The release buffer of an arbour (R255, R256): what enters it, what it holds back, and what leaves it for the L2. -/
set_option autoImplicit false
namespace Sys2Proof.Machine

/-- A field of an ARB_ register. -/
def State.arb (s : State) (lt : Nat) (r : RegDef) (f : RField) : Nat := s.fld (ltDie lt) (ltIdx lt) r [] f

/-- Whether an arbour is in safe mode, where its transactions pass the release buffer (R251, R255, R269). -/
def State.safeMode (s : State) (lt : Nat) : Bool := s.arb lt ARB_STATUS ARB_STATUS_MODE != 0

/-- Whether an arbour runs in safe mode with comparison on (R251, R269). -/
def State.safeArb (s : State) (lt : Nat) : Bool := s.safeMode lt && s.arb lt ARB_STATUS ARB_STATUS_HELD == 0

/-- An arbour's release buffer and replay log written, with the fields of ARB_RB_STATUS that show them. -/
def State.putArbour (s : State) (lt : Nat) (a : Arbour) : State :=
  let d := ltDie lt; let u := ltIdx lt
  let s := s.setArbour lt a
  let s := s.setFld d u ARB_RB_STATUS [] ARB_RB_STATUS_OCC a.rb.length
  let s := s.setFld d u ARB_RB_STATUS [] ARB_RB_STATUS_HWM (max (s.arb lt ARB_RB_STATUS ARB_RB_STATUS_HWM) a.rb.length)
  s.setFld d u ARB_RB_STATUS [] ARB_RB_STATUS_LOG_OCC a.log.length

/-- R256: whether the 44 entries that are not reserved for snoops are full. -/
def Arbour.full (a : Arbour) : Bool := decide ((a.rb.filter (fun e => e.kind != .snoop)).length ≥ 44)

/-- A transaction of a safe-mode arbour enters the release buffer, where it may be already. Answers false where the buffer is full: issue
stalls, which counts one cycle (R256, entry 43). -/
def State.rbEnter (s : State) (lt : Nat) (e : RbEnt) : Bool × State :=
  let a := s.arbour lt
  if !s.safeMode lt || a.rb.contains e then (true, s)
  else if a.full && e.kind != .snoop then
    (false, s.addFld (ltDie lt) (ltIdx lt) ARB_RB_STATUS [] ARB_RB_STATUS_FULL_CYCLES 1)
  else (true, s.putArbour lt { a with rb := a.rb ++ [e] })

/-- A transaction leaves the release buffer. -/
def State.rbLeave (s : State) (lt : Nat) (e : RbEnt) : State :=
  let a := s.arbour lt
  if a.rb.contains e then s.putArbour lt { a with rb := a.rb.erase e } else s

/-- A transaction that is taken at once passes the release buffer. Answers false where the buffer is full. -/
def State.rbPass (s : State) (lt : Nat) (e : RbEnt) : Bool × State :=
  match s.rbEnter lt e with
  | (false, s) => (false, s)
  | (true, s) => (true, s.rbLeave lt e)

/-- The release-buffer entry of a coherence request. -/
def lineEnt (m : Msg) (committed : Bool) : RbEnt :=
  { kind := .line, addr := m.line * 128, size := 128, data := [], committed := committed, msg := some m }

/-- The release-buffer entry of the answer to a snoop. -/
def snoopEnt (m : Msg) : RbEnt := { kind := .snoop, addr := m.line * 128, size := 128, data := m.data, committed := true, msg := some m }

/-- A request that the L2 sends to its slice. Answers false where it may send none: while a full flush is in progress (R297), or while the
line awaits WbAck in the writeback buffer (R317). -/
def State.l2Send (s : State) (lt : Nat) (m : Msg) : Bool × State :=
  let t := s.tile lt
  if t.flushing || t.wb.any (fun w => w.line == m.line) then (false, s)
  else if t.miss.any (fun x => x.line == m.line) then (true, s)
  else (true, (s.setTile lt { t with miss := t.miss ++ [m] }).send m)

/-- The requests that the release buffer of a tile holds sent, as far as the L2 takes them now. -/
def State.rbRetry (s : State) (lt : Nat) : State :=
  (s.arbour lt).rb.foldl (fun (s : State) e =>
    match e.msg with
    | some m =>
      match s.l2Send lt m with
      | (true, s) => s.rbLeave lt e
      | (false, s) => s
    | none => s) s

/-- The replay log emptied: the instruction in progress commits, raises an exception, or will never be compared again (R261, R269). -/
def State.logClear (s : State) (lt : Nat) : State :=
  let a := s.arbour lt
  if a.log.isEmpty then s else s.putArbour lt { a with log := [] }

/-- R263, R267: the transactions of uncommitted groups are discarded from the release buffer, and the replay log with `log`. -/
def State.rbDiscard (s : State) (lt : Nat) (log : Bool) : State :=
  let a := s.arbour lt
  if a = Arbour.reset then s
  else s.putArbour lt { a with rb := a.rb.filter (fun e => e.committed), log := if log then [] else a.log }

end Sys2Proof.Machine
end

