-- ==== Sys2Proof/Machine/Homes.lean ====
section
/-! DEFINITION. The homes (10_coherence.md): what they do with each message of Table 10-4, the conflict queue (R321), held
writebacks (R322), snoop-filter replacement (R332), CXL memory (R80 to R82), and the proxy homes of lines of other sockets (R312). -/
set_option autoImplicit false
namespace Sys2Proof.Machine

/-- An event of a home counted. -/
def State.homeCount (s : State) (i ev : Nat) (walled : Bool) : State := s.count (8 + i) 0x038 cntHome ev 1 walled
/-- An event of an LLC slice counted. -/
def State.llcCount (s : State) (lt ev : Nat) (walled : Bool) : State := s.count (ltDie lt) (llcUnit lt) cntLlc ev 1 walled

/-- The snoop-filter entry of a line (R310). -/
def State.sfFind (s : State) (i line : Nat) : Option (Nat × SfEnt) :=
  (s.home i).sf.find? (fun p => p.1 / 8 == line % 524288 && p.2.line == line)
/-- A snoop-filter entry removed. -/
def State.sfDel (s : State) (i line : Nat) : State :=
  match s.sfFind i line with
  | none => s
  | some (k, _) => s.setHome i { s.home i with sf := terase (s.home i).sf k }
/-- A free way of a line's snoop-filter set. -/
def State.sfFree (s : State) (i line : Nat) : Option Nat :=
  (List.range 8).find? (fun w => (tfind (s.home i).sf (line % 524288 * 8 + w)).isNone)
/-- An entry written: in place, or in the lowest free way of its set. The write meets the injection of the home (Table 20-4,
target 2). -/
def State.sfPut (s : State) (i : Nat) (e : SfEnt) : State :=
  let way := match s.sfFind i e.line with
    | some (k, _) => some k
    | none => (s.sfFree i e.line).map (fun w => e.line % 524288 * 8 + w)
  match way with
  | none => s
  | some k =>
    match s.inject (8 + i) 0x038 2 (s.walledMem (e.line * 128)) with
    | (some a, s) => s.setHome i { s.home i with sf := tput (s.home i).sf k { e with bad := [a == 2] } }
    | (none, s) => s.setHome i { s.home i with sf := tput (s.home i).sf k { e with bad := [] } }
/-- An entry read: one flipped bit is corrected in place; two are fatal (R591, Table 20-3). -/
def State.sfCheck (s : State) (i line : Nat) : State :=
  match s.sfFind i line with
  | none => s
  | some (k, e) =>
    if e.bad = [] then s
    else
      let s := s.setHome i { s.home i with sf := tput (s.home i).sf k { e with bad := [] } }
      if e.bad.contains true then
        s.fatalRec (8 + i) 0x038 5 { ErrRec.mk1 5 0x25 0 (line * 128) with inj := true, walled := s.walledMem (line * 128) }
      else s
/-- Whether an entry names any holder. -/
def SfEnt.live (e : SfEnt) : Bool := e.dies != 0 || e.sockets != 0 || e.io
/-- An entry written, or removed when it names no holder (R310). -/
def State.sfKeep (s : State) (i : Nat) (e : SfEnt) : State := if e.live then s.sfPut i e else s.sfDel i e.line

/-- OWNER of an agent: [3] = 1 for a socket (Table 10-2). -/
def ownerCode (a : Agent) : Nat :=
  match a with
  | .llc lt => lt / 32
  | .socket n => 8 + n
  | .tile lt => lt / 32
  | .home _ | .iommu _ | .nca _ => 0
/-- The agent that an OWNER code names, for a line. -/
def ownerAgent (line c : Nat) : Agent := if c < 8 then .llc (llcOf c line) else .socket (c - 8)
/-- The owner of an entry, in X and O. -/
def SfEnt.ownerOf (e : SfEnt) : Option Agent :=
  match e.st with
  | .s => none
  | .x => some (ownerAgent e.line e.owner)
  | .o => some (ownerAgent e.line e.owner)
/-- Every holder of an entry. -/
def SfEnt.holders (e : SfEnt) : List Agent :=
  ((List.range 8).filter (natBit e.dies)).map (fun d => .llc (llcOf d e.line)) ++
    ((List.range 8).filter (natBit e.sockets)).map Agent.socket ++ (if e.io then [.iommu 0, .iommu 1] else [])
/-- Whether an agent is a holder. -/
def SfEnt.has (e : SfEnt) (a : Agent) : Bool := e.holders.contains a
/-- An agent added to an entry. -/
def SfEnt.add (e : SfEnt) (a : Agent) : SfEnt :=
  match a with
  | .llc lt => { e with dies := e.dies ||| 2 ^ (lt / 32) }
  | .socket n => { e with sockets := e.sockets ||| 2 ^ n }
  | .iommu _ => { e with io := true }
  | .tile _ | .home _ | .nca _ => e
/-- An agent removed from an entry. -/
def SfEnt.drop (e : SfEnt) (a : Agent) : SfEnt :=
  match a with
  | .llc lt => { e with dies := clearBit e.dies (lt / 32) }
  | .socket n => { e with sockets := clearBit e.sockets n }
  | .iommu _ => { e with io := false }
  | .tile _ | .home _ | .nca _ => e
/-- The entry of a line that one agent owns. -/
def SfEnt.owned (line : Nat) (a : Agent) : SfEnt :=
  SfEnt.add { line := line, st := .x, owner := ownerCode a, dies := 0, sockets := 0, io := false, bad := [] } a
/-- The entry of a line that no agent holds. -/
def SfEnt.blank (line : Nat) : SfEnt :=
  { line := line, st := .s, owner := 0, dies := 0, sockets := 0, io := false, bad := [] }

/-- R354: the record and status bit of an unmapped access. -/
def State.unmapped (s : State) (line : Nat) (walled : Bool) : State :=
  (s.setFld 8 0 MEM_STATUS [] MEM_STATUS_UNMAPPED 1).err 8 0x038
    { ErrRec.mk1 1 0x0B 0 (line * 128) with walled := walled }

/-- A read of a line at its home: DRAM at once, zero words for an unmapped line (R354); none for a line of CXL memory or of
another socket, whose data comes in a later message. -/
def State.homeRead (s : State) (line : Nat) (walled : Bool) : Option (List Word) × State :=
  match s.classify (line * 128) with
  | .dram _ ch chline => let r := s.chanRead ch chline [] false walled; (some r.1, r.2)
  | .cxl _ _ => (none, s)
  | .remote _ => (none, s)
  | .unmapped => (some zeroLine, s.unmapped line walled)
  | .control _ | .msi _ | .ecam _ | .mmio _ => (some zeroLine, s)

/-- A proxy home gives its socket's hold on a line back to the line's home on another socket (R312): WbM with the data of a dirty line,
EvC without. The entry stays in its writeback buffer until WbAck (R323). -/
def State.proxyWb (s : State) (i n line : Nat) (data : Option (List Word)) (walled : Bool) : State :=
  let h := s.home i
  (s.setHome i { h with wb := h.wb ++ [⟨line, data.isSome, data.getD []⟩] }).emitCoh
    { mkMsg (if data.isSome then .wbM else .evC) (.home i) (.socket n) line walled with mask := if data.isSome then backMask else 0, data := data.getD [] }

/-- The line of CXL memory written (R81, R82): each whole-word store of pointer or system class among `stores` counts CXL_TAG_DROP, the
words go out as data class, and each 64-byte half with a poison word is marked poisoned. -/
def State.cxlStore (s : State) (iod line : Nat) (ws : List Word) (stores : Nat) (walled : Bool) : State :=
  (if stores = 0 then s else s.count (8 + iod) 0x038 cntHome 6 stores walled).emit (.cxlWrite iod line (cxlLine ws) (cxlPoison ws))

/-- A line written back at its home, its words as they are held: to DRAM, to a CXL device, or to the home on its socket. -/
def State.homeWrite (s : State) (line : Nat) (ws : List Word) (walled : Bool) : State :=
  match s.classify (line * 128) with
  | .dram _ ch chline => s.chanWrite ch chline ws backMask walled
  | .cxl iod _ => s.cxlStore iod line ws 0 walled
  | .remote n => s.proxyWb (s.homeOf line) n line (some ws) walled
  | .unmapped => s.unmapped line walled
  | .control _ | .msi _ | .ecam _ | .mmio _ => s

/-- A WrInv performed at the line's home (R331): its bytes merged into the line, whose words are `old` where a holder or a CXL device gave
them; a dirty copy's words and colours stay where it writes none. One that carries a CMO writes a dirty copy back, or nothing where NC says
that copies are discarded (entry 16). -/
def State.homeMerge (s : State) (m : Msg) (old : List Word) (dirty : Bool) : State :=
  if m.mask = 0 ∧ (m.nc ∨ !dirty) then s
  else match s.classify (m.line * 128) with
  | .dram _ ch chline =>
    let s := if dirty then s.chanWrite ch chline old backMask m.walled else s
    if m.mask = 0 then s else s.chanWrite ch chline m.data m.mask m.walled
  | .cxl iod _ => s.cxlStore iod m.line (maskLine old m.data m.mask) (cxlDrops m.data m.mask) m.walled
  | .unmapped => s.unmapped m.line m.walled
  | .remote _ | .control _ | .msi _ | .ecam _ | .mmio _ => s

/-- The transaction that blocks a line at a home. -/
def Home.txn (h : Home) (line : Nat) : Option Txn := h.txns.find? (fun t => t.line == line)
/-- A home's transaction written. -/
def State.setHomeTxn (s : State) (i : Nat) (t : Txn) : State :=
  let h := s.home i
  s.setHome i { h with txns := h.txns.filter (fun x => x.line != t.line) ++ [t] }
/-- A home's transaction ended. -/
def State.delHomeTxn (s : State) (i line : Nat) : State :=
  let h := s.home i
  s.setHome i { h with txns := h.txns.filter (fun x => x.line != line) }

/-- A refusal for lack of a conflict-queue entry (R321). -/
def nackOf (m : Msg) (who : Agent) : Msg := { m with kind := .nack, src := who, dst := m.src, refused := m.kind }

/-- Whether a message is a forward or an invalidation. -/
def isFwd (k : MsgKind) : Bool := msgChan k == .snoop

/-- Whether a conflict queue takes a request: entries 14 and 15 only for retried requests (R321). Entries are numbered by their place in
the queue, and move down as older ones leave (DESIGN CHOICE, entry 48). Waiting forwards hold no entry. -/
def cqTakes (cq : List Msg) (m : Msg) : Bool := decide (cq.countP (fun x => !isFwd x.kind) < if m.retried then 16 else 14)

/-- The snoops that a request needs (Table 10-6): Inv to other holders, FwdX or FwdS to the owner. A WrInv of every byte takes the owner's
line too, for the colours that R84 keeps (DEDUCED, entry 48), but with NC, by which CMO.INV discards it (entry 16); so does an Upg at a proxy home (`proxy`), which answers forwards of the
line's home with it. -/
def homeSnoops (e : Option SfEnt) (m : Msg) (proxy : Bool) : List (Agent × MsgKind) :=
  match e with
  | none => []
  | some e =>
    let others := e.holders.filter (fun a => a != m.src && !(e.ownerOf == some a))
    let inv := others.map (fun a => (a, MsgKind.inv))
    let own := fun (k : MsgKind) =>
      match e.ownerOf with
      | some o => if o = m.src then [] else [(o, k)]
      | none => []
    match m.kind with
    | .rdS => own .fwdS
    | .rdNC => own .fwdS
    | .rdX => own .fwdX ++ inv
    | .upg => (if e.has m.src && !proxy then own .inv else own .fwdX) ++ inv
    | .wrInv => own (if m.nc then .inv else .fwdX) ++ inv
    | .inv => own .fwdX ++ inv
    | .wbM | .evC | .fwdS | .fwdX | .data | .ack | .cmp | .wbAck | .nack => []

/-- Whether a proxy home must ask the home of the line on its socket (R312): for any line no agent of this socket owns, and
for every write that is not to a line it holds in X. -/
def proxyUp (e : Option SfEnt) (m : Msg) : Bool :=
  match m.kind, e with
  | .wrInv, _ => true
  | .inv, _ => false
  | _, none => true
  | .rdS, some e => e.st == .s
  | .rdNC, some e => e.st == .s
  | _, some e => e.st != .x

/-- The data a transaction gathered: an answer's, or that of a held WbM (R322). -/
def Txn.gathered (t : Txn) : Option (List Word × Bool) :=
  match t.data with
  | some d => some (d, t.dirty)
  | none => (t.held.find? (fun m => m.kind == .wbM)).map (fun m => (m.data, true))

/-- A transaction that begins: its request and the agents it asks. -/
def Txn.start (m : Msg) (await : List Agent) : Txn :=
  { line := m.line, req := m, phase := .snoop, await := await, data := none, dirty := false, held := [] }

/-- The snoops of a transaction sent to the agents that are not dead (R338), each counted. -/
def State.homeAsk (s : State) (i : Nat) (m : Msg) (sn : List (Agent × MsgKind)) : State :=
  sn.foldl (fun s p =>
    (s.homeCount i (if p.2 = .inv then 4 else 3) m.walled).send
      { mkMsg p.2 (.home i) p.1 m.line m.walled with nc := m.kind == .rdNC || m.nc }) s

/-- A writeback or eviction notice applied at a home (R322, Table 10-6). A proxy home passes its socket's hold on with it: a WbM ends the
hold, so copies left on this socket's dies are invalidated first (DESIGN CHOICE, entry 48); an EvC goes when no copy is left (R312). -/
def State.homeWb (s : State) (i : Nat) (m : Msg) : State :=
  match s.sfFind i m.line with
  | none => s
  | some (_, e) =>
    if !e.has m.src then s
    else
      let owner : Bool := e.ownerOf == some m.src
      let e' := e.drop m.src
      let rest := if owner then { e' with st := .s, owner := 0 } else e'
      match s.remoteHome m.line with
      | none => (if m.kind = .wbM ∧ owner then s.homeWrite m.line m.data m.walled else s).sfKeep i rest
      | some n =>
        if m.kind = .wbM ∧ owner then
          let sn := (e'.holders.filter (fun a => !s.homeDead i a)).map (fun a => (a, MsgKind.inv))
          if sn = [] then (s.sfDel i m.line).proxyWb i n m.line (some m.data) m.walled
          else
            let q := mkMsg .inv (.home i) (.home i) m.line m.walled
            ((s.sfKeep i rest).setHomeTxn i { Txn.start q (sn.map (fun p => p.1)) with data := some m.data, dirty := true }).homeAsk i q sn
        else
          let s := s.sfKeep i rest
          match s.sfFind i m.line with
          | none => s.proxyWb i n m.line none m.walled
          | some _ => s

/-- Held writebacks of a blocked line applied when its transaction ends, for senders that are still holders (R322) and not dead. -/
def State.homeHeld (s : State) (i : Nat) (ms : List Msg) : State :=
  ms.foldl (fun s m =>
    if s.homeDead i m.src then s
    else match (s.home i).txn m.line with
      | some t => s.setHomeTxn i { t with held := t.held ++ [m] }
      | none => s.homeWb i m) s

/-- The Data or Ack that answers a request. -/
def answerMsg (i : Nat) (m : Msg) (kind : MsgKind) (g : Grant) (ws : List Word) : Msg :=
  { mkMsg kind (.home i) m.src m.line m.walled with grant := g, data := ws, core := m.core }

/-- The snoop-filter entry and grant after a request is served (Table 10-6); `dirty` is the D flag of the owner's answer. -/
def homeAfter (e : Option SfEnt) (m : Msg) (dirty : Bool) : Option SfEnt × Grant :=
  match m.kind with
  | .rdS =>
    match e with
    | none => (some (SfEnt.owned m.line m.src), .e)
    | some e =>
      match e.st with
      | .s => (some (e.add m.src), .s)
      | .x => (some (if dirty then { e.add m.src with st := .o } else { e.add m.src with st := .s, owner := 0 }), .s)
      | .o => (some (e.add m.src), .s)
  | .rdX | .upg =>
    let o : Bool := match e with
      | some e => e.st == .o || dirty
      | none => dirty
    (some (SfEnt.owned m.line m.src), if o then .m else .e)
  | .rdNC =>
    match m.src with
    | .iommu _ => (some ((e.getD (SfEnt.blank m.line)).add m.src), .none)
    | .tile _ | .llc _ | .home _ | .socket _ | .nca _ => (e, .none)
  | .wrInv | .inv => (none, .none)
  | .wbM | .evC | .fwdS | .fwdX | .data | .ack | .cmp | .wbAck | .nack => (e, .none)

/-- The end of a blocked line: held writebacks are applied, and the line is free. -/
def State.homeEnd (s : State) (i : Nat) (t : Txn) : State := (s.delHomeTxn i t.line).homeHeld i t.held

/-- A served request is answered with the words of the line, and the entry is rewritten (Table 10-6). -/
def State.homeGrant (s : State) (i : Nat) (t : Txn) (ws : List Word) (dirty : Bool) (up : Option Grant) : State :=
  let m := t.req
  let e := (s.sfFind i m.line).map (fun p => p.2)
  let holder : Bool := match e with
    | some e => e.has m.src
    | none => false
  let (e', g0) := homeAfter e m dirty
  let (e', g) := match up with
    | none => (e', g0)
    | some g =>
      match m.kind, e', g with
      | .rdS, some x, .s => (some { x with st := .s, owner := 0 }, Grant.s)
      | .rdS, _, _ => (some (SfEnt.owned m.line m.src), Grant.e)
      | _, _, _ => (e', if g = .none then g0 else g)
  let s := match e' with
    | some x => s.sfKeep i x
    | none => s.sfDel i m.line
  match m.kind with
  | .rdS | .rdX => (s.setHomeTxn i { t with phase := .cmp, await := [m.src] }).send (answerMsg i m .data g ws)
  | .upg => (s.setHomeTxn i { t with phase := .cmp, await := [m.src] }).send
      (if holder then answerMsg i m .ack .m [] else answerMsg i m .data g ws)
  | .rdNC => (s.send (answerMsg i m .data .none ws)).homeEnd i t
  | .wrInv => ((if up.isSome then s else s.homeMerge m ws dirty).send (answerMsg i m .cmp .none [])).homeEnd i t
  | .inv =>
    (match s.remoteHome m.line with
      | some n => s.proxyWb i n m.line (if dirty then some ws else none) m.walled
      | none => if dirty then s.homeWrite m.line ws m.walled else s).homeEnd i t
  | .wbM | .evC | .fwdS | .fwdX | .data | .ack | .cmp | .wbAck | .nack => s.homeEnd i t

/-- The request that a proxy home sends to a line's home for one of its own agents (R312): Upg while its socket holds the line, RdX
otherwise; an IOMMU's read as RdS, since the socket holds the table entry from then on (DEDUCED, entry 48). -/
def upKind (t : Txn) (holder : Bool) : MsgKind :=
  match t.req.kind, t.req.src with
  | .upg, _ => if holder || t.gathered.isSome then .upg else .rdX
  | .rdX, _ => if t.gathered.isSome then .upg else .rdX
  | .rdNC, .iommu _ => .rdS
  | k, _ => k

/-- A proxy home passes a request on to the line's home, as its socket's agent (R312). -/
def State.proxySend (s : State) (i n : Nat) (t : Txn) : State :=
  let m := t.req
  let holder : Bool := ((s.sfFind i m.line).map (fun p => p.2.has m.src)).getD false
  (s.setHomeTxn i { t with phase := .upper, await := [.socket n] }).send
    { m with src := .home i, dst := .socket n, retried := false, kind := upKind t holder }

/-- A line of CXL memory read (R464): the transaction waits for the device's data. -/
def State.cxlAsk (s : State) (i iod : Nat) (t : Txn) : State :=
  let h := s.home i
  ((s.setHome i { h with cxlReads := h.cxlReads ++ [t.line] }).setHomeTxn i { t with phase := .upper }).emit (.cxlRead iod t.line)

/-- Every answer to a home's snoops has arrived: the request is served from the gathered data or from memory, or waits for
a CXL device (R464) or another socket (R312). A store to a line of another socket whose dirty copy was taken waits until that copy's
WbM has been acknowledged (R317). -/
def State.homeReady (s : State) (i : Nat) (t : Txn) : State :=
  let m := t.req
  let e := (s.sfFind i m.line).map (fun p => p.2)
  match s.remoteHome m.line with
  | some n =>
    if proxyUp e m then
      match m.kind, (if m.nc then none else t.gathered) with
      | .wrInv, some (d, true) =>
        (((s.sfDel i m.line).setHomeTxn i { t with phase := .upper, await := [], data := none, dirty := false, held := [] })).proxyWb i n
          m.line (some d) m.walled
      | _, _ => s.proxySend i n t
    else
      match t.gathered with
      | some (d, dirty) => s.homeGrant i t d dirty none
      | none => if m.kind = .inv then s.homeGrant i t [] false none else s.proxySend i n t
  | none =>
    match t.gathered with
    | some (d, dirty) => s.homeGrant i t d dirty none
    | none =>
      let holds := (e.map (fun x => x.has m.src)).getD false
      let cxl : Option Nat := match s.classify (m.line * 128) with
        | .cxl iod _ => some iod
        | .control _ | .msi _ | .ecam _ | .mmio _ | .dram _ _ _ | .remote _ | .unmapped => none
      if m.kind = .inv ∨ (m.kind = .upg ∧ holds) ∨ (m.kind = .wrInv ∧ (cxl.isNone ∨ m.mask = fullMask ∨ m.mask = 0)) then s.homeGrant i t [] false none
      else
        match cxl with
        | some iod => s.cxlAsk i iod t
        | none =>
          match s.homeRead m.line m.walled with
          | (some ws, s) => s.homeGrant i t ws false none
          | (none, s) => s

/-- R337, R338: a line whose owner is dead is poisoned with code 0x03 and its entry loses the dead agent. -/
def State.poisonDead (s : State) (i line : Nat) (walled : Bool) : State :=
  match s.sfFind i line with
  | none => s
  | some (_, e) =>
    match e.ownerOf with
    | none => s
    | some o =>
      if !s.homeDead i o then s
      else (s.homeWrite line (poisonLine 0x03) walled).sfKeep i { e.drop o with st := .s, owner := 0 }

/-- A line of another socket is given back to its home as poison 0x03 (R337, R338), every live copy on this socket's dies invalidated
first; a request for it waits at the front of the conflict queue. -/
def State.proxyPoison (s : State) (i line : Nat) (walled : Bool) (m : Option Msg) : State :=
  let h := s.home i
  let q := mkMsg .inv (.home i) (.home i) line walled
  let live := match s.sfFind i line with
    | some (_, e) => e.holders.filter (fun a => !s.homeDead i a)
    | none => []
  let sn := live.map (fun a => (a, MsgKind.inv))
  let t := { Txn.start q (sn.map (fun p => p.1)) with data := some (poisonLine 0x03), dirty := true }
  let s := (s.setHome i { h with cq := m.toList ++ h.cq }).setHomeTxn i t
  if sn = [] then s.homeReady i t else s.homeAsk i q sn

/-- A request begins at a home: the line is blocked and the snoops are sent (R320, Table 10-6). -/
def State.homeStart (s : State) (i : Nat) (m : Msg) : State :=
  let s := (if m.kind = .inv then s else s.homeCount i 1 m.walled).poisonDead i m.line m.walled
  let e := (s.sfFind i m.line).map (fun p => p.2)
  let sn := (homeSnoops e m (s.remoteHome m.line).isSome).filter (fun p => !s.homeDead i p.1)
  let t := Txn.start m (sn.map (fun p => p.1))
  let s := s.setHomeTxn i t
  if sn = [] then s.homeReady i t else s.homeAsk i m sn

/-- R332: a way freed for a new entry: the victim way of R283 over the 8 ways, its line blocked as by a request. A way whose line is
already blocked is passed over (DESIGN CHOICE, entry 47). -/
def State.sfEvict (s : State) (i line : Nat) (walled : Bool) : State :=
  let lf := lfsrStep (s.fld (8 + i) 0x038 HOME_LFSR [] HOME_LFSR_STATE)
  let s := s.setFld (8 + i) 0x038 HOME_LFSR [] HOME_LFSR_STATE lf
  let free := fun w => match tfind (s.home i).sf (line % 524288 * 8 + w) with
    | some e => ((s.home i).txn e.line).isNone && !(s.home i).snoops.any (fun t => t.line == e.line)
    | none => false
  match (((List.range 16).map (fun k => (lf + k) % 16)).filter (fun w => decide (w < 8))).find? free with
  | none => s
  | some w =>
    match tfind (s.home i).sf (line % 524288 * 8 + w) with
    | none => s
    | some e =>
      let s := (s.addFld (8 + i) 0x038 HOME_SF_STATUS [] HOME_SF_STATUS_EVICT 1).homeCount i 2 walled
      s.homeStart i (mkMsg .inv (.home i) (.home i) e.line false)

/-- Whether serving a request needs a new snoop-filter entry. -/
def State.needsEntry (s : State) (i : Nat) (m : Msg) : Bool :=
  (s.sfFind i m.line).isNone && match m.kind, m.src with
    | .rdS, _ => true
    | .rdX, _ => true
    | .upg, _ => true
    | .rdNC, .iommu _ => true
    | _, _ => false

/-- Whether a request must wait at a home before it is served: its line is blocked, a forward of it is in progress at the proxy, or older
requests for it wait. -/
def Home.blocks (h : Home) (line : Nat) : Bool :=
  let mine := fun (m : Msg) => m.line == line
  (h.txn line).isSome || h.snoops.any (fun t => t.line == line) || h.cq.any mine || h.parked.any mine || h.wbWait.any mine || h.fwds.any mine

/-- A request served at a home whose line is not blocked: it waits while the line is in the proxy's writeback buffer (R317), and while a
way of the snoop filter is freed for it (R332). -/
def State.homeServe (s : State) (i : Nat) (m : Msg) : State :=
  let h := s.home i
  let owner : Option Agent := (s.sfFind i m.line).bind (fun p => p.2.ownerOf)
  if h.wb.any (fun w => w.line == m.line) then s.setHome i { h with wbWait := h.wbWait ++ [m] }
  else if (s.remoteHome m.line).isSome ∧ (owner.any (s.homeDead i)) then s.proxyPoison i m.line m.walled (some m)
  else if s.needsEntry i m ∧ (s.sfFree i m.line).isNone then
    (s.setHome i { h with parked := h.parked ++ [m] }).sfEvict i m.line m.walled
  else s.homeStart i m

/-- A request arrives at a home (R320, R321). -/
def State.homeRequest (s : State) (i : Nat) (m : Msg) : State :=
  let h := s.home i
  if h.blocks m.line then
    if cqTakes h.cq m then s.setHome i { h with cq := h.cq ++ [m] }
    else (s.addFld (8 + i) 0x038 HOME_CQ_STATUS [] HOME_CQ_STATUS_NACKS 1).send (nackOf m (.home i))
  else s.homeServe i m

/-! ## Forwards of another socket's home -/

/-- What a forward or Inv asks of a holder. -/
def msgOp (m : Msg) : DieOp :=
  match m.kind with
  | .fwdS => if m.nc then .fwdNC else .fwdS
  | .fwdX => .fwdX
  | _ => .inv

/-- Whom a proxy home asks for a forward of the line's home (R312, R329), and how: every holder where copies must go, otherwise the
owner. -/
def proxyTargets (e : Option SfEnt) (m : Msg) : List (Agent × MsgKind) :=
  match e with
  | none => []
  | some e =>
    match msgOp m with
    | .fwdS | .fwdNC => (e.ownerOf.map (fun a => (a, MsgKind.fwdS))).toList
    | .fwdX | .inv => e.holders.map (fun a => (a, if e.ownerOf = some a then MsgKind.fwdX else MsgKind.inv))

/-- What a proxy home itself can answer a forward with (R323): the owner's data that its own outstanding request gathered, or its
writeback buffer. -/
def Home.proxyData (h : Home) (line : Nat) : DieAns :=
  match (h.txn line).bind (fun t => t.gathered) with
  | some d => some d
  | none => (h.wb.find? (fun w => w.line == line)).map (fun w => (w.data, w.dirty))

/-- The end of a forward at a proxy home: its entry follows Table 10-7, and the line's home gets the answer. Where the copies had to go, the
data its own request had gathered goes with them. -/
def State.proxyDone (s : State) (i : Nat) (t : Txn) : State :=
  let m := t.req
  let h := s.home i
  let got : DieAns := match t.gathered with
    | some d => some d
    | none => h.proxyData m.line
  let e := (s.sfFind i m.line).map (fun p => p.2)
  let s := s.setHome i { h with
    snoops := h.snoops.filter (fun x => x.line != m.line)
    txns := match msgOp m with
      | .fwdX | .inv => h.txns.map (fun x => if x.line = m.line then { x with data := none, dirty := false } else x)
      | .fwdS | .fwdNC => h.txns }
  let s := match msgOp m, e with
    | .inv, some _ => s.sfDel i m.line
    | .fwdX, some _ => s.sfDel i m.line
    | .fwdS, some e =>
      match e.st, got with
      | .x, some (_, true) => s.sfPut i { e with st := .o }
      | .x, some (_, false) => s.sfPut i { e with st := .s, owner := 0 }
      | _, _ => s
    | _, _ => s
  let s := match msgOp m, got with
    | .fwdS, some (d, dirty) | .fwdNC, some (d, dirty) | .fwdX, some (d, dirty) =>
      s.emitCoh { mkMsg .data (.home i) m.src m.line m.walled with data := d, dirty := dirty, nc := m.nc }
    | _, _ => s.emitCoh (mkMsg .ack (.home i) m.src m.line m.walled)
  s.homeHeld i t.held

/-- A forward or Inv of another socket's home begins at the proxy home: the copies of this socket are asked first (R312, R328). The line of a
dead owner is answered as poison 0x03 (R338), and given back. -/
def State.proxyStart (s : State) (i : Nat) (m : Msg) : State :=
  let e := (s.sfFind i m.line).map (fun p => p.2)
  let owner : Option Agent := e.bind (fun x => x.ownerOf)
  let sn := (proxyTargets e m).filter (fun p => !s.homeDead i p.1)
  let t := { Txn.start m (sn.map (fun p => p.1)) with
    data := if owner.any (s.homeDead i) then some (poisonLine 0x03) else none, dirty := owner.any (s.homeDead i) }
  if sn = [] then s.proxyDone i t
  else
    let h := s.home i
    (s.setHome i { h with snoops := h.snoops ++ [t] }).homeAsk i m sn

/-- Whether a proxy home may begin a forward of a line now: none is in progress, and its own request, if any, is outstanding at the line's
home (R319). -/
def Home.fwdReady (h : Home) (line : Nat) : Bool :=
  !h.snoops.any (fun t => t.line == line) &&
    (match h.txn line with
     | some t => t.phase == .upper
     | none => true)

/-! ## Messages -/

/-- The requests that waited for a line or for a snoop-filter way are served in their order of arrival. -/
def State.homeNext (s : State) (i line : Nat) : State :=
  let h := s.home i
  match h.parked.find? (fun m => m.line % 524288 == line % 524288 && (h.txn m.line).isNone) with
  | some m =>
    if (s.sfFree i m.line).isSome then (s.setHome i { h with parked := h.parked.erase m }).homeStart i m
    else if h.txns.any (fun t => t.req.kind == .inv && t.line % 524288 == line % 524288) then s
    else s.sfEvict i m.line m.walled
  | none =>
    match h.cq.find? (fun m => m.line == line) with
    | some m => (s.setHome i { h with cq := h.cq.erase m }).homeServe i m
    | none => s

/-- What waits for a line after a message: forwards of the line's own home first, as far as its request allows them (R319), then, when the
line is free again, the next request. -/
def State.homeAdvance (s : State) (i line fuel : Nat) : State :=
  match fuel with
  | 0 => s
  | n + 1 =>
    let h := s.home i
    match (if h.fwdReady line then h.fwds.find? (fun m => m.line == line) else none) with
    | some m => ((s.setHome i { h with fwds := h.fwds.erase m }).proxyStart i m).homeAdvance i line n
    | none =>
      if (h.txn line).isSome || h.snoops.any (fun t => t.line == line) || h.wbWait.any (fun m => m.line == line) then s
      else if h.cq.any (fun m => m.line == line) || h.parked.any (fun m => m.line % 524288 == line % 524288) then
        (s.homeNext i line).homeAdvance i line n
      else s

/-- A WbM or EvC arrives at a home: accepted, acknowledged, and applied or held (R322). -/
def State.homeWriteback (s : State) (i : Nat) (m : Msg) : State :=
  let s := s.send { mkMsg .wbAck (.home i) m.src m.line m.walled with core := m.core }
  let held := fun (s : State) => (s.addFld (8 + i) 0x038 HOME_CQ_STATUS [] HOME_CQ_STATUS_HELD_WB 1).homeCount i 5 m.walled
  let h := s.home i
  if h.snoops.any (fun t => t.line == m.line) then
    held (s.setHome i { h with snoops := h.snoops.map (fun t => if t.line = m.line then { t with held := t.held ++ [m] } else t) })
  else match h.txn m.line with
    | some t => (held s).setHomeTxn i { t with held := t.held ++ [m] }
    | none => s.homeWb i m

/-- A transaction with the answer of one agent taken. -/
def Txn.take (t : Txn) (m : Msg) : Txn :=
  { t with await := t.await.erase m.src, data := if m.kind = .data then some m.data else t.data, dirty := t.dirty || (m.kind == .data && m.dirty) }

/-- Data or Ack arrives at a home: an answer to its snoops, or the grant of the line's own home (R312). -/
def State.homeAnswer (s : State) (i : Nat) (m : Msg) : State :=
  let h := s.home i
  match h.snoops.find? (fun t => t.line == m.line && t.await.contains m.src) with
  | some t =>
    let t := t.take m
    if t.await = [] then s.proxyDone i t
    else s.setHome i { h with snoops := h.snoops.map (fun x => if x.line = m.line then t else x) }
  | none =>
  match h.txn m.line with
  | none => s
  | some t =>
    if !t.await.contains m.src then s
    else
      match t.phase with
      | .snoop =>
        let t := t.take m
        let s := s.setHomeTxn i t
        let s := match m.src with
          | .iommu _ =>
            match s.sfFind i m.line with
            | some (_, e) => if t.await.any (fun a => a == .iommu 0 || a == .iommu 1) then s else s.sfKeep i { e with io := false }
            | none => s
          | .tile _ | .llc _ | .home _ | .socket _ | .nca _ => s
        if t.await = [] then s.homeReady i t else s
      | .upper =>
        let s := if m.kind = .data ∨ m.kind = .ack then
            match m.grant, m.src with
            | .none, _ => s
            | _, .socket n => s.emitCoh (mkMsg .cmp (.home i) (.socket n) m.line m.walled)
            | _, _ => s
          else s
        if m.kind = .ack then s.homeGrant i t ((t.gathered.map (fun d => d.1)).getD []) true (some .m)
        else s.homeGrant i t m.data false (some m.grant)
      | .cmp => s

/-- Cmp arrives at a home: the requester's transaction ends (R320); from a line's own home it ends a proxy's WrInv. -/
def State.homeCmp (s : State) (i : Nat) (m : Msg) : State :=
  match (s.home i).txn m.line with
  | none => s
  | some t =>
    if t.phase = .cmp ∧ t.await = [m.src] then s.homeEnd i t
    else if t.phase = .upper ∧ t.req.kind = .wrInv ∧ t.await = [m.src] then s.homeGrant i t [] false (some .none)
    else s

/-- WbAck arrives at a proxy home: its writeback buffer's entry is free, and what waited for it goes on (R317). -/
def State.homeWbAck (s : State) (i : Nat) (m : Msg) : State :=
  let h := s.home i
  match h.wb.find? (fun w => w.line == m.line) with
  | none => s
  | some w =>
    let waiting := h.wbWait.filter (fun x => x.line == m.line)
    let s := s.setHome i { h with wb := h.wb.erase w, wbWait := h.wbWait.filter (fun x => x.line != m.line) }
    let s := match (s.home i).txn m.line, s.remoteHome m.line with
      | some t, some n => if t.phase = .upper ∧ t.await = [] then s.proxySend i n t else s
      | _, _ => s
    waiting.foldl (fun (s : State) q =>
      let h := s.home i
      if h.blocks m.line then s.setHome i { h with cq := h.cq ++ [q] } else s.homeServe i q) s

/-- AGENT of HOME_TO_LOG. -/
def agentCode (a : Agent) : Nat :=
  match a with
  | .llc lt => lt / 32
  | .socket n => 8 + n
  | .iommu i => 0x10 + i
  | .tile lt => lt % 32
  | .home _ | .nca _ => 0

/-- Whether a home's injection discards a message: an answer or a Cmp from the agent that ERB_INJ_PARAM names (Table 20-4,
SILENCE). -/
def State.silenced (s : State) (i : Nat) (m : Msg) : Bool × State :=
  let from_ : Bool := match m.src with
    | .llc _ | .socket _ | .iommu _ => agentCode m.src == s.fld (8 + i) 0x038 ERB_INJ_PARAM [] ERB_INJ_PARAM_AGENT
    | .tile _ | .home _ | .nca _ => false
  if from_ && (m.kind == .data || m.kind == .ack || m.kind == .cmp) then
    match s.inject (8 + i) 0x038 1 m.walled with
    | (some _, s) =>
      (true, match (s.home i).txn m.line with
        | some t => s.setHomeTxn i { t with inj := true }
        | none => s)
    | (none, s) => (false, s)
  else (false, s)

/-- A refused request at its sender, which sends it again, marked as retried (R321). -/
def State.takeNack (s : State) (m : Msg) : State :=
  { s with nacked := s.nacked ++ [{ m with kind := m.refused, src := m.dst, dst := m.src, retried := true }] }

/-- A message arrives at a home. Messages of dead agents are discarded (R338). -/
def State.homeMsg (s : State) (i : Nat) (m : Msg) : State :=
  if s.homeDead i m.src then s.setFld (8 + i) 0x038 HOME_STATUS [] HOME_STATUS_DEAD_MSG 1
  else
    let (gone, s) := s.silenced i m
    if gone then s
    else
    let s := s.sfCheck i m.line
    let s := match m.kind with
      | .rdS | .rdX | .upg | .rdNC | .wrInv => s.homeRequest i m
      | .wbM | .evC => s.homeWriteback i m
      | .data | .ack => s.homeAnswer i m
      | .cmp => s.homeCmp i m
      | .fwdS | .fwdX | .inv => s.setHome i { s.home i with fwds := (s.home i).fwds ++ [m] }
      | .nack => s.takeNack m
      | .wbAck => s.homeWbAck i m
    s.homeAdvance i m.line 64

/-! ## Timeouts -/

/-- An agent marked dead at a home (R337, HOME_DEAD). -/
def State.markDead (s : State) (i : Nat) (a : Agent) : State :=
  let put := fun (f : RField) (b : Nat) =>
    s.setFld (8 + i) 0x038 HOME_DEAD [] f (s.fld (8 + i) 0x038 HOME_DEAD [] f ||| 2 ^ b)
  match a with
  | .llc lt => put HOME_DEAD_DIES (lt / 32)
  | .socket n => put HOME_DEAD_SOCKETS n
  | .iommu n => put HOME_DEAD_IOMMU n
  | .tile _ | .home _ | .nca _ => s

/-- R337: the silent agents of a home's timer marked dead, with the log and the record of the first of them. -/
def State.homeSilent (s : State) (i line : Nat) (silent : List Agent) (isCmp inj walled : Bool) : State :=
  let s := silent.foldl (fun s a => s.markDead i a) s
  let a := silent.headD (.home i)
  let s := if s.flag (8 + i) 0x038 HOME_TO_LOG [] HOME_TO_LOG_VALID then s
    else s.setReg (8 + i) 0x038 HOME_TO_LOG [] (v64 (line + agentCode a * 2 ^ 45 + isCmp.toNat * 2 ^ 50 + 2 ^ 63))
  let s := (s.setFld (8 + i) 0x038 HOME_STATUS [] HOME_STATUS_TIMEOUT 1).homeCount i 7 walled
  s.err (8 + i) 0x038 { ErrRec.mk1 4 0x05 (agentCode a) (line * 128) with inj := inj, walled := walled, poison := 3, misc := agentCode a }

/-- An entry without some dead agents (R337): its owner stays while it lives. -/
def SfEnt.without (e : SfEnt) (dead : List Agent) : SfEnt :=
  let e' := dead.foldl (fun (e : SfEnt) a => e.drop a) e
  if e.ownerOf.any (fun o => dead.contains o) then { e' with st := .s, owner := 0 } else e'

/-- The answer that a waiting requester gets when a home's timer expires: every word poison 0x03 (R337), Cmp for a store, whose bytes are
dropped (DESIGN CHOICE, entry 48). -/
def State.poisonAnswer (s : State) (i : Nat) (m : Msg) : State :=
  match m.kind with
  | .wrInv => s.send (answerMsg i m .cmp .none [])
  | .inv => s
  | .rdNC => s.send (answerMsg i m .data .none (poisonLine 0x03))
  | .rdS => s.send (answerMsg i m .data .s (poisonLine 0x03))
  | _ => s.send (answerMsg i m .data .m (poisonLine 0x03))

/-- The snoop-filter entry after a home's timer expired (R337), from the entry without the dead agents. -/
def timeoutEntry (e : SfEnt) (m : Msg) : Option SfEnt :=
  match m.kind, m.src with
  | .rdS, _ => some (e.add m.src)
  | .rdX, _ | .upg, _ => some (SfEnt.owned m.line m.src)
  | .rdNC, .iommu _ => some (e.add m.src)
  | .rdNC, _ => some e
  | _, _ => none

/-- R337 at the line's own home: the timer of a blocked line expires. Held writebacks of live holders are applied. -/
def State.homeExpire (s : State) (i : Nat) (t : Txn) : State :=
  let isCmp : Bool := t.phase == .cmp
  let s := s.homeWrite t.line (poisonLine 0x03) t.req.walled
  let e := (((s.sfFind i t.line).map (fun p => p.2)).getD (SfEnt.blank t.line)).without t.await
  let s := match if isCmp then some e else timeoutEntry e t.req with
    | some x => s.sfKeep i x
    | none => s.sfDel i t.line
  let s := if isCmp then s else s.poisonAnswer i t.req
  (s.homeSilent i t.line t.await isCmp t.inj t.req.walled).homeEnd i t

/-- R337 at a proxy home: a line that a dead agent of this socket owned goes back to its home as poison, and a request that waited for it is
served from there. -/
def State.proxyExpire (s : State) (i n : Nat) (t : Txn) : State :=
  let m := t.req
  let isCmp : Bool := t.phase == .cmp
  let owned : Bool := match s.sfFind i t.line with
    | some (_, e) => e.ownerOf.any (fun o => t.await.contains o)
    | none => false
  let s := (s.homeSilent i t.line t.await isCmp t.inj m.walled).delHomeTxn i t.line
  let keep := fun (s : State) =>
    match s.sfFind i t.line with
    | none => s
    | some (_, e) =>
      let s := s.sfKeep i (e.without t.await)
      if (s.sfFind i t.line).isSome then s else s.proxyWb i n t.line none m.walled
  if isCmp ∧ !owned then (keep s).homeHeld i t.held
  else s.proxyPoison i t.line m.walled (if isCmp ∨ m.kind = .inv then none else some m)

/-- R337 for a forward of another socket's home at its proxy: the line's home gets the line as poison. -/
def State.proxySilent (s : State) (i : Nat) (t : Txn) : State :=
  let s := s.homeSilent i t.line t.await false t.inj t.req.walled
  let s := match s.sfFind i t.line with
    | some (_, e) => s.sfKeep i (e.without t.await)
    | none => s
  let s := s.proxyDone i { t with await := [], data := some (poisonLine 0x03), dirty := true }
  match msgOp t.req with
  | .fwdX | .inv => s
  | .fwdS | .fwdNC => if ((s.home i).txn t.line).isSome then s else s.proxyPoison i t.line t.req.walled none

/-- R337 at a home: the timer of a blocked line expires. -/
def State.homeTimeout (s : State) (i line : Nat) : State :=
  let h := s.home i
  match h.snoops.find? (fun t => t.line == line), h.txn line with
  | some t, _ => (s.proxySilent i t).homeAdvance i line 64
  | none, none => s
  | none, some t =>
    if t.phase = .upper then s
    else match s.remoteHome line with
      | none => (s.homeExpire i t).homeAdvance i line 64
      | some n => (s.proxyExpire i n t).homeAdvance i line 64

end Sys2Proof.Machine
end

