-- ==== Sys2Proof/Machine/Slices.lean ====
section
/-! DEFINITION. The LLC slices (10_coherence.md): the requests of their tiles (Table 10-5), forwards of the home, held writebacks, the
conflict queue, and what waits for a way or for a WbAck (R297, R300, R317). -/
set_option autoImplicit false
namespace Sys2Proof.Machine

/-- The transaction that blocks a line at a slice. -/
def Slice.txn (x : Slice) (line : Nat) : Option Txn := x.txns.find? (fun t => t.line == line)
/-- A slice's transaction written. -/
def State.setLlcTxn (s : State) (lt : Nat) (t : Txn) : State :=
  let x := s.slice lt
  s.setSlice lt { x with txns := x.txns.filter (fun y => y.line != t.line) ++ [t] }
/-- A slice's transaction ended. -/
def State.delLlcTxn (s : State) (lt line : Nat) : State :=
  let x := s.slice lt
  s.setSlice lt { x with txns := x.txns.filter (fun y => y.line != line) }

/-- The scan index of a tile that sends a message. -/
def State.srcScan (s : State) (a : Agent) : Nat :=
  match a with
  | .tile t => s.scanOf t
  | .llc _ | .home _ | .socket _ | .iommu _ | .nca _ => 63

/-- A writeback or eviction notice applied at a slice (R322, Table 10-5). The data of a WbM from the exclusive holder is written; that of
a holder already downgraded is what the slice has (R313). -/
def State.llcWb (s : State) (lt : Nat) (m : Msg) : State :=
  match s.llcFind lt m.line false true with
  | none => s
  | some (key, l) =>
    let b := s.srcScan m.src
    if !natBit l.pres b then s
    else
      let owned : Bool := l.excl && (l.st == .m || l.st == .e)
      let l' := { l with pres := clearBit l.pres b, excl := false }
      s.llcPut lt key (if m.kind = .wbM ∧ owned then { l'.fresh m.data with st := .m } else l')

/-- Whether a tile of the slice's die has been marked dead (R338). -/
def State.tileDead (s : State) (a : Agent) : Bool :=
  match a with
  | .tile t => (s.tile t).dead
  | .llc _ | .home _ | .socket _ | .iommu _ | .nca _ => false

/-- The end of a slice's blocked line: the writebacks held with it are applied, but those of dead tiles. -/
def State.llcEnd (s : State) (lt : Nat) (t : Txn) : State :=
  t.held.foldl (fun s m => if s.tileDead m.src then s else s.llcWb lt m) (s.delLlcTxn lt t.line)

/-- The Data or Ack of a slice to a tile. -/
def llcAnswerMsg (lt : Nat) (m : Msg) (kind : MsgKind) (g : Grant) (ws : List Word) : Msg :=
  { mkMsg kind (.llc lt) m.src m.line m.walled with grant := g, data := ws, core := m.core }

/-- A slice's line granted to the requesting tile (Table 10-5), which then owes Cmp. A line that a FwdS
brought (`asked`) is granted S. A timer that
expired meanwhile makes every word poison 0x03 (R337). -/
def State.llcGrant (s : State) (lt : Nat) (t : Txn) (key : Nat) (l : CacheLine) (asked : Bool) : State :=
  let m := t.req
  let b := s.srcScan m.src
  let t' := { t with phase := .cmp, await := [m.src] }
  let ws := if t.poisoned then poisonLine 0x03 else l.data
  match m.kind with
  | .rdS =>
    let owned : Bool := (l.st == .e || l.st == .m) && (l.pres == 0 || l.pres == 2 ^ b) && !asked
    let s := s.llcPut lt key { l with pres := l.pres ||| 2 ^ b, excl := owned }
    (s.setLlcTxn lt t').send (llcAnswerMsg lt m .data (if owned then .e else .s) ws)
  | _ =>
    let keeps : Bool := m.kind == .upg && natBit l.pres b && !t.poisoned
    let s := s.llcPut lt key { l with st := .m, pres := 2 ^ b, excl := true }
    (s.setLlcTxn lt t').send (if keeps then llcAnswerMsg lt m .ack .m [] else llcAnswerMsg lt m .data .m ws)

/-- Tiles of a slice's die that hold a line, but for one. -/
def State.otherTiles (s : State) (lt : Nat) (l : CacheLine) (a : Agent) : List Nat :=
  (s.presTiles lt l.pres).filter (fun t => !(Agent.tile t == a))

/-- A request put among those that wait at a slice. -/
def State.llcPark (s : State) (lt : Nat) (m : Msg) : State := s.setSlice lt { s.slice lt with parked := (s.slice lt).parked ++ [m] }

/-- A miss of a slice asks the home (Table 10-5, state I). It waits while no way may take the line (R297, R300), and while the line awaits
WbAck in the slice's writeback buffer (R317). -/
def State.llcMiss (s : State) (lt : Nat) (m : Msg) : State :=
  if !s.llcRoom lt m.line (m.walled || m.pl3) || (s.slice lt).wb.any (fun w => w.line == m.line) then s.llcPark lt m
  else
    let home := s.homeOf m.line
    let s := s.llcCount lt 2 m.walled
    (s.setLlcTxn lt { Txn.start m [.home home] with phase := .upper }).send
      { mkMsg (if m.kind = .rdS then .rdS else .rdX) (.llc lt) (.home home) m.line m.walled with pl3 := m.pl3, core := m.core }

/-- R324: the other world's copy of a line leaves the die as by CMO.CLI, its tile copies first, with WbM or EvC to the home; the request
waits for the WbAck (R317). -/
def State.llcOtherWorld (s : State) (lt : Nat) (m : Msg) : State :=
  let s := match s.llcFind lt m.line false true with
    | some (key, _) =>
      let s := s.llcCheck lt key
      match tfind (s.slice lt).lines key with
      | some l =>
        let (l, s) := s.tilesTake lt l
        (s.llcDel lt key).llcOut lt l
      | none => s
    | none =>
      let s := s.vbCheck lt m.line
      let x := s.slice lt
      match x.vb.find? (fun (l : CacheLine) => l.line == m.line) with
      | some l => (s.setSlice lt { x with vb := x.vb.filter (fun e => e.line != m.line) }).llcOut lt l
      | none => s
  s.llcPark lt m

/-- A request of a tile served from a line of the slice (Table 10-5): granted at once, or after the tiles' answers and, for ownership of an
S or O line, the home's. -/
def State.llcHit (s : State) (lt : Nat) (m : Msg) (key : Nat) (l : CacheLine) : State :=
  let others := s.otherTiles lt l m.src
  let owned : Bool := l.st == .m || l.st == .e
  let excl : Bool := l.excl && others != []
  let t := Txn.start m []
  let snoop := fun (s : State) (k : MsgKind) (up : List Agent) =>
    let s := s.setLlcTxn lt { t with await := others.map Agent.tile ++ up }
    others.foldl (fun s x => s.send (mkMsg k (.llc lt) (.tile x) m.line m.walled)) s
  match m.kind with
  | .rdS => if excl then snoop s .fwdS [] else s.llcGrant lt t key l false
  | _ =>
    if owned then
      if others = [] then s.llcGrant lt t key l false
      else snoop s (if excl then .fwdX else .inv) []
    else
      let home := s.homeOf m.line
      (snoop s .inv [.home home]).send
        { mkMsg .upg (.llc lt) (.home home) m.line m.walled with pl3 := m.pl3, core := m.core }

/-- R287: the victim-buffer entry of a line leaves the buffer for a way of its own world (for an Open line recalled at PL3, DESIGN CHOICE,
entry 50), and the request is served from it. Without a way that may take it, it stays and the request waits. -/
def State.llcRecall (s : State) (lt : Nat) (m : Msg) (l0 : CacheLine) : State :=
  if !s.llcRoom lt m.line l0.walled then s.llcPark lt m
  else
    let s := s.vbCheck lt m.line
    let x := s.slice lt
    let l := (x.vb.find? (fun (l : CacheLine) => l.line == m.line)).getD l0
    let s := s.setSlice lt { x with vb := x.vb.filter (fun e => e.line != m.line) }
    let s := (s.addFld (ltDie lt) (llcUnit lt) LLC_VB_STATUS [] LLC_VB_STATUS_RECALLS 1).llcCount lt 3 m.walled
    let s := s.llcInstall lt l
    match s.llcFind lt m.line false true with
    | some (key, l) => s.llcHit lt m key l
    | none => s

/-- A request served at a slice whose line is not blocked (Table 10-5): errors met on the read (R290), the victim buffer
(R287) and the other world's copy (R324) come first. -/
def State.llcServe (s : State) (lt : Nat) (m : Msg) : State :=
  let s := s.llcCount lt 1 m.walled
  match s.llcFind lt m.line false true with
  | some (key, l) =>
    if l.walled = m.walled ∨ m.pl3 then
      let s := s.llcCheck lt key
      match tfind (s.slice lt).lines key with
      | some l => s.llcHit lt m key l
      | none => s
    else s.llcOtherWorld lt m
  | none =>
    match (s.slice lt).vb.find? (fun (l : CacheLine) => l.line == m.line) with
    | none => s.llcMiss lt m
    | some l => if l.walled = m.walled ∨ m.pl3 then s.llcRecall lt m l else s.llcOtherWorld lt m

/-- A request arrives at a slice (R320, R321). -/
def State.llcRequest (s : State) (lt : Nat) (m : Msg) : State :=
  let x := s.slice lt
  if (x.txn m.line).isSome || x.cq.any (fun y => y.line == m.line) || x.parked.any (fun y => y.line == m.line) then
    if cqTakes x.cq m then s.setSlice lt { x with cq := x.cq ++ [m] }
    else (s.llcCount lt 7 m.walled).send (nackOf m (.llc lt))
  else s.llcServe lt m

/-- The answer of an LLC or tile to the sender of a forward. -/
def snoopAnswer (who : Agent) (m : Msg) (a : DieAns) : Msg :=
  match a with
  | some (d, dirty) => { mkMsg .data who m.src m.line m.walled with data := d, dirty := dirty, nc := m.nc }
  | none => mkMsg .ack who m.src m.line m.walled

/-- Whether a slice serves a forward of the home for a line now (R319): the line is not blocked, or the slice's own request for it is
outstanding at the home. -/
def Slice.takesFwd (x : Slice) (line : Nat) : Bool :=
  match x.txn line with
  | none => true
  | some t => t.phase == .upper || t.await.any (fun a => match a with
    | .home _ => true
    | .tile _ | .llc _ | .socket _ | .iommu _ | .nca _ => false)

/-- A forward of the home served at a slice (R323, R328). -/
def State.llcFwd (s : State) (lt : Nat) (m : Msg) : State :=
  let (a, s) := s.dieAnswer (ltDie lt) m.line (msgOp m)
  s.send (snoopAnswer (.llc lt) m a)

/-- The conflict queue of a line after a message, in its order of arrival: a forward as soon as R319 allows it, a request when the line is
free. -/
def State.llcAdvance (s : State) (lt line fuel : Nat) : State :=
  match fuel with
  | 0 => s
  | n + 1 =>
    let x := s.slice lt
    let free : Bool := (x.txn line).isNone && !x.parked.any (fun m => m.line == line)
    match x.cq.find? (fun m => m.line == line && (if isFwd m.kind then x.takesFwd line else free)) with
    | some m =>
      let s := s.setSlice lt { x with cq := x.cq.erase m }
      (if isFwd m.kind then s.llcFwd lt m else s.llcServe lt m).llcAdvance lt line n
    | none => s

/-- Every answer a slice awaited has arrived: the line is granted; when a forward of the home took it meanwhile, the request
starts again. -/
def State.llcReady (s : State) (lt : Nat) (t : Txn) : State :=
  match s.llcFind lt t.line false true with
  | some (key, l) => s.llcGrant lt t key l (t.phase == .snoop)
  | none => (s.llcEnd lt t).llcServe lt t.req

/-- The state of an LLC line that the home grants. -/
def grantSt (g : Grant) : LineState :=
  match g with
  | .s => .s
  | .e => .e
  | .m | .none => .m

/-- The home's Data enters the slice, which then owes the home Cmp. With no way to take the line, it waits with its transaction (R297,
R300). -/
def State.llcFill (s : State) (lt : Nat) (t : Txn) (home : Agent) (g : Grant) (ws : List Word) : State :=
  let m := t.req
  let done := fun (s : State) => s.send (mkMsg .cmp (.llc lt) home t.line m.walled)
  match s.llcFind lt t.line false true with
  | some (key, l) =>
    let s := done (s.llcPut lt key { l.fresh ws with st := if g = .s then .s else .m })
    if t.await = [] then s.llcReady lt t else s
  | none =>
    if s.llcRoom lt t.line (m.walled || m.pl3) then
      let s := done (s.llcInstall lt
        { line := t.line, st := grantSt g, walled := m.walled || m.pl3, pres := 0, excl := false, data := ws, bad := [] })
      if t.await = [] then s.llcReady lt { t with data := none } else s
    else s.setLlcTxn lt { t with data := some ws, grant := g }

/-- What waited at a slice for a way, for the end of a flush or for a WbAck is taken up again. -/
def State.llcResume (s : State) (lt : Nat) : State :=
  let s := (s.slice lt).txns.foldl (fun (s : State) t =>
    if t.grant = .none then s else s.llcFill lt { t with grant := .none } (.home (s.homeOf t.line)) t.grant (t.data.getD [])) s
  let waiting := (s.slice lt).parked
  let s := waiting.foldl (fun (s : State) m =>
    let x := s.slice lt
    if (x.txn m.line).isSome || x.parked.any (fun y => y.line == m.line) then s.llcPark lt m else s.llcServe lt m)
    (s.setSlice lt { s.slice lt with parked := [] })
  waiting.foldl (fun (s : State) m => s.llcAdvance lt m.line 64) s

/-- An answer of a tile to its slice: the data of a dirty copy, or of a WbM held meanwhile (R322), is the line's; a tile that answers a
FwdS with Data keeps a copy. -/
def State.llcTileAnswer (s : State) (lt : Nat) (t : Txn) (x : Nat) (m : Msg) : State :=
  match s.llcFind lt m.line false true with
  | none => s
  | some (key, l) =>
    let held := t.held.find? (fun h => h.kind == .wbM && h.src == m.src)
    let l' := if m.kind = .data ∧ m.dirty then { l.fresh m.data with st := .m }
      else match m.kind, held with
        | .ack, some h => if l.excl then { l.fresh h.data with st := .m } else l
        | _, _ => l
    let keep : Bool := t.req.kind == .rdS && m.kind == .data
    s.llcPut lt key { l' with excl := false, pres := if keep then l.pres else clearBit l.pres (s.scanOf x) }

/-- Data or Ack arrives at a slice: from its tiles, or the home's grant. -/
def State.llcAnswer (s : State) (lt : Nat) (m : Msg) : State :=
  match (s.slice lt).txn m.line with
  | none => s
  | some t =>
    if !t.await.contains m.src ∨ t.phase = .cmp then s
    else
      let t' := { t with await := t.await.erase m.src }
      let s := s.setLlcTxn lt t'
      match m.src with
      | .tile x =>
        let s := s.llcTileAnswer lt t x m
        if t'.await = [] then s.llcReady lt t' else s
      | .home _ =>
        if m.kind = .data then s.llcFill lt t' m.src m.grant m.data
        else
          let s := s.send (mkMsg .cmp (.llc lt) m.src m.line m.walled)
          let s := match s.llcFind lt m.line false true with
            | some (key, l) => s.llcPut lt key { l with st := .m }
            | none => s
          if t'.await = [] then s.llcReady lt t' else s
      | .llc _ | .socket _ | .iommu _ | .nca _ => s

/-- A WbM or EvC arrives at a slice (R322). -/
def State.llcWriteback (s : State) (lt : Nat) (m : Msg) : State :=
  let s := s.send (mkMsg .wbAck (.llc lt) m.src m.line m.walled)
  match (s.slice lt).txn m.line with
  | some t => s.setLlcTxn lt { t with held := t.held ++ [m] }
  | none => s.llcWb lt m

/-- A message arrives at a slice. Messages of dead tiles are discarded (R338). -/
def State.llcMsg (s : State) (lt : Nat) (m : Msg) : State :=
  if s.tileDead m.src then s
  else
    let s := match m.kind with
      | .rdS | .rdX | .upg => s.llcRequest lt m
      | .wbM | .evC => s.llcWriteback lt m
      | .data | .ack => s.llcAnswer lt m
      | .cmp =>
        match (s.slice lt).txn m.line with
        | some t => if t.phase = TxnPhase.cmp ∧ t.await = [m.src] then (s.llcEnd lt t).llcResume lt else s
        | none => s
      | .fwdS | .fwdX | .inv =>
        let x := s.slice lt
        if x.takesFwd m.line then s.llcFwd lt m else s.setSlice lt { x with cq := x.cq ++ [m] }
      | .wbAck =>
        let x := s.slice lt
        match x.wb.find? (fun (w : WbEnt) => w.line == m.line) with
        | some w => (s.setSlice lt { x with wb := x.wb.erase w }).llcResume lt
        | none => s
      | .nack => s.takeNack m
      | .rdNC | .wrInv => s
    s.llcAdvance lt m.line 64

/-- R337 at a slice: the LLC copy is poisoned, and the silent tile is dead and quarantined (R338). The requester gets poison; while the
slice's own request for the line is out at the home, its grant is awaited first. The quarantine itself is `quar`, the operation of R267
step 5. -/
def State.llcTimeout (s : State) (lt line : Nat) (quar : State → Nat → State) : State :=
  match (s.slice lt).txn line with
  | none => s
  | some t =>
    let tiles := t.await.filterMap (fun a => match a with
      | .tile x => some x
      | .llc _ | .home _ | .socket _ | .iommu _ | .nca _ => none)
    if t.phase = .upper ∨ tiles = [] then s
    else
      let m := t.req
      let up := t.await.filter (fun a => !tiles.any (fun x => a == .tile x))
      let s := tiles.foldl (fun s x => s.setTile x { s.tile x with dead := true }) s
      let s := match s.llcFind lt line false true with
        | some (key, l) =>
          let left := tiles.foldl (fun p x => clearBit p (s.scanOf x)) l.pres
          s.llcPut lt key { l.fresh (poisonLine 0x03) with st := if l.st = LineState.e then LineState.m else l.st, excl := false, pres := left }
        | none => s
      let a := tiles.headD 0
      let s := s.err (ltDie lt) (llcUnit lt) { ErrRec.mk1 4 0x05 (a % 32) (line * 128) with
        walled := m.walled, poison := 3, misc := a % 32 }
      let s :=
        if t.phase = .cmp then s.llcEnd lt t
        else if up = [] then s.llcReady lt { t with await := [], poisoned := true }
        else s.setLlcTxn lt { t with await := up, poisoned := true }
      tiles.foldl quar (s.llcAdvance lt line 64)

end Sys2Proof.Machine
end

