-- ==== Sys2Proof/Machine/Coherence.lean ====
section
/-! DEFINITION. Coherence (10_coherence.md): what the tiles and the IOMMUs do with each message, the order in which messages are
delivered (R316, R321, R322), and the reads and writes of non-caching agents (R330). -/
set_option autoImplicit false
namespace Sys2Proof.Machine

/-! ## Tiles -/

/-- The answer of an L2 to its slice (Table 10-7): its copy, or its writeback buffer's contents (R323). A stop whose domain is in T3 or T4
answers Ack (R335). -/
def State.tileAnswer (s : State) (lt line : Nat) (op : DieOp) : DieAns × State :=
  if s.tileSt lt ≥ 3 then (none, s)
  else
    let s := s.setTile lt { s.tile lt with fills := (s.tile lt).fills.filter (fun m => m.line != line) }
    let s := s.l2CheckLine lt line
    let buf : DieAns := ((s.tile lt).wb.find? (fun w => w.line == line)).map (fun w => (w.data, w.dirty))
    let ans : DieAns := match op, s.l2Any lt line with
      | .inv, _ => none
      | _, some (_, l) =>
        match l.st with
        | .m => some (l.data, true)
        | .e => some (l.data, false)
        | .o => some (l.data, true)
        | .s => none
      | _, none => buf
    (ans, match op with
      | .fwdNC => s.tileMeet lt line
      | .fwdS => (s.tileDown lt line).2
      | .fwdX => (s.tileTake lt line).2
      | .inv => (s.tileTake lt line).2)

/-- The outstanding request of a tile for a line. -/
def TileCache.missOf (t : TileCache) (line : Nat) : Option Msg := t.miss.find? (fun m => m.line == line)

/-- A fill-shelf copy given up (R239): where nothing else of the tile holds the line or asks for it, the tile sends EvC. -/
def State.tileForget (s : State) (lt line : Nat) (walled : Bool) : State :=
  let t := s.tile lt
  let shelf := fun lc => (s.core lc).shelf.any (fun e => e.line == line)
  if (s.l2Any lt line).isSome || (t.missOf line).isSome || shelf (2 * lt) || shelf (2 * lt + 1) || t.wb.any (fun w => w.line == line) then s
  else (s.setTile lt { t with wb := t.wb ++ [⟨line, false, []⟩] }).send (mkMsg .evC (.tile lt) (.llc (llcOf (ltDie lt) line)) line walled)

/-- A line from beyond the L2 enters a core's fill shelf as a shared copy (R237). The shelf has 32 entries; the instruction in progress
always obtains one (R241), for which the oldest entry of a full shelf is given up (DESIGN CHOICE, entry 40). -/
def State.shelfFill (s : State) (lc line : Nat) (beyond : Bool) (ws : List Word) (walled : Bool) : State :=
  let c := s.core lc
  let full : Bool := decide (c.shelf.length ≥ 32)
  let s := s.setCore lc { c with shelf := (if full then c.shelf.drop 1 else c.shelf) ++ [⟨line, beyond, ws⟩] }
  match c.shelf with
  | o :: _ => if full && o.beyondL2 then s.tileForget (lcTile lc) o.line walled else s
  | [] => s

/-- A granted line installed in the L2, or, while a full flush is in progress, kept until it ends (R297). -/
def State.tileFill (s : State) (lt : Nat) (m : Msg) : State :=
  match s.l2Any lt m.line, m.kind with
  | some (key, l), .ack => s.l2Put lt key { l with st := .m }
  | some (key, l), _ => s.l2Put lt key { l.fresh m.data with st := grantSt m.grant }
  | none, .data =>
    if (s.tile lt).flushing then s.setTile lt { s.tile lt with fills := (s.tile lt).fills ++ [m] }
    else s.l2Install lt
      { line := m.line, st := grantSt m.grant, walled := m.walled, pres := 0, excl := false, data := m.data, bad := [] }
  | none, _ => s

/-- What a quarantined tile does with a line granted to it after its fatal path (R267 step 2): a line that it asked to own goes back as
poison 0x04, a shared copy with EvC. -/
def State.tileReturn (s : State) (lt : Nat) (q : Msg) : State :=
  let own : Bool := q.kind != .rdS
  let ws := poisonLine 0x04
  let t := s.tile lt
  (s.setTile lt { t with wb := t.wb ++ [⟨q.line, own, if own then ws else []⟩] }).send
    { mkMsg (if own then .wbM else .evC) (.tile lt) (.llc (llcOf (ltDie lt) q.line)) q.line q.walled with data := if own then ws else [] }

/-- Data or Ack arrives at a tile: into the fill shelf of the core whose access asked for a shared copy (R237), otherwise into the
L2; the slice gets Cmp. -/
def State.tileData (s : State) (lt : Nat) (m : Msg) : State :=
  match (s.tile lt).missOf m.line with
  | none => s
  | some q =>
    let t := s.tile lt
    let s := s.setTile lt { t with miss := t.miss.erase q }
    let s := s.send (mkMsg .cmp (.tile lt) m.src m.line m.walled)
    if s.tileSt lt = 4 then s.tileReturn lt q
    else match q.kind, q.core with
    | .rdS, some lc => s.shelfFill lc m.line true m.data q.walled
    | _, _ => s.tileFill lt { m with walled := q.walled }

/-- A message arrives at a tile. -/
def State.tileMsg (s : State) (lt : Nat) (m : Msg) : State :=
  match m.kind with
  | .data | .ack => s.tileData lt m
  | .fwdS | .fwdX | .inv =>
    let (a, s) := s.tileAnswer lt m.line (msgOp m)
    let r := snoopAnswer (.tile lt) m a
    (s.rbPass lt (snoopEnt r)).2.send r
  | .wbAck =>
    let t := s.tile lt
    match t.wb.find? (fun (w : WbEnt) => w.line == m.line) with
    | some w => (s.setTile lt { t with wb := t.wb.erase w }).rbRetry lt
    | none => s
  | .nack => s.takeNack m
  | .rdS | .rdX | .upg | .rdNC | .wrInv | .wbM | .evC | .cmp => s

/-- Inv arrives at an IOMMU: every cached table line and every translation derived from it goes (R329, R479). -/
def State.iommuInv (s : State) (i line : Nat) : State :=
  let x := s.iommu i
  s.setIommu i { x with lines := x.lines.filter (fun l => l != line), tlb := x.tlb.filter (fun e => !e.lines.contains line) }

/-! ## Delivery -/

/-- A message taken from the messages in flight, when it is there. -/
def State.takeMsg (s : State) (m : Msg) : State := { s with net := s.net.erase m }

/-- Whether a non-caching agent goes on only with the Cmp of its write: a Urn half, an x16 port, the root that
writes a round's header, or a core's CMO. -/
def ncaAwaits (a : Agent) : Bool :=
  match a with
  | .nca n => n == 512 || n == 513 || within 520 n 529 || n == 1862 || decide (131072 ≤ n)
  | .tile _ | .llc _ | .home _ | .socket _ | .iommu _ => false

/-- A message delivered to its destination. -/
def State.deliver (s : State) (m : Msg) : State :=
  match m.dst with
  | .home i => s.homeMsg i m
  | .llc lt => s.llcMsg lt m
  | .tile lt => s.tileMsg lt m
  | .iommu i =>
    if m.kind = .inv then (s.iommuInv i m.line).send (mkMsg .ack (.iommu i) m.src m.line m.walled)
    else { s with net := s.net ++ [m] }
  | .socket _ => s.emitCoh m
  | .nca _ => if m.kind = .nack then s.takeNack m
    else if m.kind = .cmp ∧ !ncaAwaits m.dst then s
    else { s with net := s.net ++ [m] }

/-- Whether a message in flight is delivered by the package itself: answers that a non-caching agent awaits stay until it takes them. -/
def msgMoves (m : Msg) : Bool :=
  match m.dst, m.kind with
  | .nca _, .nack => true
  | .nca _, .cmp => !ncaAwaits m.dst
  | .nca _, _ => false
  | .iommu _, .inv => true
  | .iommu _, _ => false
  | _, _ => true

/-- Whether no older message of its channel, sender and receiver is in flight (R316). -/
def State.inOrder (s : State) (m : Msg) : Bool :=
  match s.net.find? (fun x => x.src == m.src && x.dst == m.dst && msgChan x.kind == msgChan m.kind) with
  | some x => x == m
  | none => true

/-- The place of a sender in the round of a pointer over mesh stops (R321): dies and die indices by number, then sockets, IOMMUs and
non-caching agents; the stop after the pointer comes first. -/
def rrPlace (rr : Nat) (a : Agent) : Nat :=
  let c := match a with
    | .tile lt => lt % 32
    | .llc lt => lt / 32
    | .home i => 30 + i
    | .socket n => 8 + n
    | .iommu i => 16 + i
    | .nca n => 32 + n
  if c > rr then c else c + 2 ^ 32

/-- Of the requests for one line that arrive at one receiver in one cycle, the one that the receiver's pointer chooses (R321), and the
pointer past it. All requests for a line in flight to a receiver when the oldest arrives count as arriving with it (DESIGN CHOICE,
entry 47). -/
def State.rrPick (s : State) (m : Msg) : Msg × State :=
  let rivals := s.net.filter (fun x => msgMoves x && msgChan x.kind == .request && x.dst == m.dst && x.line == m.line && s.inOrder x)
  let rr := match m.dst with
    | .home i => (s.home i).rr
    | .llc lt => (s.slice lt).rr
    | .tile _ | .socket _ | .iommu _ | .nca _ => 0
  if rivals.length < 2 then (m, s)
  else
    let w := rivals.foldl (fun (b : Msg) x => if rrPlace rr x.src < rrPlace rr b.src then x else b) m
    (w, match m.dst with
      | .home i => s.setHome i { s.home i with rr := rrPlace 0 w.src % 2 ^ 32 }
      | .llc lt => s.setSlice lt { s.slice lt with rr := rrPlace 0 w.src % 2 ^ 32 }
      | .tile _ | .socket _ | .iommu _ | .nca _ => s)

/-- The next message that is delivered: the oldest in flight; before a request, a writeback of its line that arrives with it (R322), and
among such requests the one of R321. -/
def State.netPick (s : State) : Option (Msg × State) :=
  match s.net.find? msgMoves with
  | none => none
  | some m =>
    if msgChan m.kind != .request then some (m, s)
    else
      match s.net.find? (fun x => (x.kind == .wbM || x.kind == .evC) && x.dst == m.dst && x.line == m.line && s.inOrder x) with
      | some w => some (w, s)
      | none => some (s.rrPick m)

/-- Messages in flight delivered as far as the fuel goes. -/
def State.netRun (s : State) (fuel : Nat) : State :=
  match fuel with
  | 0 => s
  | n + 1 =>
    match s.netPick with
    | none => s
    | some (m, s) => ((s.takeMsg m).deliver m).netRun n

/-- Refused requests sent again 64 cycles after their Nack, marked as retried (R321). -/
def State.resend (s : State) : State :=
  s.nacked.foldl (fun s m => s.send m) { s with nacked := [] }

/-- The fuel of a delivery: more than one access and the messages in flight need. -/
def State.netFuel (s : State) : Nat := 400 + 16 * s.net.length

/-- Messages in flight delivered, refused requests sent again, until nothing moves. -/
def State.settle (s : State) : State :=
  let s := (s.netRun s.netFuel).resend
  s.netRun s.netFuel

/-- The requests of a kind of a non-caching agent that are on their way or being served. -/
def State.requests (s : State) (a : Agent) (kind : MsgKind) : List Msg :=
  (s.net ++ s.nacked ++ [0, 1].flatMap (fun i =>
    let h := s.home i
    h.txns.map (fun t => t.req) ++ h.cq ++ h.parked ++ h.wbWait)).filter (fun m => m.src == a && m.kind == kind)

/-- Whether an agent's request of a kind for a line is still on its way or being served. -/
def State.asked (s : State) (a : Agent) (kind : MsgKind) (line : Nat) : Bool := (s.requests a kind).any (fun m => m.line == line)

/-- Whether a request of a kind of an agent, or the answer to one, is outstanding. -/
def State.ncaOut (s : State) (a : Agent) (req ans : MsgKind) : Bool :=
  !(s.requests a req).isEmpty || s.net.any (fun m => m.dst == a && m.kind == ans)

/-- The agent that makes the memory requests of a kiosk's programs. -/
def kskAgent (k : Nat) : Agent := .nca k
/-- The agent that makes those of its block engine. -/
def kskEngine (k : Nat) : Agent := .nca (16384 + k)

/-- A kiosk's WrInvs that have no Cmp yet (R438). -/
def State.kStores (s : State) (k : Nat) : List Msg := s.requests (kskAgent k) .wrInv ++ s.requests (kskEngine k) .wrInv

/-- The memory requests that a kiosk has outstanding. -/
def State.kRequests (s : State) (k : Nat) : List Msg := s.kStores k ++ s.requests (kskAgent k) .rdNC ++ s.requests (kskEngine k) .rdNC

/-- An answer of a kind to a non-caching agent taken from the messages in flight. -/
def State.takeAnswer (s : State) (a : Agent) (line : Nat) (kind : MsgKind) : Option (Msg × State) :=
  (s.net.find? (fun m => m.dst == a && m.line == line && m.kind == kind)).map (fun m => (m, s.takeMsg m))

/-- The number of a non-caching agent as R559 measures it: the block engine of a kiosk counts as the kiosk; another agent has none. -/
def ncaNum (a : Agent) : Nat :=
  match a with
  | .nca n => if within 16384 n 16895 then n - 16384 else n
  | .tile _ | .llc _ | .home _ | .socket _ | .iommu _ => 2 ^ 20

/-- R330: a read by a non-caching agent. None when the data is not there yet: the request stays outstanding. -/
def State.ncRead (s : State) (a : Agent) (line : Nat) (walled : Bool) : Option (List Word) × State :=
  match s.takeAnswer a line .data with
  | some (m, s) => (some m.data, s.iselRead (ncaNum a) line false 1)
  | none =>
    let s := if s.asked a .rdNC line then s
      else (s.send (mkMsg .rdNC a (.home (s.homeOf line)) line walled)).iselSend (ncaNum a) line false walled
    let s := s.settle
    match s.takeAnswer a line .data with
    | some (m, s) => (some m.data, s.iselRead (ncaNum a) line false 1)
    | none => (none, s)

/-- R330: a masked write by a non-caching agent, posted: nothing waits for its Cmp. -/
def State.ncWrite (s : State) (a : Agent) (line : Nat) (ws : List Word) (mask : Nat) (walled : Bool) : State :=
  let s := s.send { mkMsg .wrInv a (.home (s.homeOf line)) line walled with mask := mask, data := ws }
  (s.iselWrite (ncaNum a) mask walled).settle

/-- R330: a masked write by a non-caching agent that awaits its Cmp. Answers whether the Cmp has come. -/
def State.ncPut (s : State) (a : Agent) (line : Nat) (ws : List Word) (mask : Nat) (walled : Bool) : Bool × State :=
  match s.takeAnswer a line .cmp with
  | some (_, s) => (true, s)
  | none =>
    let s := if s.asked a .wrInv line then s
      else (s.send { mkMsg .wrInv a (.home (s.homeOf line)) line walled with mask := mask, data := ws }).iselWrite (ncaNum a) mask walled
    let s := s.settle
    match s.takeAnswer a line .cmp with
    | some (_, s) => (true, s)
    | none => (false, s)

end Sys2Proof.Machine
end

