-- ==== Sys2Proof/Machine/Urn.lean ====
section
/-! DEFINITION. The Urn (13_urn_timed_service.md): access checks (R406), pushes and pops with the caddy and the rings (R404,
R407), full queues and held doorbells (R411), enabling and disabling (R400 to R402), absent cores (R416), and the reports
of errors against contracts (R426); the monitor queue (R502). -/
set_option autoImplicit false
namespace Sys2Proof.Machine

/-! ## The monitor queue -/

/-- R502: an entry of the monitor queue; a push that finds it full or not enabled is dropped and counted. -/
def State.monPush (s : State) (kind skind source data : Nat) : State :=
  let w0 := v64 (kind + skind * 2 ^ 8 + source % 2 ^ 16 * 2 ^ 16 + data % 2 ^ 32 * 2 ^ 32)
  match s.hwPush 0x7F00 [Word.data w0, Word.data (v64 s.time)] with
  | (s, true) => s
  | (s, false) => (s.addFld 15 2 WW_VIOL [] WW_VIOL_MONQ 1).setFld 15 2 WW_STATUS [] WW_STATUS_MONQ_DROP 1

/-- R498: an Open request to Walled memory reported (SKIND and SOURCE of R503). -/
def State.rangeViol (s : State) (skind source pa : Nat) : State :=
  ((s.addFld 15 2 WW_VIOL [] WW_VIOL_RANGE 1).setFld 15 2 WW_STATUS [] WW_STATUS_RANGE_VIOL 1).monPush 0x81 skind source
    (pa / 2 ^ 20)

/-! ## Requests -/

/-- A queue operation's requester as the Urn sees it (Table 13-3). -/
structure QReq where
  who : QWho
  walled : Bool
  /-- The level of a core. -/
  pl : Nat
  /-- The VMID of a core at PL0 or PL1 with s.hctl.VM = 1. -/
  vmid : Option Nat
  deriving DecidableEq, Repr

/-- What the Urn answers: a status (Table 5-9) with the words of a popped entry, or nothing yet. -/
inductive QRes where
  | done (status : Nat) (ws : List Word)
  | waits
  deriving DecidableEq, Repr

/-- Whether the requester is a logical core. -/
def QReq.isCore (r : QReq) : Bool :=
  match r.who with
  | .core _ => true
  | .kiosk _ _ | .function _ | .ipi _ | .hardware => false

/-- PROD bit of a requester's kind (Table 13-3 row 2). -/
def QReq.prodBit (r : QReq) : Nat :=
  match r.who with
  | .core _ => 0
  | .kiosk _ _ => 1
  | .function _ => 2
  | .ipi _ | .hardware => 3

/-- Table 13-3 row 3. -/
def State.consOk (s : State) (q : Nat) (r : QReq) : Bool :=
  let own := s.qf q URN_QCFG URN_QCFG_OWNID
  match s.qf q URN_QCFG URN_QCFG_CONS, r.who with
  | 0, .core _ => true
  | 1, .core lc => own == lc
  | 2, .kiosk k _ => own == k
  | _, _ => false

/-- Table 13-3. -/
def State.qAllowed (s : State) (q : Nat) (r : QReq) (push : Bool) : Bool :=
  let ownIq : Bool := match r.who, iqOwner q with
    | .core lc, some n => lc == n
    | _, _ => false
  let pl3 : Bool := r.isCore && r.pl == 3
  (r.walled == (s.qf q URN_QCFG URN_QCFG_WORLD != 0) || pl3 || ownIq) &&
  (if push then natBit (s.qf q URN_QCFG URN_QCFG_PROD) r.prodBit else s.consOk q r) &&
  (!r.isCore || s.qf q URN_QCFG URN_QCFG_VMCHK == 0 || decide (r.pl ≥ 2) ||
    r.vmid == some (s.qf q URN_QCFG URN_QCFG_VMID)) &&
  !(r.isCore && r.pl == 0 && qSystem q)

/-! ## Contracts -/

/-- The contract admitted for a queue. -/
def State.qContract (s : State) (q : Nat) : Option Nat :=
  if s.qf q URN_QSTAT URN_QSTAT_TVALID = 0 then none else some (s.qf q URN_QSTAT URN_QSTAT_TCON)

/-- A field of contract n. -/
def State.cf (s : State) (n : Nat) (r : RegDef) (f : RField) : Nat := s.fld 8 0x031 r [n] f

/-- Whether a requester is the source of contract n (Table 13-6). -/
def State.isSource (s : State) (n : Nat) (who : QWho) : Bool :=
  let sid := s.cf n TSV_CCFG TSV_CCFG_SID
  match s.cf n TSV_CCFG TSV_CCFG_SKIND, who with
  | 0, .core lc => sid == lc
  | 1, .kiosk k _ => sid == k
  | 2, .kiosk k _ => sid + 256 == k
  | 3, .function rid => s.cf n TSV_CLIM TSV_CLIM_RID == rid
  | _, _ => false

/-- Errors against a contract (R426). -/
inductive ConErr where
  | late | qfull | plate
  deriving DecidableEq, Repr

/-- R426: an error reported against contract n. -/
def State.conError (s : State) (n : Nat) (e : ConErr) : State :=
  let f := match e with
    | .late => TSV_CCNT_LATE
    | .qfull => TSV_CCNT_QFULL
    | .plate => TSV_CCNT_PLATE
  let s := s.addFld 8 0x031 TSV_CCNT [n] f 1
  let s := s.setQf (s.cf n TSV_CCFG TSV_CCFG_QUEUE) URN_QSTAT URN_QSTAT_TERR 1
  s.err 8 0x031 { ErrRec.mk1 2 0x09 n (s.cf n TSV_CCFG TSV_CCFG_QUEUE) with misc := n }

/-- R419: whether a push of a contract's source is timed, and the meter and counts after it. -/
def State.meter (s : State) (q : Nat) (who : QWho) (words : Nat) : Bool × State :=
  match s.qContract q with
  | none => (false, s)
  | some n =>
    if !s.isSource n who then (false, s)
    else
      let rate := s.cf n TSV_CLIM TSV_CLIM_RATE
      let ok : Bool := match tfind s.tsvLast n with
        | none => true
        | some t => decide ((s.time - t) * rate ≥ 256000)
      if ok ∧ words ≤ s.cf n TSV_CCFG TSV_CCFG_SIZE + 1 then (true, { s with tsvLast := tput s.tsvLast n s.time })
      else
        let s := s.addQf q URN_QSTAT URN_QSTAT_DEMOTED 1
        let s := s.addFld 8 0x031 TSV_CCNT [n] TSV_CCNT_DEMOTED 1
        (false, s.count (8 + qHalf q) 0x030 cntUrn 4 1 (s.qf q URN_QCFG URN_QCFG_WORLD != 0))

/-- The keys of slot registers of stops without a node begin here, above every control-space address. -/
def bareSlot : Nat := 2 ^ 48

/-- The old value of a slot register that changes (its key and value) stays in effect until the port's next slot 0 (R388). -/
def MeshPorts.slotChange (m : MeshPorts) (p : Nat × BitVec 64) : MeshPorts :=
  { m with oldSlots := tput m.oldSlots p.1 ((tfind m.oldSlots p.1).getD p.2) }

/-- A slot register without the slots of contract n. -/
def wipeSlots (n : Nat) (w : BitVec 64) : BitVec 64 :=
  foldN 8 (fun w k => if bitOf w (8 * k + 7) ∧ field w (8 * k) 6 = n then setField w (8 * k) 8 0 else w) w

/-- Whether a control-space address is that of a slot register. -/
def isSlotReg (a : Nat) : Bool :=
  let die := a / 2 ^ 32; let unit := a / 2 ^ 22 % 2 ^ 10; let off := a % 2 ^ 22
  (decide (die < 8) && within 0x020 unit 0x03F && within 0x2100 off 0x247F) ||
  (decide (die < 8) && within 0x040 unit 0x041 && within 0x1100 off 0x147F) ||
  (within 8 die 9 && unit == 0x03B && within 0x1100 off 0x8FFF && within 0x100 ((off - 0x1000) % 0x800) 0x47F)

/-- The slots of a contract in every port schedule and in the Urn service schedules become free: at a port from its next slot 0 (R388,
R427). -/
def State.freeSlots (s : State) (n : Nat) : State :=
  let wipe := fun (t : Tbl (BitVec 64)) (ok : Nat → Bool) =>
    t.filterMap (fun p => if ok p.1 then (if wipeSlots n p.2 = 0 then none else some (p.1, wipeSlots n p.2)) else some p)
  let hit := (s.regs.filter (fun p => isSlotReg p.1) ++ s.spareTslot).filter (fun p => wipeSlots n p.2 != p.2)
  { s with regs := wipe s.regs isSlotReg, spareTslot := wipe s.spareTslot (fun _ => true),
           urnSched := s.urnSched.filter (fun p => p.2 != n), ports := hit.foldl MeshPorts.slotChange s.ports }

/-- A contract withdrawn with its reason (R427). -/
def State.withdraw (s : State) (n reason : Nat) : State :=
  if s.cf n TSV_CCFG TSV_CCFG_VALID = 0 then s
  else
    let q := s.cf n TSV_CCFG TSV_CCFG_QUEUE
    let s := (s.setFld 8 0x031 TSV_CCFG [n] TSV_CCFG_VALID 0).setFld 8 0x031 TSV_CCFG [n] TSV_CCFG_WREASON reason
    let s := s.setQf q URN_QSTAT URN_QSTAT_TVALID 0
    let s := s.setFld 8 0x031 TSV_STATUS [] TSV_STATUS_COUNT (s.fld 8 0x031 TSV_STATUS [] TSV_STATUS_COUNT - 1)
    { s.freeSlots n with tsvLast := terase s.tsvLast n }

/-! ## Ring memory -/

/-- The agent number of a Urn half. -/
def urnAgent (half : Nat) : Agent := .nca (512 + half)

/-- Words of an entry placed in a line, and their byte mask. -/
def lineWords (pa : Nat) (ws : List Word) : List Word × Nat :=
  let first := pa % 128 / 8
  (List.replicate first Word.zero ++ ws ++ List.replicate (16 - first - ws.length) Word.zero,
    (2 ^ (8 * ws.length) - 1) * 2 ^ (8 * first))

/-- An entry written to its ring with WrInv (R404); an Open queue's entry for Walled memory is lost (R498). Answers whether the Cmp has
come. -/
def State.ringWrite (s : State) (q i : Nat) (ws : List Word) : Bool × State :=
  let pa := s.qAddr q i
  let walled : Bool := s.qf q URN_QCFG URN_QCFG_WORLD != 0
  if !walled && s.walledMem pa then (true, s.rangeViol 3 q pa)
  else
    let (l, mask) := lineWords pa ws
    s.ncPut (urnAgent (qHalf q)) (pa / 128) l mask walled

/-- The entry with count index i read from its ring with RdNC (R404, R498). None while the read is not complete. -/
def State.ringRead (s : State) (q i : Nat) : Option (List Word) × State :=
  let pa := s.qAddr q i
  let n := s.qWords q
  let walled : Bool := s.qf q URN_QCFG URN_QCFG_WORLD != 0
  if !walled && s.walledMem pa then (some (List.replicate n Word.zero), s.rangeViol 3 q pa)
  else
    match s.ncRead (urnAgent (qHalf q)) (pa / 128) walled with
    | (some l, s) => (some ((l.drop (pa % 128 / 8)).take n), s)
    | (none, s) => (none, s)

/-- The entry at HEAD: from the caddy, or else from the ring. -/
def State.headEntry (s : State) (q : Nat) : Option (List Word) × State :=
  match (s.urnHalf (qHalf q)).caddyFind q (s.qHead q) with
  | some ws => (some ws, s)
  | none => s.ringRead q (s.qHead q)

/-! ## Pushes and pops -/

/-- A Urn event counted, in the queue's world. -/
def State.urnCount (s : State) (q ev : Nat) : State :=
  s.count (8 + qHalf q) 0x030 cntUrn ev 1 (s.qf q URN_QCFG URN_QCFG_WORLD != 0)

/-- A waiting operation registered, or not when the half's list is full (R407). -/
def State.urnRegister (s : State) (w : UrnWait) : Bool × State :=
  let h := qHalf w.queue
  let u := s.urnHalf h
  if (u.waiting.filter (fun x => !x.caddy)).length ≥ 1024 then
    (false, s.setFld (8 + h) 0x030 URN_STATUS [] URN_STATUS_WAIT_OVF 1)
  else (true, s.setUrn h { u with waiting := u.waiting ++ [w] })

/-- A drop of a best-effort queue counted (R411). -/
def State.qDrop (s : State) (q : Nat) : State := (s.addQf q URN_QSTAT URN_QSTAT_DROPS 1).urnCount q 3

/-- A discarded doorbell counted (R410). -/
def State.dbDrop (s : State) (half : Nat) : State := s.addFld (8 + half) 0x030 URN_DROPS [] URN_DROPS_DB 1

/-- A doorbell or MSI held for a full lossless queue (Table 13-4). -/
def State.holdPut (s : State) (q : Nat) (ws : List Word) (msi timed : Bool) : State :=
  let h := qHalf q
  let u := s.urnHalf h
  s.setUrn h { u with hold := u.hold ++ [{ queue := q, words := ws, msi := msi, timed := timed, since := s.time }] }

/-- Whether a half's hold is full (Table 13-4). -/
def UrnHalf.holdFull (u : UrnHalf) : Bool := decide (u.hold.length ≥ 256)

/-- Whether a push to a queue places its entry: the queue has room, or is best-effort and drops its oldest entry (Table 13-4). -/
def State.pushPlaces (s : State) (q : Nat) : Bool :=
  !s.qFull q || (s.qf q URN_QCFG URN_QCFG_CLASS != 0 && s.qf q URN_QCFG URN_QCFG_POLICY != 0)

/-- A push served (R404, Table 13-4): an entry that is to be placed waits for caddy space where there is none. -/
def State.pushServe (s : State) (who : QWho) (q : Nat) (ws : List Word) (timed wait : Bool) : QRes × State :=
  let h := qHalf q
  if s.pushPlaces q && !(s.urnHalf h).caddyRoom timed ws.length then
    (.waits, (s.caddyStall who q ws timed wait).urnCount q 5)
  else if !s.qFull q then (.done 0 [], s.accept q ws timed)
  else
    let s := match s.qContract q with
      | some n => if timed then s.conError n .qfull else s
      | none => s
    if s.qf q URN_QCFG URN_QCFG_CLASS ≠ 0 then
      if s.qf q URN_QCFG URN_QCFG_POLICY ≠ 0 then (.done 3 [], ((s.dropOldest q).urnCount q 3).accept q ws timed)
      else match who with
        | .function _ => (.done 3 [], ((s.qDrop q).qOp q).dbDrop h)
        | _ => (.done 3 [], (s.qDrop q).qOp q)
    else match who with
      | .function _ => (.waits, s.holdPut q ws false timed)
      | _ =>
        let w : UrnWait := { who := who, kind := .push, queue := q, words := ws, caddy := false, timed := timed, hold := true }
        if !wait then (.done 2 [], s.qOp q)
        else match s.urnRegister w with
          | (true, s) => (.waits, s)
          | (false, s) => (.done 2 [], s.qOp q)

/-- R158, R159, R404: a push by a core or kiosk. G asks for a single-word entry. -/
def State.urnPush (s : State) (r : QReq) (q : Nat) (ws : List Word) (wait single : Bool) : QRes × State :=
  if !s.qEn q then (.done 7 [], s)
  else if !s.qAllowed q r true then (.done 6 [], s)
  else if single && s.qWords q != 1 then (.done 8 [], s)
  else
    let ws := ws.take (s.qWords q)
    let (timed, s) := (s.urnCount q 1).meter q r.who ws.length
    s.pushServe r.who q ws timed wait

/-- A doorbell of a function in its world, as the half serves it (R410, R411); `late` says that it left its root port later than the
allowance of R422. None where it is not accepted: its lossless queue and the hold are full. -/
def State.dbServe (s : State) (rid : Nat) (walled : Bool) (q : Nat) (ws : List (BitVec 64)) (sized late : Bool) : Option State :=
  let h := qHalf q
  let r : QReq := { who := .function rid, walled := walled, pl := 3, vmid := none }
  if !sized || !s.qEn q || ws.length != s.qWords q || !s.qAllowed q r true then some (s.dbDrop h)
  else if !s.pushPlaces q && s.qf q URN_QCFG URN_QCFG_CLASS == 0 && (s.urnHalf h).holdFull then none
  else
    let words := ws.map Word.data
    let (timed, s) := (s.urnCount q 1).meter q (.function rid) words.length
    let s := match s.qContract q with
      | some n => if timed && late then s.conError n .plate else s
      | none => s
    some (s.pushServe (.function rid) q words timed false).2

/-- A discarded held doorbell or MSI: counted, with an error record (Table 13-4, R416). -/
def State.holdDiscard (s : State) (q : Nat) : State :=
  let h := qHalf q
  (s.addFld (8 + h) 0x030 URN_DROPS [] URN_DROPS_HOLD 1).err (8 + h) 0x030
    { ErrRec.mk1 2 0x0A 0 q with walled := s.qf q URN_QCFG URN_QCFG_WORLD != 0 }

/-- The half that an MSI to a logical core number goes to; half 0 takes those to no core's number. -/
def msiHalf (lc : Nat) : Nat := if lc < 512 then qHalf (iqNum lc) else 0

/-- R413, R470: an MSI entry for a logical core, held when its queue has no room; an absent core's is discarded (R416). None where it is
not accepted: the hold is full too. -/
def State.msiServe (s : State) (lc source data : Nat) : Option State :=
  let q := iqNum lc
  if !s.coreExists lc || !s.qEn q then some (s.holdDiscard (if lc < 512 then q else 0))
  else
    match s.iqPush lc 0x04 source data with
    | (s', true) => some s'
    | (_, false) =>
      if (s.urnHalf (qHalf q)).holdFull then none
      else some (s.holdPut q [Word.data (v64 (0x04 + source % 2 ^ 16 * 2 ^ 16 + data % 2 ^ 32 * 2 ^ 32))] true false)

/-- A doorbell or MSI write as its half serves it. -/
def State.portServeOne (s : State) (w : PortWrite) : Option State :=
  match w with
  | .doorbell rid walled q ws sized late => s.dbServe rid walled q ws sized late
  | .msi lc source data => s.msiServe lc source data

/-- Table 13-4: once the hold has room, the writes that wait in the root ports are accepted in turn. -/
def State.portDrain (s : State) (h fuel : Nat) : State :=
  match fuel with
  | 0 => s
  | f + 1 =>
    match (s.urnHalf h).ports with
    | [] => s
    | w :: rest =>
      match (s.setUrn h { s.urnHalf h with ports := rest }).portServeOne w with
      | some s => s.portDrain h f
      | none => s

/-- A doorbell or MSI write that reaches a half: it is served, or kept in its root port behind those already there. -/
def State.portArrive (s : State) (h : Nat) (w : PortWrite) : State :=
  let u := s.urnHalf h
  let keep := s.setUrn h { u with ports := u.ports ++ [w] }
  if u.ports ≠ [] then keep else (s.portServeOne w).getD keep

/-- The waiting push that came first on a queue with room is served (R407, R161), or else the oldest held doorbell or MSI (R411; DESIGN
CHOICE: waiting pushes go first, entry 100). -/
def State.serveRoom (s : State) (q : Nat) : State :=
  let h := qHalf q
  let u := s.urnHalf h
  if s.qFull q then s
  else
    match u.waiting.find? (fun w => w.queue == q && w.kind == .push && !w.caddy) with
    | some w =>
      match (s.setUrn h { u with waiting := u.waiting.erase w }).pushServe w.who q w.words w.timed true with
      | (.done st _, s) => s.answer w.who q st []
      | (.waits, s) => s
    | none =>
      match u.hold.find? (fun e => e.queue == q) with
      | none => s
      | some e =>
        let s' := s.setUrn h { u with hold := u.hold.erase e }
        if !e.msi then (s'.pushServe (.function 0) q e.words e.timed false).2.portDrain h (u.ports.length)
        else if !s.iqRoom q 0x04 then s
        else
          let w0 := (e.words.getD 0 Word.zero).val
          match iqOwner q with
          | some lc => (s'.iqPush lc 0x04 (field w0 16 16) (field w0 32 32)).1.portDrain h u.ports.length
          | none => s

/-- After room appears in a queue: what waits for it, then the QUEUE entries pending for an interrupt queue (R415). -/
def State.afterRoom (s : State) (q : Nat) : State :=
  let s := s.serveRoom q
  match iqOwner q with
  | some lc => s.retryBinds lc
  | none => s

/-- R162, R407: a pop by a core or kiosk. -/
def State.urnPop (s : State) (r : QReq) (q : Nat) (wait single : Bool) : QRes × State :=
  if !s.qEn q then (.done 7 [], s)
  else if !s.qAllowed q r false then (.done 6 [], s)
  else if single && s.qWords q != 1 then (.done 8 [], s)
  else if s.qCount q = 0 then
    if wait then
      match s.urnRegister { who := r.who, kind := .pop, queue := q, words := [], caddy := false, timed := false, hold := true } with
      | (true, s) => (.waits, s)
      | (false, s) => (.done 1 [], s.qOp q)
    else (.done 1 [], s.qOp q)
  else
    match s.headEntry q with
    | (none, s) => (.waits, s)
    | (some ws, s) => (.done 0 ws, (((s.urnCount q 2).dropHead q).qOp q).afterRoom q)

/-- R162: a peek. -/
def State.urnPeek (s : State) (r : QReq) (q : Nat) (single : Bool) : QRes × State :=
  if !s.qEn q then (.done 7 [], s)
  else if !s.qAllowed q r false then (.done 6 [], s)
  else if single && s.qWords q != 1 then (.done 8 [], s)
  else if s.qCount q = 0 then (.done 1 [], s.qOp q)
  else
    match s.headEntry q with
    | (none, s) => (.waits, s)
    | (some ws, s) => (.done 0 ws, s.qOp q)

/-- QWAIT or KQWAIT (R158, R407). -/
def State.urnWaitOp (s : State) (r : QReq) (q : Nat) : QRes × State :=
  if !s.qEn q then (.done 7 [], s)
  else if !s.qAllowed q r false then (.done 6 [], s)
  else if s.qCount q ≠ 0 then (.done 0 [], s.qOp q)
  else
    match s.urnRegister { who := r.who, kind := .wait, queue := q, words := [], caddy := false, timed := false, hold := true } with
    | (true, s) => (.waits, s)
    | (false, s) => (.done 1 [], s.qOp q)

/-- A waiting operation removed by its requester (R408); answers whether it was still there. -/
def State.urnCancel (s : State) (who : QWho) : Bool × State :=
  [0, 1].foldl (fun (p : Bool × State) h =>
    let u := p.2.urnHalf h
    let left := u.waiting.filter (fun w => !(w.who == who))
    if left.length = u.waiting.length then p else (true, p.2.setUrn h { u with waiting := left })) (false, s)

/-! ## The caddy -/

/-- Whether a push that waited for caddy space can be served: there is space, and a doorbell that finds its queue full now finds room in the
hold. -/
def State.caddyCan (s : State) (u : UrnHalf) (w : UrnWait) : Bool :=
  u.caddyRoom w.timed w.words.length &&
  match w.who with
  | .function _ => s.pushPlaces w.queue || s.qf w.queue URN_QCFG URN_QCFG_CLASS != 0 || !u.holdFull
  | _ => true

/-- A push that waited for caddy space served (R404): an interrupt entry whose room was kept for it, another as a push served anew; a push
of the hardware to a queue that is full now is lost. -/
def State.caddyServe (s : State) (w : UrnWait) : State :=
  if (iqOwner w.queue).isSome then
    ((s.iqAccept w.queue (w.words.getD 0 Word.zero).val).serveWaits w.queue).answer w.who w.queue 0 []
  else
    match s.pushServe w.who w.queue w.words w.timed w.hold with
    | (.done st _, s) => s.answer w.who w.queue st []
    | (.waits, s) => s

/-- Pushes that waited for caddy space served in their order while it lasts (R404). -/
def State.caddyRetry (s : State) (h fuel : Nat) : State :=
  match fuel with
  | 0 => s
  | n + 1 =>
    let u := s.urnHalf h
    match u.waiting.find? (fun w => w.caddy) with
    | none => s
    | some w =>
      if s.caddyCan u w then ((s.setUrn h { u with waiting := u.waiting.erase w }).caddyServe w).caddyRetry h n else s

/-- Every push that waits for caddy space in a half tried. -/
def State.caddyRetryAll (s : State) (h : Nat) : State := s.caddyRetry h (s.urnHalf h).waiting.length

/-- A caddy entry written to its ring; its slot frees when the WrInv's Cmp has come (R404). -/
def State.caddyWrite (s : State) (h : Nat) (e : CaddyEnt) : State :=
  match s.ringWrite e.queue e.idx e.words with
  | (true, s) => s.setUrn h { s.urnHalf h with caddy := (s.urnHalf h).caddy.erase e }
  | (false, s) => s

/-- The oldest entry of a half's caddy is written to its ring (R404). -/
def State.caddyWriteback (s : State) (h : Nat) : State :=
  match (s.urnHalf h).caddy with
  | [] => s
  | e :: _ => (s.caddyWrite h e).caddyRetryAll h

/-- Every caddy entry of a queue written to its ring (R402). -/
def State.caddyFlush (s : State) (q : Nat) : State :=
  let h := qHalf q
  (((s.urnHalf h).caddy.filter (fun e => e.queue == q)).foldl (fun s e => s.caddyWrite h e) s).caddyRetryAll h

/-! ## Doorbells and MSIs -/

/-- R410: a doorbell push of a function in its world. -/
def State.doorbell (s : State) (rid : Nat) (walled : Bool) (q : Nat) (ws : List (BitVec 64)) (sized late : Bool) : State :=
  s.portArrive (qHalf q) (.doorbell rid walled q ws sized late)

/-- R413, R470: an MSI for a logical core. -/
def State.msiPush (s : State) (lc source data : Nat) : State := s.portArrive (msiHalf lc) (.msi lc source data)

/-- R411: held entries older than HOLD_US are discarded. -/
def State.holdExpire (s : State) (h : Nat) : State :=
  let u := s.urnHalf h
  let lim := s.fld (8 + h) 0x030 URN_CTL [] URN_CTL_HOLD_US * 1000
  let old := fun (e : HoldEnt) => decide (s.time - e.since > lim)
  let s := s.setUrn h { u with hold := u.hold.filter (fun e => !old e) }
  ((u.hold.filter old).foldl (fun s e => s.holdDiscard e.queue) s).portDrain h u.ports.length

/-! ## Descriptors -/

/-- Bytes of a ring. -/
def ringBytes (cfg : BitVec 64) : Nat := 2 ^ field cfg 5 5 * 2 ^ field cfg 3 2 * 8

/-- Table 13-2: the code of the first condition that a descriptor fails. -/
def State.enableFail (s : State) (cfg base : BitVec 64) : Option Nat :=
  let bytes := ringBytes cfg
  let pa := field base 7 45 * 128
  if !within 4 (field cfg 5 5) 20 then some 2
  else if pa % bytes ≠ 0 ∧ bytes ≥ 128 then some 3
  else if !(List.range 4).any (fun n => rangeHas (s.memRange n) pa && rangeHas (s.memRange n) (pa + bytes - 1)) then some 4
  else if bitOf cfg 23 && !s.coreExists (field base 52 10) then some 5
  else none

/-- A descriptor write refused (R400, R401). -/
def State.urnRefuse (s : State) (h code : Nat) : State :=
  (s.setFld (8 + h) 0x030 URN_STATUS [] URN_STATUS_REFUSED 1).setFld (8 + h) 0x030 URN_STATUS [] URN_STATUS_REASON code

/-- R400: a queue enabled with a new QCFG value, or refused. Doorbells that the hold keeps for it find room (R411). -/
def State.queueEnable (s : State) (q : Nat) (cfg : BitVec 64) : State :=
  let h := qHalf q
  match s.enableFail cfg (s.reg (8 + h) 0x030 URN_QBASE [qIdx q]) with
  | some code => s.urnRefuse h code
  | none =>
    let s := s.setReg (8 + h) 0x030 URN_QCFG [qIdx q] cfg
    let s := (s.setQf q URN_QPTR URN_QPTR_HEAD 0).setQf q URN_QPTR URN_QPTR_TAIL 0
    let s := s.setReg (8 + h) 0x030 URN_QSTAT [qIdx q] 0
    let s := s.setUrn h { s.urnHalf h with iqKinds := tset (s.urnHalf h).iqKinds [] q [] }
    foldN ((s.urnHalf h).hold.countP (fun e => e.queue == q)) (fun s _ => s.serveRoom q) s

/-- R402: a queue disabled. Waiting operations end with NO_QUEUE, the caddy's entries go to the ring, and the queue's contract
is withdrawn. -/
def State.queueDisable (s : State) (q : Nat) : State :=
  let h := qHalf q
  let u := s.urnHalf h
  let mine := u.waiting.filter (fun w => w.queue == q)
  let s := s.setUrn h { u with waiting := u.waiting.filter (fun w => w.queue != q) }
  let s := mine.foldl (fun s w => s.answer w.who q 7 []) s
  let s := s.caddyFlush q
  let s := match s.qContract q with
    | some n => s.withdraw n 2
    | none => s
  s.setQf q URN_QCFG URN_QCFG_EN 0

/-- A software write of URN_QCFG (R399 to R402). WORLD is written only by Walled accesses. -/
def State.writeQcfg (s : State) (q : Nat) (v : BitVec 64) (walled : Bool) : State :=
  let h := qHalf q
  let old := s.reg (8 + h) 0x030 URN_QCFG [qIdx q]
  let v := if walled && s.part == .a1 then v else setBit v 16 (bitOf old 16)
  let v := v &&& 0xFFFFFFFF00FFFFFF
  if !bitOf old 0 then
    if bitOf v 0 then s.queueEnable q v else s.setReg (8 + h) 0x030 URN_QCFG [qIdx q] v
  else if (old ^^^ v) &&& 0xFFFFFFFFFF7FFFFE ≠ 0 then s.urnRefuse h 1
  else if bitOf old 23 != bitOf v 23 ∧ (s.qContract q).isSome then s.urnRefuse h 6
  else if bitOf v 23 ∧ !bitOf old 23 ∧ !s.coreExists (s.qf q URN_QBASE URN_QBASE_ITARGET) then s.urnRefuse h 5
  else
    let s := s.setQf q URN_QCFG URN_QCFG_IBEN (bitOf v 23).toNat
    if bitOf v 0 then s else s.queueDisable q

/-- A software write of URN_QBASE (R400, R401). -/
def State.writeQbase (s : State) (q : Nat) (v : BitVec 64) : State :=
  let h := qHalf q
  let old := s.reg (8 + h) 0x030 URN_QBASE [qIdx q]
  let v := v &&& 0x3FFFFFFFFFFFFF80
  if !s.qEn q then s.setReg (8 + h) 0x030 URN_QBASE [qIdx q] v
  else if field old 7 45 ≠ field v 7 45 then s.urnRefuse h 1
  else if old ≠ v ∧ (s.qContract q).isSome then s.urnRefuse h 6
  else if old ≠ v ∧ s.qf q URN_QCFG URN_QCFG_IBEN ≠ 0 ∧ !s.coreExists (field v 52 10) then s.urnRefuse h 5
  else s.setReg (8 + h) 0x030 URN_QBASE [qIdx q] v

/-! ## Absent cores -/

/-- R416: a logical core has become absent. HEAD and TAIL of its queue keep their values (R402). -/
def State.coreAbsent (s : State) (lc : Nat) : State :=
  let q := iqNum lc
  let left := s.qCount q
  let s := [0, 1].foldl (fun s h =>
    let u := s.urnHalf h
    s.setUrn h { u with waiting := u.waiting.filter (fun w => !(w.who == .core lc || w.who == .ipi lc)),
                        iqKinds := tset u.iqKinds [] q [] }) s
  let s := if s.qEn q then (s.queueDisable q).addFld (8 + qHalf q) 0x030 URN_DROPS [] URN_DROPS_IQ left else s
  let named := fun (s : State) n => s.cf n TSV_CCFG TSV_CCFG_VALID != 0 &&
    ((s.cf n TSV_CCFG TSV_CCFG_SKIND == 0 && s.cf n TSV_CCFG TSV_CCFG_SID == lc) ||
     (let b := s.cf n TSV_CCFG TSV_CCFG_QUEUE
      s.qf b URN_QCFG URN_QCFG_IBEN != 0 && s.qf b URN_QBASE URN_QBASE_ITARGET == lc))
  let gone := (List.range 64).filter (named s)
  let isDesc := fun (p : Nat × BitVec 64) =>
    within 8 (p.1 / 2 ^ 32) 9 && p.1 / 2 ^ 22 % 2 ^ 10 == 0x030 && decide (p.1 % 2 ^ 22 ≥ 0x200000) && p.1 % 32 == 0
  let queues := (s.regs.filter isDesc).map (fun p => (p.1 / 2 ^ 32 - 8) * 32768 + (p.1 % 2 ^ 22 - 0x200000) / 32)
  let s := queues.foldl (fun s b =>
    if s.qf b URN_QCFG URN_QCFG_IBEN ≠ 0 ∧ s.qf b URN_QBASE URN_QBASE_ITARGET = lc then
      let s := (s.setQf b URN_QCFG URN_QCFG_IBEN 0).setQf b URN_QSTAT URN_QSTAT_BIND_LOST 1
      if s.qf b URN_QSTAT URN_QSTAT_BIND_PEND ≠ 0 then
        (s.setQf b URN_QSTAT URN_QSTAT_BIND_PEND 0).addFld (8 + qHalf b) 0x030 URN_DROPS [] URN_DROPS_IQ 1
      else s
    else s) s
  gone.foldl (fun s n => s.withdraw n 3) s

end Sys2Proof.Machine
end

