-- ==== Sys2Proof/Machine/StoreBuf.lean ====
section
/-! DEFINITION. How a core reaches its lines: the fill shelf (R237 to R241), reads through the L2 (R275, R279), ownership (R243),
the store buffer's entries, their order and their writing to the L2 (R148, R150, R227, R233, R235, R278). -/
set_option autoImplicit false
namespace Sys2Proof.Machine

/-- What a core reads a line for: a table walk, whose reads go to no L1 (Table 7-8), a fetch, or a data access. -/
inductive LineUse where
  | walk | fetch | data
  deriving DecidableEq, Repr

/-- Whether a line is in the L1 of a use. -/
def Core.inL1 (c : Core) (use : LineUse) (line : Nat) : Bool :=
  match use with
  | .walk => true
  | .fetch => c.l1i.any (fun p => p.2 == line)
  | .data => c.l1d.any (fun p => p.2 == line)

/-- A request of an L2 sent once, through the release buffer of a safe-mode arbour, and what is in flight delivered. One that the L2 does
not take yet stays in the release buffer (R255); without one it is asked for again. -/
def State.l2Ask (s : State) (lt : Nat) (m : Msg) (committed : Bool) : State :=
  let s := if (s.tile lt).wb.any (fun w => w.line == m.line) then s.settle else s
  if (s.tile lt).miss.any (fun x => x.line == m.line) then s.settle
  else
    match s.rbEnter lt (lineEnt m committed) with
    | (false, s) => s
    | (true, s) =>
      match s.l2Send lt m with
      | (false, s) => s
      | (true, s) => (s.rbLeave lt (lineEnt m committed)).settle

/-- A line of the tile of core lc read as a shared copy: from the fill shelf, the L2, or by RdS. A line on its way into an L1 is held in the
shelf (R237). None while it has not arrived. -/
def State.l2Fetch (s : State) (lc line : Nat) (walled pl3 : Bool) (use : LineUse) : Option (List Word) × State :=
  let lt := lcTile lc
  match (s.core lc).shelf.find? (fun e => e.line == line) with
  | some e => (some e.data, s)
  | none =>
    match s.l2Find lt line walled pl3 with
    | some (key, _) =>
      let s := s.l2Check lt key
      match s.l2Find lt line walled pl3 with
      | none => (none, s)
      | some (_, l) => (some l.data, if (s.core lc).inL1 use line then s else s.shelfFill lc line false l.data walled)
    | none =>
      let s := s.l2Ask lt { mkMsg .rdS (.tile lt) (.llc (llcOf (ltDie lt) line)) line walled with pl3 := pl3, core := some lc } false
      match (s.core lc).shelf.find? (fun e => e.line == line) with
      | some e => (some e.data, s)
      | none => ((s.l2Find lt line walled pl3).map (fun p => p.2.data), s)

/-- R238: the shelf entry of a line leaves the shelf at the retirement of its user. A line from beyond the L2 is installed there, unless the
L2 has it by now or may take none (R277, R297): then the tile gives the copy up. -/
def State.shelfInstall (s : State) (lc line : Nat) (walled : Bool) : State :=
  let c := s.core lc
  let lt := lcTile lc
  match c.shelf.find? (fun e => e.line == line) with
  | none => s
  | some e =>
    let s := s.setCore lc { c with shelf := c.shelf.filter (fun x => x.line != line) }
    if !e.beyondL2 || (s.l2Any lt line).isSome then s
    else
      let s := if (s.tile lt).flushing then s else s.l2Install lt
        { line := line, st := .s, walled := walled, pres := 0, excl := false, data := e.data, bad := [] }
      s.tileForget lt line walled

/-- The injection of Table 20-4 at an L1D fill (targets 3 and 4): the first word of the line. A FLIP2 in a split-mode core passes
parity and is read as it stands; any other flip waits to be found. -/
def State.l1dInject (s : State) (lc line : Nat) (walled : Bool) : State :=
  let d := ltDie (lcTile lc); let u := ltIdx (lcTile lc)
  let c := s.core lc
  let s := s.setCore lc { c with flips := c.flips.filter (fun f => f.key != 2048 + line), l1bad := terase c.l1bad line }
  let safe := s.safeArb (lcTile lc)
  (if safe then [3, 4] else [if lc % 2 = 0 then 3 else 4]).foldl (fun (s : State) target =>
    match s.inject d u target walled with
    | (some a, s) =>
      let bits := s.flipBits d u (a == 2)
      let c := s.core lc
      if a = 2 ∧ !safe then s.setCore lc { c with l1bad := tput c.l1bad line bits }
      else s.setCore lc { c with flips := c.flips ++ [⟨2048 + line, bits, a == 2, target == 4⟩] }
    | (none, s) => s) s

/-- R238: an access retires: its line is in the L1D from now on, as far as the L2 holds it (R277). -/
def State.retireData (s : State) (lc line : Nat) (walled : Bool) : State :=
  let s := s.shelfInstall lc line walled
  if (s.l2Any (lcTile lc) line).isNone then s
  else
    let s := if (s.core lc).l1d.any (fun p => p.2 == line) then s else s.l1dInject lc line walled
    s.setCore lc ((s.core lc).l1dUse line)

/-- R238: an instruction fetched from a line retires: the line is in the L1I from now on, as far as the L2 holds it (R277). -/
def State.retireFetch (s : State) (lc line : Nat) (walled : Bool) : State :=
  let s := s.shelfInstall lc line walled
  if (s.l2Any (lcTile lc) line).isNone then s else s.setCore lc ((s.core lc).l1iUse line)

/-- The whole fill shelf given up: the tile sends EvC for lines from beyond the L2. -/
def State.shelfClear (s : State) (lc : Nat) (walled : Bool) : State :=
  let c := s.core lc
  if c.shelf.isEmpty then s
  else
    (c.shelf.foldl (fun s e => if e.beyondL2 then s.tileForget (lcTile lc) e.line walled else s)
      (s.setCore lc { c with shelf := [] })).settle

/-- R239: shelf entries whose users were squashed are discarded, each counted as SHELF_DISCARD. -/
def State.shelfDiscard (s : State) (lc : Nat) (walled : Bool) : State :=
  (foldN (s.core lc).shelf.length (fun (s : State) _ => s.coreEv lc 0x084) s).shelfClear lc walled

/-- R243: the L2 of a tile obtains ownership of a line: an M line as it is, E becomes M, otherwise Upg or RdX. A shared copy in a fill shelf
gives way to it (R240). `committed` says that the store has retired (R243); an atomic's has not. Answers whether the L2 holds the line in M. -/
def State.l2Own (s : State) (lt line : Nat) (walled pl3 committed : Bool) : Bool × State :=
  let own := fun (s : State) => match s.l2Find lt line walled pl3 with
    | some (key, l) =>
      match l.st with
      | .m => (true, s.shelfDrop lt line)
      | .e => (true, (s.l2Put lt key { l with st := .m }).shelfDrop lt line)
      | .o | .s => (false, s)
    | none => (false, s)
  let ask := fun (k : MsgKind) =>
    own (s.l2Ask lt { mkMsg k (.tile lt) (.llc (llcOf (ltDie lt) line)) line walled with pl3 := pl3 } committed)
  match s.l2Find lt line walled pl3 with
  | some (_, l) => if l.st = .m ∨ l.st = .e then own s else ask .upg
  | none => ask .rdX

/-- The words of a line after a store-buffer entry is written to them (R62, R66 to R69, R140). -/
def sbApply (e : SbEntry) (ws : List Word) : List Word :=
  let first := e.pa % 128
  let last := first + e.size - 1
  (List.range 16).map (fun i =>
    let w := ws.getD i Word.zero
    if 8 * i + 7 < first ∨ last < 8 * i then w
    else
      let mask := (List.range 8).foldl (fun m b => if first ≤ 8 * i + b ∧ 8 * i + b ≤ last then m + 2 ^ b else m) 0
      let shifted : BitVec 64 :=
        if 8 * i ≥ first then e.word.val >>> (8 * (8 * i - first)) else e.word.val <<< (8 * (first - 8 * i))
      match e.kind with
      | .whole => storeWhole w e.word
      | .sub => storeSub w shifted mask
      | .subPoison => storeSubPoison w e.word.aux
      | .colour => setColour w (e.word.val.setWidth 6)
      | .colourPoison => setColourPoison w e.word.aux)

/-- Whether an Open store must go to its mesh stop for a line of Walled memory (Table 16-2). -/
def State.storeWalled (s : State) (lt : Nat) (e : SbEntry) : Bool :=
  !e.walled && s.walledMem e.pa &&
    (match s.l2Find lt (e.pa / 128) e.walled e.pl3 with
     | some (_, l) => l.st != .m && l.st != .e
     | none => true)

/-- The release-buffer entry of a store written to the L2. -/
def storeEnt (e : SbEntry) : RbEnt :=
  { kind := .store, addr := e.pa, size := e.size, data := [e.word], committed := true, msg := none }

/-- A store-buffer entry written to the L2 and, where the line is present, the L1D (R278). Answers false while ownership has not
come. A whole-word store of pointer or system class to CXL memory is written as data class and counted at its home (R81). -/
def State.sbWrite (s : State) (lc : Nat) (e : SbEntry) : Bool × State :=
  let lt := lcTile lc
  let line := e.pa / 128
  if s.storeWalled lt e then (true, s.rangeViol 4 lc e.pa)
  else
    match s.l2Own lt line e.walled e.pl3 true with
    | (false, s) => (false, s)
    | (true, s) =>
      let s := s.l2CheckLine lt line
      match s.l2Find lt line e.walled e.pl3 with
      | none => (false, s)
      | some (key, l) =>
        match s.rbPass lt (storeEnt e) with
        | (false, s) => (false, s)
        | (true, s) =>
        let cxl : Option Nat := match s.classify (line * 128) with
          | .cxl iod _ => some iod
          | .dram _ _ _ | .remote _ | .unmapped | .control _ | .msi _ | .ecam _ | .mmio _ => none
        let tagged : Bool := e.kind == .whole && (e.word.isPointer || e.word.isSystem)
        let s := match cxl with
          | some iod => if tagged then s.count (8 + iod) 0x038 cntHome 6 1 e.walled else s
          | none => s
        let ws := sbApply e l.data
        let (l, s) := s.injectLine (ltDie lt) (ltIdx lt) 5 (e.pa % 128 / 8) { l with data := if cxl.isSome then cxlLine ws else ws }
        let s := s.l2Put lt key l
        let c := s.core lc
        (true, if c.l1d.any (fun p => p.2 == line) then s.setCore lc (c.l1dUse line) else s)

/-! ## Order -/

/-- The part of an entry above a line boundary, as an entry of its own. -/
def SbEntry.upperPart (e : SbEntry) : Option SbEntry :=
  e.upper.map (fun u => { e with
    pa := u.1, size := u.2, upper := none, word := if e.word.isPoison then e.word else Word.data (e.word.val >>> (8 * e.size)),
    tags := e.tags.drop ((e.pa % 8 + e.size + 7) / 8) })

/-- The parts of an entry that are still to be written, lower first (R233). -/
def SbEntry.parts (e : SbEntry) : List SbEntry := e :: e.upperPart.toList

/-- Whether an entry touches a line. -/
def SbEntry.onLine (e : SbEntry) (line : Nat) : Bool := e.parts.any (fun x => x.pa / 128 == line)

/-- Whether an older entry must be written before a younger one: both are ordered (R148), they share a line (R150), or the older one
crosses a line (R233). -/
def SbEntry.precedes (a b : SbEntry) : Bool := (!a.weak && !b.weak) || a.split || b.parts.any (fun x => a.onLine (x.pa / 128))

/-- The oldest entry that must be written before the one at a position, or that position itself. -/
def sbHead (sb : List SbEntry) (n fuel : Nat) : Nat :=
  match fuel, sb[n]? with
  | k + 1, some x =>
    match (sb.take n).findIdx? (fun e => e.precedes x) with
    | some j => sbHead sb j k
    | none => n
  | _, _ => n

/-- The next part of the store-buffer entry at a position written: the lower part first; the entry is freed with its last part. -/
def State.sbWriteAt (s : State) (lc n : Nat) : Bool × State :=
  match (s.core lc).sb[n]? with
  | none => (true, s)
  | some e =>
    match s.sbWrite lc e with
    | (false, s) => (false, s)
    | (true, s) =>
      let c := s.core lc
      (true, s.setCore lc { c with sb := match e.upperPart with
        | some u => lset c.sb n u
        | none => c.sb.eraseIdx n })

/-- A store buffer's room, in entries (Table 7-1). -/
def sbRoom : Nat := 128

/-- Entries of a store buffer written, oldest first, until at most `left` remain (fuel: parts). Answers whether so few remain. -/
def State.sbShrink (s : State) (lc left fuel : Nat) : Bool × State :=
  if (s.core lc).sb.length ≤ left then (true, s)
  else match fuel with
  | 0 => (false, s)
  | k + 1 =>
    match s.sbWriteAt lc 0 with
    | (true, s) => s.sbShrink lc left k
    | (false, s) => (false, s)

/-- Everything a core's store buffer holds is written. -/
def State.sbEmpty (s : State) (lc : Nat) : Bool × State := s.sbShrink lc 0 (2 * sbRoom)

/-- The oldest n entries of a store buffer written. Answers whether they all were. -/
def State.sbFirst (s : State) (lc n : Nat) : Bool × State := s.sbShrink lc ((s.core lc).sb.length - n) (2 * sbRoom)

/-- Room for n more entries made in a store buffer by writing the oldest. -/
def State.sbMake (s : State) (lc n : Nat) : Bool × State := s.sbShrink lc (sbRoom - n) (2 * sbRoom)

/-- R149: the core's older ordered stores written: those that are not weak, each after what must precede it (fuel: parts). -/
def State.sbOrderedRun (s : State) (lc fuel : Nat) : Bool × State :=
  let sb := (s.core lc).sb
  match sb.findIdx? (fun e => !e.weak) with
  | none => (true, s)
  | some k =>
    match fuel with
    | 0 => (false, s)
    | n + 1 =>
      match s.sbWriteAt lc (sbHead sb k sb.length) with
      | (true, s) => s.sbOrderedRun lc n
      | (false, s) => (false, s)

/-- R149: the core's older ordered stores written. -/
def State.sbOrdered (s : State) (lc : Nat) : Bool × State := s.sbOrderedRun lc (2 * sbRoom)

/-- The store-buffer entry at a position written when nothing older must precede it (R148, R150); otherwise it stays. -/
def State.sbWriteNth (s : State) (lc n : Nat) : State :=
  let sb := (s.core lc).sb
  if sbHead sb n sb.length = n then (s.sbWriteAt lc n).2 else s

/-- Entries put at the end of a store buffer. -/
def State.sbPut (s : State) (lc : Nat) (es : List SbEntry) : State :=
  let c := s.core lc
  s.setCore lc { c with sb := c.sb ++ es }

end Sys2Proof.Machine
end

