-- ==== Sys2Proof/Machine/Walk.lean ====
section
/-! DEFINITION. Table walks (R198 to R205), shared by the cores and the IOMMUs: the checks of an entry (R199 to R201) and the walk
over the levels of Table 6-9. How a table word is read is the caller's. -/
set_option autoImplicit false
namespace Sys2Proof.Machine

/-- Why a walk ends without a translation. -/
inductive WalkKind where
  /-- A translation fault with its SUB (R201). -/
  | translation (sub : Nat)
  /-- A translation-integrity fault with the tag byte found (R199). -/
  | integrity (tag : Nat)
  /-- A permission fault with its SUB (R202). -/
  | permission (sub : Nat)
  /-- A table word has not arrived. -/
  | stall
  deriving DecidableEq, Repr

/-- A fault of a walk: kind, level, stage, whether a stage-1 table read met it, and the faulting IPA (R205). -/
structure WFault where
  kind : WalkKind
  level : Nat
  stage2 : Bool
  s1walk : Bool
  ipa : Nat
  deriving DecidableEq, Repr

/-- A leaf: the address of the page or block, its size in bits, the entry's value bits and its level. -/
structure Leaf where
  base : Nat
  bits : Nat
  attr : BitVec 64
  level : Nat
  deriving DecidableEq, Repr

/-- Size in bits of what a leaf at a level maps (Table 6-9). -/
def levelBits (level : Nat) : Nat := 14 + 11 * (3 - level)

/-- R201: whether the value bits of a valid entry are a reserved encoding. -/
def entryReserved (level : Nat) (v : BitVec 64) : Bool :=
  let t := bitOf v 1
  field v 52 4 != 0 ||
  (if level < 3 && t then field v 2 12 != 0
   else bitOf v 4 || bitOf v 5 || bitOf v 13 || bitOf v 3 || (level == 3 && !t) || (bitOf v 7 && !bitOf v 6) ||
     (field v 14 38 * 2 ^ 14) % 2 ^ levelBits level != 0)

/-- An entry as the walk takes it: a fault, the next table, or a leaf. -/
inductive EntryRes where
  | fault (k : WalkKind)
  | table (pa : Nat)
  | leaf (l : Leaf)
  deriving DecidableEq, Repr

/-- R199 to R201: the checks of an entry word at a level. -/
def entryOf (level : Nat) (w : Word) : EntryRes :=
  if w.tag ≠ 0x81 then .fault (.integrity w.tag.toNat)
  else if !bitOf w.val 0 then .fault (.translation 0)
  else if entryReserved level w.val then .fault (.translation 1)
  else if level < 3 ∧ bitOf w.val 1 then .table (field w.val 14 38 * 2 ^ 14)
  else .leaf { base := field w.val 14 38 * 2 ^ 14, bits := levelBits level, attr := w.val, level := level }

/-- Address of the entry of an address at a level of a table. -/
def entryAddr (table va level : Nat) : Nat := table + va / 2 ^ levelBits level % 2048 * 8

/-- A walk from a table at a level (fuel: the levels left). `rd` reads a table word for a level. -/
def walk {σ : Type} (rd : σ → Nat → Nat → Except WFault Word × σ) (stage2 : Bool) (va : Nat) (table level fuel : Nat) (s : σ) :
    Except WFault Leaf × σ :=
  match fuel with
  | 0 => (.error ⟨.translation 1, level, stage2, false, 0⟩, s)
  | n + 1 =>
    match rd s (entryAddr table va level) level with
    | (.error f, s) => (.error f, s)
    | (.ok w, s) =>
      match entryOf level w with
      | .fault k => (.error ⟨k, level, stage2, false, if stage2 then va else 0⟩, s)
      | .table t => walk rd stage2 va t (level + 1) n s
      | .leaf l => (.ok l, s)

/-- The physical address that a leaf gives an address. -/
def Leaf.pa (l : Leaf) (va : Nat) : Nat := l.base + va % 2 ^ l.bits

end Sys2Proof.Machine
end

