-- ==== Sys2Proof/Machine/Mmu.lean ====
section
/-! DEFINITION. Address translation of the cores (06_privilege_translation.md, R198 to R207): the walks of both stages through
the core's own caches, the TLB and the walk cache, permissions and memory types; and instruction fetch. -/
set_option autoImplicit false
namespace Sys2Proof.Machine

/-- Why an instruction does not complete: an exception, or something it needs has not arrived. -/
inductive MFail where
  | exc (e : Exc)
  | stall
  deriving DecidableEq, Repr

/-- The result of a part of an instruction, with the state after it. -/
abbrev MRes (α : Type) := Except MFail α × State

/-- What an access asks of a translation (Table 6-11). -/
structure XAcc where
  fetch : Bool
  write : Bool
  deriving DecidableEq, Repr

/-- A translated address: physical address, memory type, TD of the stage-1 entry and its level (0 with stage 1 off). -/
structure Xlat where
  pa : Nat
  device : Bool
  td : Bool
  level : Nat
  deriving DecidableEq, Repr

/-- Whether a core reaches a line without its mesh stop: from its fill shelf or its tile's L2. -/
def State.coreHolds (s : State) (lc line : Nat) : Bool :=
  let c := s.core lc
  (c.shelf.find? (fun e => e.line == line)).isSome ||
    (s.l2Find (lcTile lc) line c.walled (decide (c.pl = 3))).isSome

/-- Table 16-2: an Open core's request for a line of Walled memory is refused at the tile's mesh stop, on the L2 miss. -/
def State.openRefused (s : State) (lc pa : Nat) : Bool :=
  !(s.core lc).walled && s.walledMem pa && !s.coreHolds lc (pa / 128)

/-- A line read for a core as a shared copy (R237): a line that an access asks into the shelf for the L1D is counted (L1D_FILL), and one that
the LLC cannot serve is remembered until it is used. -/
def State.coreLine (s : State) (lc line : Nat) (use : LineUse) : Option (List Word) × State :=
  let c := s.core lc
  let pl3 := decide (c.pl = 3)
  let lt := llcOf (ltDie (lcTile lc)) line
  let asks := !s.coreHolds lc line
  let again := (s.tile (lcTile lc)).miss.any (fun m => m.line == line)
  let far := asks && (s.llcFind lt line c.walled pl3).isNone && !((s.slice lt).vb.any (fun l => l.line == line))
  let fills := use == .data && !again && !c.inL1 .data line && (c.shelf.find? (fun e => e.line == line)).isNone
  let s := if fills then s.coreEv lc 0x087 else s
  let s := if far then s.setCore lc { s.core lc with far := line :: (s.core lc).far } else s
  s.l2Fetch lc line c.walled pl3 use

/-- A line as its core sees it: the stores of its store buffer count as written (R228, R206), and words of CXL memory have no tag
(R80). -/
def State.coreView (s : State) (lc line : Nat) (ws : List Word) : List Word :=
  let c := s.core lc
  let ws := match tfind c.l1bad line with
    | some bits => if c.l1d.any (fun p => p.2 == line) then lset ws 0 (flipWord (ws.getD 0 Word.zero) bits) else ws
    | none => ws
  let ws := ((c.sb.flatMap SbEntry.parts).filter (fun e => e.pa / 128 == line)).foldl (fun l e => sbApply e l) ws
  if s.isCxl line then ws.map (fun w => if w.isPoison then w else Word.data w.val) else ws

/-- A table entry read by the walker (R201, R206): device memory is refused; Walled memory reads as tag 0x00 in the Open world. -/
def State.mmuWord (s : State) (lc pa level : Nat) (stage2 : Bool) : Except WFault Word × State :=
  if (s.classify pa).isDevice then (.error ⟨.translation 3, level, stage2, false, 0⟩, s)
  else if s.openRefused lc pa then (.ok Word.zero, s)
  else
    match s.coreLine lc (pa / 128) .walk with
    | (none, s) => (.error ⟨.stall, level, stage2, false, 0⟩, s)
    | (some ws, s) => (.ok ((s.coreView lc (pa / 128) ws).getD (pa % 128 / 8) Word.zero), s)

/-- The walk-cache entry of the deepest level that covers an address: its next table and level; the root otherwise. -/
def Core.wcStart (c : Core) (regime va : Nat) (asid : Nat) (vmid : Option Nat) (root : Nat) : Nat × Nat :=
  [0, 1, 2].foldl (fun (best : Nat × Nat) lvl =>
    match c.wcache.find? (fun e => e.regime == regime && e.walled == c.walled && e.asid == asid && e.vmid == vmid &&
        e.level == lvl && e.idx == va / 2 ^ levelBits lvl) with
    | some e => (e.next, lvl + 1)
    | none => best) (root, 0)

/-- A table found at a level kept in the 32-entry walk cache (Table 7-1). -/
def Core.wcPut (c : Core) (regime va asid : Nat) (vmid : Option Nat) (level next : Nat) : Core :=
  let e : WalkEnt :=
    { regime := regime, walled := c.walled, asid := asid, vmid := vmid, level := level, idx := va / 2 ^ levelBits level,
      next := next }
  if c.wcache.contains e then c
  else { c with wcache := (c.wcache ++ [e]).drop (c.wcache.length + 1 - 32) }

/-- The stage-2 walk of an IPA (R205); `s1` says that it serves a stage-1 table read. -/
def State.stage2Walk (s : State) (lc ipa : Nat) (s1 : Bool) : Except WFault Leaf × State :=
  let c := s.core lc
  let vm := some c.vmid
  let (t, lvl) := c.wcStart 4 ipa 0 vm (field (c.sysr 0x02B) 14 38 * 2 ^ 14)
  let rd : State → Nat → Nat → Except WFault Word × State := fun s pa level =>
    match s.mmuWord lc pa level true with
    | (.ok w, s) =>
      (.ok w, if level = 0 then s else s.setCore lc ((s.core lc).wcPut 4 ipa 0 vm (level - 1) (pa / 2 ^ 14 * 2 ^ 14)))
    | (.error f, s) => (.error f, s)
  match walk rd true ipa t lvl (4 - lvl) s with
  | (.error f, s) => (.error { f with stage2 := true, s1walk := s1, ipa := ipa }, s)
  | (.ok l, s) => (.ok l, s)

/-- A stage-1 table word at an address that stage 2 translates when it applies (R205). A table read that only stage 2 types as device is
reported as a fault of stage 1 (entry 27). -/
def State.stage1Word (s : State) (lc : Nat) (s2 : Bool) (addr level : Nat) : Except WFault Word × State :=
  if !s2 then s.mmuWord lc addr level false
  else
    match s.stage2Walk lc addr true with
    | (.error f, s) => (.error f, s)
    | (.ok l, s) =>
      if !bitOf l.attr 6 then (.error ⟨.permission 0, l.level, true, true, addr⟩, s)
      else if bitOf l.attr 2 then (.error ⟨.translation 3, level, false, false, 0⟩, s)
      else s.mmuWord lc (l.pa addr) level false

/-- The regime of a level (Table 6-1): 0 for PL0 and PL1, 2, 3; and its table base register. -/
def Core.regime (c : Core) : Nat := if c.pl ≤ 1 then 0 else c.pl
/-- The s.ttbr of the current regime. -/
def Core.ttbr (c : Core) : BitVec 64 := c.sysr (if c.pl ≤ 1 then 0x028 else 0x027 + c.pl)
/-- Whether stage 2 applies (R205). -/
def Core.stage2On (c : Core) : Bool := decide (c.pl ≤ 1) && c.vm

/-- Whether a TLB entry's tags match the current state (R207). -/
def Core.tlbHit (c : Core) (va : Nat) (e : TlbEnt) : Bool :=
  e.regime == c.regime && e.walled == c.walled && e.vaPage == va / 2 ^ e.bits &&
    (match e.asid with
     | some a => a == c.asid
     | none => true) &&
    (e.vmid == if c.stage2On then some c.vmid else none) && (e.attr1.isSome == bitOf c.ttbr 0)

/-- The stage-1 leaf of an address: none with stage 1 off (R204). -/
def State.stage1Walk (s : State) (lc va : Nat) : Except WFault (Option Leaf) × State :=
  let c := s.core lc
  if !bitOf c.ttbr 0 then
    if va / 2 ^ 52 ≠ 0 then (.error ⟨.translation 2, 0, false, false, 0⟩, s) else (.ok none, s)
  else
    let s2 := c.stage2On
    let vm := if s2 then some c.vmid else none
    let asid := if c.pl ≤ 1 then c.asid else 0
    let (t, lvl) := c.wcStart c.regime va asid vm (field c.ttbr 14 38 * 2 ^ 14)
    let rd : State → Nat → Nat → Except WFault Word × State := fun s addr level =>
      match s.stage1Word lc s2 addr level with
      | (.ok w, s) =>
        (.ok w, if level = 0 then s
          else s.setCore lc ((s.core lc).wcPut c.regime va asid vm (level - 1) (addr / 2 ^ 14 * 2 ^ 14)))
      | (.error f, s) => (.error f, s)
    match walk rd false va t lvl (4 - lvl) s with
    | (.error f, s) => (.error f, s)
    | (.ok l, s) => (.ok (some l), s)

/-- A walk of both stages and the TLB entry it gives; none when neither stage is on. -/
def State.walkBoth (s : State) (lc va : Nat) : Except WFault (Option TlbEnt) × State :=
  let s := s.coreEv lc 0x086
  match s.stage1Walk lc va with
  | (.error f, s) => (.error f, s)
  | (.ok l1, s) =>
    let c := s.core lc
    let ipa := match l1 with
      | some l => l.pa va
      | none => va
    let ent : Leaf → Nat → Option Leaf → TlbEnt := fun l bits l2 =>
      { regime := c.regime, walled := c.walled, vaPage := va / 2 ^ bits, bits := bits,
        asid := match l1 with
          | some x => if bitOf x.attr 11 ∨ c.pl ≥ 2 then none else some c.asid
          | none => none,
        vmid := if l2.isSome then some c.vmid else none,
        ipa := ipa / 2 ^ bits * 2 ^ bits, pa := l.pa ipa / 2 ^ bits * 2 ^ bits,
        attr1 := l1.map (fun x => x.attr), level1 := (l1.map (fun x => x.level)).getD 0,
        attr2 := l2.map (fun x => x.attr), level2 := (l2.map (fun x => x.level)).getD 0 }
    if c.stage2On then
      match s.stage2Walk lc ipa false with
      | (.error f, s) => (.error f, s)
      | (.ok l2, s) =>
        let bits := match l1 with
          | some x => min x.bits l2.bits
          | none => l2.bits
        (.ok (some (ent l2 bits (some l2))), s)
    else
      match l1 with
      | none => (.ok none, s)
      | some x => (.ok (some (ent { x with base := x.base - x.base % 2 ^ x.bits } x.bits none)), s)

/-- The physical address of a translation without stage 2 is that of its stage-1 leaf. -/
def TlbEnt.paOf (e : TlbEnt) (va : Nat) : Nat := e.pa + va % 2 ^ e.bits

/-- Whether an entry of a stage lacks the permission that an access needs (Table 6-11, R202). -/
def permMissing (pl0 stage2 : Bool) (a : XAcc) (attr : BitVec 64) : Bool :=
  if a.fetch then !bitOf attr (if pl0 then 9 else 8)
  else !bitOf attr (if a.write then 7 else 6) || (pl0 && !stage2 && !bitOf attr 10)

/-- The faults of a translated access (R202): a fetch from device memory, then a missing permission. Where both stages lack the
permission, stage 1 is reported (entry 27). -/
def permCheck (pl0 : Bool) (a : XAcc) (dev1 dev2 : Bool) (e : TlbEnt) (ipa : Nat) : Option WFault :=
  let miss1 := match e.attr1 with
    | some x => permMissing pl0 false a x
    | none => false
  let miss2 := match e.attr2 with
    | some x => permMissing pl0 true a x
    | none => false
  if a.fetch && dev1 then some ⟨.permission 1, e.level1, false, false, 0⟩
  else if a.fetch && dev2 then some ⟨.permission 1, e.level2, true, false, ipa⟩
  else if miss1 then some ⟨.permission 0, e.level1, false, false, 0⟩
  else if miss2 then some ⟨.permission 0, e.level2, true, false, ipa⟩
  else none

/-- The exception of a failed translation (Table 6-4, s.cause). -/
def xfault (a : XAcc) (va : BitVec 64) (f : WFault) : MFail :=
  let e : Nat → Nat → Nat → Exc := fun code info sub =>
    { code := code, info := info, sub := sub, fetch := a.fetch, write := a.write, stage2 := f.stage2, s1walk := f.s1walk,
      level := f.level, addr := va, ipa := if f.stage2 then some f.ipa else none, fpFlags := 0 }
  match f.kind with
  | .stall => .stall
  | .translation sub => .exc (e (if a.fetch then 0x01 else 0x03) 0 sub)
  | .permission sub => .exc (e (if a.fetch then 0x02 else 0x04) 0 sub)
  | .integrity tag => .exc (e 0x05 tag 0)

/-- An entry kept in one of the L1 TLBs (Table 7-1): 64 for instructions, 96 for data, the oldest replaced (entry 93). -/
def Core.l1TlbPut (c : Core) (fetch : Bool) (e : TlbEnt) : Core :=
  if fetch then { c with itlb := (c.itlb ++ [e]).drop (c.itlb.length + 1 - 64) }
  else { c with dtlb := (c.dtlb ++ [e]).drop (c.dtlb.length + 1 - 96) }

/-- An entry kept in the second-level TLB of Table 7-1: 4,096 entries, 8 ways, the oldest of the set replaced (entry 93). -/
def Core.tlbPut (c : Core) (e : TlbEnt) : Core :=
  let same := fun (x : TlbEnt) => x.vaPage % 512 == e.vaPage % 512
  let old := if (c.tlb.filter same).length < 8 then c.tlb else c.tlb.eraseP same
  { c with tlb := old ++ [e] }

/-- The entry that stands for a translation with both stages off (R204): PA := VA[51:0]. -/
def TlbEnt.flat (c : Core) (va : Nat) : TlbEnt :=
  { regime := c.regime, walled := c.walled, vaPage := va / 2 ^ 14, bits := 14, asid := none, vmid := none,
    ipa := va / 2 ^ 14 * 2 ^ 14, pa := va / 2 ^ 14 * 2 ^ 14, attr1 := none, level1 := 0, attr2 := none, level2 := 0 }

/-- The translation of an address: from the L1 TLB of its kind of access, from the second-level TLB, or by a walk that fills both. -/
def State.tlbLookup (s : State) (lc : Nat) (fetch : Bool) (va : Nat) : Except WFault TlbEnt × State :=
  let c := s.core lc
  match (if fetch then c.itlb else c.dtlb).find? (c.tlbHit va), c.tlb.find? (c.tlbHit va) with
  | some e, _ => (.ok e, s)
  | none, some e => (.ok e, s.setCore lc (c.l1TlbPut fetch e))
  | none, none =>
    if !bitOf c.ttbr 0 && !c.stage2On then
      if va / 2 ^ 52 ≠ 0 then (.error ⟨.translation 2, 0, false, false, 0⟩, s) else (.ok (TlbEnt.flat c va), s)
    else
      match s.walkBoth lc va with
      | (.error f, s) => (.error f, s)
      | (.ok none, s) => (.ok (TlbEnt.flat c va), s)
      | (.ok (some e), s) =>
        let c := ((s.core lc).tlbPut e).l1TlbPut fetch e
        (.ok e, s.setCore lc { c with evs := c.evs ++ [0x00C] })

/-- The memory type that an entry of a stage gives (MT, Table 6-10). -/
def attrDevice (attr : Option (BitVec 64)) : Bool :=
  match attr with
  | some w => bitOf w 2
  | none => false

/-- Whether stage 1 gives an access device type: by its entry, or with stage 1 off by the address it gives (R204). Memory that only its
final address makes device counts as typed by stage 1 (R131, entry 55). -/
def State.stage1Device (s : State) (e : TlbEnt) (ipa pa : Nat) : Bool :=
  attrDevice e.attr1 || (e.attr1.isNone && (s.classify ipa).isDevice) || (!attrDevice e.attr2 && (s.classify pa).isDevice)

/-- Translation of an address for an access (R198 to R205). -/
def State.translate (s : State) (lc : Nat) (a : XAcc) (va : BitVec 64) : MRes Xlat :=
  match s.tlbLookup lc a.fetch (vaLow va) with
  | (.error f, s) => (.error (xfault a va f), s)
  | (.ok e, s) =>
    let c := s.core lc
    let pa := e.paOf (vaLow va)
    let ipa := e.ipa + vaLow va % 2 ^ e.bits
    let dev1 := s.stage1Device e ipa pa
    let dev2 := attrDevice e.attr2
    match permCheck (decide (c.pl = 0)) a dev1 dev2 e ipa with
    | some f => (.error (xfault a va f), s)
    | none =>
      (.ok { pa := pa, device := dev1 || dev2,
             td := match e.attr1 with
               | some w => bitOf w 12
               | none => false,
             level := e.level1 }, s)

/-- The permission fault of an Open access to Walled memory (Table 16-2). -/
def walledFault (a : XAcc) (va : BitVec 64) (level : Nat) : MFail :=
  xfault a va ⟨.permission 0, level, false, false, 0⟩

/-- The 32-bit instruction word at an address of a line (R100): little-endian within its 64-bit word. -/
def lineInstr (ws : List Word) (pa : Nat) : BitVec 32 := (ws.getD (pa % 128 / 8) Word.zero).val.extractLsb' (8 * (pa % 8)) 32

/-- The fetch of the instruction at the PC (R104, R189): its line, or the exception that outranks every other. A word that spells no
instruction is illegal (R102); of one that does, the command stands for the word (entry 2). -/
def State.fetchInstr (s : State) (lc : Nat) : MRes Nat :=
  let c := s.core lc
  let va := v64 c.pc
  let a : XAcc := { fetch := true, write := false }
  match s.translate lc a va with
  | (.error f, s) => (.error f, s)
  | (.ok x, s) =>
    if s.openRefused lc x.pa then (.error (walledFault a va x.level), s)
    else
      match s.coreLine lc (x.pa / 128) .fetch with
      | (none, s) => (.error .stall, s)
      | (some ws, s) =>
        let w := ws.getD (x.pa % 128 / 8) Word.zero
        if w.isPoison then (.error (.exc (Exc.mk1 0x06 (wordCode w) va)), s)
        else if (decodeEcyen lc (lineInstr ws x.pa)).isNone then (.error (.exc .illegal), s)
        else (.ok (x.pa / 128), s)

end Sys2Proof.Machine
end

