-- ==== Sys2Proof/Machine/CoreRun.lean ====
section
/-! DEFINITION. Exceptions and interrupts of a core (R184 to R193), taken by ONE shared operation, the counter context switch of
VM entries and exits (R546, R547), the flushes of a world switch (R301), and the frame of every instruction: what is checked before
it, and what its retirement does. -/
set_option autoImplicit false
namespace Sys2Proof.Machine

/-- R29, R268, R517: whether a logical core is one that executes instructions now, be it waiting in one or not. -/
def State.coreOpen (s : State) (lc : Nat) : Bool :=
  let c := s.core lc
  s.coreExists lc && (s.mode == .m5 || s.mode == .m10) && c.started && !c.halted &&
    decide (s.tileSt (lcTile lc) = 0) && !s.pwr.vstop && !s.boot.scrub

/-- Whether a logical core can execute an instruction now: it waits in none. -/
def State.coreRuns (s : State) (lc : Nat) : Bool := s.coreOpen lc && (s.core lc).wait.isNone

/-- The non-caching agent by which a core has other sockets carry out its CMO (entry 16). -/
def cmoAgent (lc : Nat) : Agent := .nca (131072 + lc)

/-- The non-caching agent of an initiator's accesses to a device-typed page over memory (entry 55). -/
def devAgent (w : CtlWho) : Agent := .nca (2048 + 512 * w.kind + w.num)

/-- Whether the instruction in progress of a core has begun (R134, R151): a read of its own is outstanding below a root port or at a home,
its IPI waits in the Urn, or its CMO at other sockets. -/
def State.coreBegun (s : State) (lc : Nat) : Bool :=
  s.io.mmio.any (fun m => m.who == .core lc) || s.ipiWaits lc || s.urnAns.any (fun a => a.who == .ipi lc) ||
    s.ncaOut (devAgent { kind := 1, num := lc, walled := false }) .rdNC .data || s.ncaOut (cmoAgent lc) .wrInv .cmp

/-- Every predictor structure in its cold state (R225). -/
def Core.coldPred (c : Core) : Core := { c with pred := Predictor.cold }

/-- R301: the flushes of a world switch: fill shelf, L1I and L1D of the arbour's core, and a full flush of the L2 starts. The replacement
state of the L1s goes with their lines (entry 42). -/
def State.worldFlush (s : State) (lc : Nat) (walled : Bool) : State :=
  let lt := lcTile lc
  let s := s.shelfDiscard lc walled
  let s := s.setCore lc { s.core lc with l1i := [], l1iTree := [], l1d := [], l1dMru := [] }
  let s := s.setFld (ltDie lt) (ltIdx lt) L2_CTL [] L2_CTL_FLUSH 1
  s.setTile lt { s.tile lt with flushing := true }

/-- The 16 words of the live counter state (Table 18-3). -/
def Core.ctxWords (c : Core) : List Word :=
  (List.range 11).map (fun j => Word.data (v64 (field (c.sysr (0x040 + j)) 0 48))) ++
    (List.range 4).map (fun j =>
      Word.data (v64 (field (c.sysr (0x050 + 2 * j)) 0 32 + field (c.sysr (0x051 + 2 * j)) 0 32 * 2 ^ 32))) ++
    [Word.data (c.sysr 0x058)]

/-- Bits of s.cntsel and s.cntctl that exist. -/
def cntselMask : BitVec 64 := 0x1FFFF
/-- Bits of s.cntctl that exist. -/
def cntctlMask : BitVec 64 := 0x1FFFF07FF07FF

/-- A counter state loaded from 16 words (R546, R547): a poison word loads as 0 and sets s.cnthctx.ERR. -/
def Core.ctxLoad (c : Core) (ws : List Word) (refused : Bool) : Core :=
  let w : Nat → BitVec 64 := fun i =>
    let x := ws.getD i Word.zero
    if refused ∨ x.isPoison then 0 else x.val
  let c := foldN 11 (fun (c : Core) j => c.setSys (0x040 + j) (v64 (field (w j) 0 48))) c
  let c := foldN 4 (fun (c : Core) j =>
    (c.setSys (0x050 + 2 * j) (v64 (field (w (11 + j)) 0 32) &&& cntselMask)).setSys (0x051 + 2 * j)
      (v64 (field (w (11 + j)) 32 32) &&& cntselMask)) c
  let c := c.setSys 0x058 (w 15 &&& cntctlMask)
  if refused || (ws.take 16).any Word.isPoison then c.setSys 0x05C (setBit (c.sysr 0x05C) 1 true) else c

/-- Address of the counter context that s.cnthctx or s.cntgctx names. -/
def Core.ctxAddr (c : Core) (n : Nat) : Nat := field (c.sysr n) 7 45 * 128

/-- The store-buffer entries that save the live counter state to a context (R546): its words, and the colour of its line. -/
def Core.ctxStores (c : Core) (save : Nat) : List SbEntry :=
  let at' := fun (pa size : Nat) (kind : SbKind) (w : Word) =>
    ({ pa := pa, size := size, upper := none, split := false, kind := kind, word := w, tags := [], weak := false,
       walled := c.walled, pl3 := false } : SbEntry)
  (List.range 16).map (fun i => at' (c.ctxAddr save + 8 * i) 8 .whole (c.ctxWords.getD i Word.zero)) ++
    [at' (c.ctxAddr save) 128 .colour Word.zero]

/-- What a counter context switch needs before it acts: room in the store buffer and the line to load, `some none` where an Open core may
not have it (Table 16-2). None while they have not come. -/
def State.ctxLine (s : State) (lc load : Nat) : Option (Option (List Word)) × State :=
  match s.sbMake lc 17 with
  | (false, s) => (none, s)
  | (true, s) =>
    let la := (s.core lc).ctxAddr load
    if s.openRefused lc la then (some none, s)
    else
      match s.coreLine lc (la / 128) .walk with
      | (none, s) => (none, s)
      | (some ws, s) => (some (some ws), s)

/-- R546: the live counter state saved to one context and the other loaded from its line. -/
def State.ctxSwap (s : State) (lc save load : Nat) (line : Option (List Word)) : State :=
  let s := s.sbPut lc ((s.core lc).ctxStores save)
  match line with
  | none => s.setCore lc ((s.core lc).ctxLoad [] true)
  | some ws => s.setCore lc ((s.core lc).ctxLoad (s.coreView lc ((s.core lc).ctxAddr load / 128) ws) false)

/-- R185, Table 6-5: the level at which an exception is taken. -/
def Core.excLevel (c : Core) (e : Exc) : Nat :=
  if e.stage2 ∨ e.code = 0x09 then 2
  else match e.code with
    | 0x18 => 1
    | 0x19 => 2
    | 0x1A => 3
    | 0x20 => if e.info = 0 then (if c.imo then 2 else 1) else 2
    | _ => if c.pl ≤ 1 then 1 else c.pl

/-- s.cause of an exception. -/
def Exc.cause (e : Exc) : BitVec 64 :=
  v64 (e.code % 256 + e.fetch.toNat * 2 ^ 8 + e.write.toNat * 2 ^ 9 + e.stage2.toNat * 2 ^ 10 + e.s1walk.toNat * 2 ^ 11 +
    e.level % 4 * 2 ^ 12 + e.info % 4096 * 2 ^ 16 + e.sub % 16 * 2 ^ 28)

/-- R186: the registers of a core after entry to level t with a saved PC. -/
def Core.enter (c : Core) (e : Exc) (t pc : Nat) : Core :=
  let st := c.sysr 0x000
  let off := (if e.code = 0x20 then 0x080 else 0) + (if c.pl < t then 0x100 else 0)
  let c := (((c.setSys (0x013 + t) (v64 pc)).setSys (0x017 + t) st).setSys (0x01B + t) e.cause).setSys (0x01F + t) e.addr
  let c := match e.ipa with
    | some ipa => c.setSys 0x02D (v64 ipa)
    | none => c
  let c := if e.code = 0x12 then c.setSys 0x032 (setField (c.sysr 0x032) 16 5 e.fpFlags) else c
  let st := setField (setField st 0 2 t) 3 1 0
  let c := c.setSys 0x000 (if t = 3 then setField st 2 1 1 else st)
  { c with pc := field (c.sysr (0x00F + t)) 12 46 * 2 ^ 12 + off }

/-- R186 with its effects beyond the registers: the flushes of a world switch, cold predictors, the counter context switch of a
VM exit, and the count of the event. Nothing is taken while the counter context has not arrived. -/
def State.takeExc (s : State) (lc : Nat) (e : Exc) (pc : Nat) : State :=
  let c := s.core lc
  let t := c.excLevel e
  let exit := decide (t = 2) && decide (c.pl ≤ 1) && c.vm && bitOf (c.sysr 0x05C) 0
  let squashed := c.shelf.length
  match (if exit then s.ctxLine lc 0x05C else (some none, s)) with
  | (none, s) => s
  | (some line, s) =>
    let s := foldN squashed (fun (s : State) _ => s.coreEv lc 0x084) s
    let s := if exit then s.ctxSwap lc 0x05D 0x05C line else s
    let c' := ({ s.core lc with evs := [], far := [], wrote := [] }).enter e t pc
    let c' := if c'.pl ≠ c.pl ∨ c'.walled ≠ c.walled then c'.coldPred else c'
    let c' := c'.countEv c'.pl c'.walled (if e.code = 0x20 then 0x00E else 0x00D)
    let s := ((s.setCore lc c').shelfClear lc c.walled).logClear (lcTile lc)
    if c'.walled ≠ c.walled then s.worldFlush lc c.walled else s

/-- R191, R195: the interrupt that a core may take now, as the INFO of its cause: 2 direct timer 2, 0 the interrupt queue. -/
def Core.irq (c : Core) : Option Nat :=
  let may := fun (t : Nat) => decide (c.pl < t) || (decide (c.pl = t) && c.ie)
  if bitOf (c.sysr 0x03A) 2 && may 2 then some 2
  else if c.irqPending && may (if c.imo then 2 else 1) then some 0
  else none

/-- The interrupt taken at the boundary where a core stands now, if any: none while its instruction has begun (entry 94). -/
def State.irqNow (s : State) (lc : Nat) : Option Nat := if s.coreBegun lc then none else (s.core lc).irq

/-- The exception of an interrupt. -/
def Exc.interrupt (info : Nat) : Exc := Exc.mk1 0x20 info 0

/-- Whether an exception is a call, whose saved PC is the next instruction (R180, R188). -/
def Exc.isCall (e : Exc) : Bool := within 0x18 e.code 0x1A

/-- What the retirement of an instruction adds to the counters: the events it met and its own (R543). -/
def Core.countRetired (c : Core) (pl : Nat) (walled : Bool) : Core :=
  let evs := c.evs ++ [0x002, 0x080]
  ({ c with evs := [], far := [], wrote := [] }).countEvs pl walled evs

/-- Retirement (R238, R544): the fetched line is installed, what only walks used leaves the shelf, entries due from older
instructions are pushed, and the events are counted at the level and in the world of the instruction. After a world switch the
flushed caches take no line. -/
def State.retire (s : State) (lc line : Nat) (pre : Core) (counted : Bool) : State :=
  let s := if (s.core lc).walled ≠ pre.walled then s else s.retireFetch lc line pre.walled
  let s := s.pushDue lc
  let s := if counted then s else s.setCore lc ((s.core lc).countRetired pre.pl pre.walled)
  s.shelfClear lc pre.walled

end Sys2Proof.Machine
end

