-- ==== Sys2Proof/Machine/Flush.lean ====
section
/-! DEFINITION. Flushes of the L2 and the LLC (R293 to R300): full flushes, ways going out of service, and changes of the
Walled mask. -/
set_option autoImplicit false
namespace Sys2Proof.Machine

/-- The L2 lines at some entries removed, and their writebacks carried as far as they go. -/
def State.l2FlushKeys (s : State) (lt : Nat) (keys : List Nat) : State :=
  (keys.foldl (fun (s : State) k => s.l2Evict lt k) s).settle

/-- Every line of an L2 removed (R297). -/
def State.l2FlushAll (s : State) (lt : Nat) : State := s.l2FlushKeys lt ((s.tile lt).l2.map (·.1))

/-- An LLC line removed: tile copies first (R277), then out towards the home. -/
def State.llcRemove (s : State) (lt key : Nat) : State :=
  let s := s.llcCheck lt key
  match tfind (s.slice lt).lines key with
  | none => s
  | some l =>
    let (l, s) := s.tilesTake lt l
    (s.llcDel lt key).llcOut lt l

/-- Whether the line at an entry of a slice is blocked by a transaction (R320). -/
def Slice.blocked (x : Slice) (key : Nat) : Bool :=
  match tfind x.lines key with
  | some l => (x.txn l.line).isSome
  | none => false

/-- The LLC lines at some entries removed, but those that are blocked, which the flush comes back to. -/
def State.llcFlushKeys (s : State) (lt : Nat) (keys : List Nat) : State :=
  (keys.foldl (fun (s : State) k => if (s.slice lt).blocked k then s else s.llcRemove lt k) s.settle).settle

/-- Every line and every victim-buffer entry of a slice removed (R297), but those that are blocked. -/
def State.llcFlushAll (s : State) (lt : Nat) : State :=
  let s := s.llcFlushKeys lt ((s.slice lt).lines.map (·.1))
  let s := (s.slice lt).vb.foldl (fun (s : State) l =>
    let s := s.vbCheck lt l.line
    match (s.slice lt).vb.find? (fun e => e.line == l.line) with
    | some e => (s.setSlice lt { s.slice lt with vb := (s.slice lt).vb.filter (fun e => e.line != l.line) }).llcOut lt e
    | none => s) s
  s.settle

/-- R297: a write to L2_CTL: PREF_EN, and a full flush that starts or merges with the one in progress. -/
def State.l2CtlWrite (s : State) (lt : Nat) (v : BitVec 64) : State :=
  let d := ltDie lt; let u := ltIdx lt
  let s := s.setFld d u L2_CTL [] L2_CTL_PREF_EN (field v 1 1)
  if bitOf v 0 then (s.setFld d u L2_CTL [] L2_CTL_FLUSH 1).setTile lt { s.tile lt with flushing := true } else s

/-- R297: a write to LLC_CTL. -/
def State.llcCtlWrite (s : State) (lt : Nat) (v : BitVec 64) : State :=
  if bitOf v 0 then
    (s.setFld (ltDie lt) (llcUnit lt) LLC_CTL [] LLC_CTL_FLUSH 1).setSlice lt { s.slice lt with flushing := true }
  else s

/-- R297: the full flush of an L2 ends: its last lines go, FLUSH reads 0 and FLUSH_DONE is set; lines granted meanwhile enter it now. -/
def State.l2FlushDone (s : State) (lt : Nat) : State :=
  if !(s.tile lt).flushing then s
  else
    let s := s.l2FlushAll lt
    let fills := (s.tile lt).fills
    let s := s.setTile lt { s.tile lt with flushing := false, fills := [] }
    let s := (s.setFld (ltDie lt) (ltIdx lt) L2_CTL [] L2_CTL_FLUSH 0).setFld (ltDie lt) (ltIdx lt) L2_STATUS [] L2_STATUS_FLUSH_DONE 1
    ((fills.foldl (fun (s : State) m => s.tileFill lt m) s).rbRetry lt).settle

/-- R297: the full flush of a slice ends, unless a blocked line is still to go; the requests that waited for it are served. -/
def State.llcFlushDone (s : State) (lt : Nat) : State :=
  if !(s.slice lt).flushing then s
  else
    let s := s.llcFlushAll lt
    if !(s.slice lt).lines.isEmpty then s
    else
      let s := s.setSlice lt { s.slice lt with flushing := false }
      let s := (s.setFld (ltDie lt) (llcUnit lt) LLC_CTL [] LLC_CTL_FLUSH 0).setFld (ltDie lt) (llcUnit lt) LLC_STATUS []
        LLC_STATUS_FLUSH_DONE 1
      (s.llcResume lt).settle

/-- PENDING after a write of DIS (R296): ways newly disabled begin their flush; a way re-enabled leaves PENDING once the flush
reaches its end. -/
def disWrite (r : BitVec 64) (dis : Nat) : BitVec 64 :=
  let rising := dis &&& (65535 ^^^ field r 0 16)
  setField (setField r 0 16 dis) 32 16 (field r 32 16 ||| (rising &&& (65535 ^^^ field r 16 16)))

/-- R296: a write to L2_WAY_DIS. -/
def State.l2DisWrite (s : State) (lt : Nat) (v : BitVec 64) : State :=
  let d := ltDie lt; let u := ltIdx lt
  let r := s.reg d u L2_WAY_DIS []
  if s.l2WaysOk lt (field v 0 16 ||| field r 16 16 ||| (s.tile lt).hwPend) then
    s.setReg d u L2_WAY_DIS [] (disWrite r (field v 0 16))
  else s.setFld d u L2_STATUS [] L2_STATUS_REFUSED 1

/-- R296: a write to LLC_WAY_DIS. A way enabled again allocates at once, for what waited as well. -/
def State.llcDisWrite (s : State) (lt : Nat) (v : BitVec 64) : State :=
  let d := ltDie lt; let u := llcUnit lt
  let r := s.reg d u LLC_WAY_DIS []
  if s.llcWaysAlways lt (field v 0 16 ||| field r 16 16 ||| (s.slice lt).hwPend) then
    ((s.setReg d u LLC_WAY_DIS [] (disWrite r (field v 0 16))).llcResume lt).settle
  else s.setFld d u LLC_STATUS [] LLC_STATUS_REFUSED 1

/-- R293, R296: the flush of a pending way of an L2 ends: HWDIS is set with its record where the hardware disabled the way;
PENDING clears, and WAY_DONE is set with the last one. -/
def State.l2WayDone (s : State) (lt way : Nat) : State :=
  let d := ltDie lt; let u := ltIdx lt
  if !bitOf (s.reg d u L2_WAY_DIS []) (32 + way) ∨ way ≥ 16 then s
  else
    let s := s.l2FlushKeys lt (((s.tile lt).l2.map (·.1)).filter (fun k => k % 16 == way))
    let r := s.reg d u L2_WAY_DIS []
    let hw := natBit (s.tile lt).hwPend way
    let r := setBit (if hw then setBit r (16 + way) true else r) (32 + way) false
    let s := s.setReg d u L2_WAY_DIS [] r
    let s := if hw then
        (s.setTile lt { s.tile lt with hwPend := clearBit (s.tile lt).hwPend way }).err d u (ErrRec.mk1 4 0x03 way 0)
      else s
    if field r 32 16 = 0 then s.setFld d u L2_STATUS [] L2_STATUS_WAY_DONE 1 else s

/-- The last PENDING bit of a slice has cleared: WAY_DONE is set (R296). -/
def State.llcPendEnd (s : State) (lt : Nat) : State :=
  if field (s.reg (ltDie lt) (llcUnit lt) LLC_WAY_DIS []) 32 16 = 0 then
    s.setFld (ltDie lt) (llcUnit lt) LLC_STATUS [] LLC_STATUS_WAY_DONE 1
  else s

/-- R293, R296: the flush of a pending way of an LLC slice ends, unless a blocked line is still to go. -/
def State.llcWayDone (s : State) (lt way : Nat) : State :=
  let d := ltDie lt; let u := llcUnit lt
  if !bitOf (s.reg d u LLC_WAY_DIS []) (32 + way) ∨ way ≥ 16 then s
  else
    let s := s.llcFlushKeys lt (((s.slice lt).lines.map (·.1)).filter (fun k => k % 16 == way))
    if (s.slice lt).lines.any (fun p => p.1 % 16 == way) then s
    else
      let r := s.reg d u LLC_WAY_DIS []
      let hw := natBit (s.slice lt).hwPend way
      let mine := match (s.slice lt).newMask with
        | some (_, ways) => natBit ways way
        | none => false
      let r := if hw then setBit r (16 + way) true else r
      let s := s.setReg d u LLC_WAY_DIS [] (if mine then r else setBit r (32 + way) false)
      let s := if hw then
          (s.setSlice lt { s.slice lt with hwPend := clearBit (s.slice lt).hwPend way }).err d u (ErrRec.mk1 4 0x03 way 0)
        else s
      ((s.llcPendEnd lt).llcResume lt).settle

/-- R300: a Walled write to LLC_WALLED_WAYS: the ways that enter or leave the mask stop allocating and are flushed. -/
def State.maskWrite (s : State) (lt : Nat) (v : BitVec 64) : State :=
  let d := ltDie lt; let u := llcUnit lt
  let r := s.reg d u LLC_WAY_DIS []
  let cur := s.fld d u LLC_WALLED_WAYS [] LLC_WALLED_WAYS_MASK
  let new := field v 0 16
  if s.llcWaysOk (field r 0 16 ||| field r 16 16 ||| (s.slice lt).hwPend) new then
    let prev := match (s.slice lt).newMask with
      | some (_, ways) => ways
      | none => 0
    let ways := prev ||| (cur ^^^ new)
    let s := s.setReg d u LLC_WAY_DIS [] (setField r 32 16 (field r 32 16 ||| ways))
    s.setSlice lt { s.slice lt with newMask := some (new, ways) }
  else s.setFld d u LLC_STATUS [] LLC_STATUS_REFUSED 1

/-- R300: the flush of a mask change ends, unless a blocked line is still to go: the ways allocate under the new mask and MASK_DONE is
set. -/
def State.maskDone (s : State) (lt : Nat) : State :=
  let d := ltDie lt; let u := llcUnit lt
  match (s.slice lt).newMask with
  | none => s
  | some (new, ways) =>
    let s := s.llcFlushKeys lt (((s.slice lt).lines.map (·.1)).filter (fun k => natBit ways (k % 16)))
    if (s.slice lt).lines.any (fun p => natBit ways (p.1 % 16)) then s
    else
      let r := s.reg d u LLC_WAY_DIS []
      let falling := (field r 0 16 ||| (s.slice lt).hwPend)
      let keep := (List.range 16).foldl (fun (acc : Nat) w =>
        if natBit (field r 32 16) w && (!natBit ways w || natBit falling w) then acc + 2 ^ w else acc) 0
      let s := s.setReg d u LLC_WAY_DIS [] (setField r 32 16 keep)
      let s := s.setSlice lt { s.slice lt with newMask := none }
      let s := (s.setFld d u LLC_WALLED_WAYS [] LLC_WALLED_WAYS_MASK new).setFld d u LLC_STATUS [] LLC_STATUS_MASK_DONE 1
      ((s.llcPendEnd lt).llcResume lt).settle

end Sys2Proof.Machine
end

