-- ==== Sys2Proof/Machine/Crc.lean ====
section
/-! DEFINITION. The cyclic redundancy checks of the spec: the CRC-16 of R381, and a CRC over a list of bits. -/
set_option autoImplicit false
namespace Sys2Proof.Machine

/-- The n bits of a number, the most significant first. -/
def bitsOf (n x : Nat) : List Bool := (List.range n).map (fun i => (x >>> (n - 1 - i)) % 2 == 1)

/-- One bit through a CRC register of a width and polynomial, most significant bit first. -/
def crcBit (width poly r : Nat) (b : Bool) : Nat :=
  let top := xor (r >>> (width - 1) % 2 == 1) b
  let r' := r * 2 % 2 ^ width
  if top then r' ^^^ poly else r'

/-- A CRC over bits, from an initial value. -/
def crcBits (width poly init : Nat) (bits : List Bool) : Nat := bits.foldl (crcBit width poly) init

/-- The CRC-16 with polynomial x^16 + x^12 + x^5 + 1 and initial value 0xFFFF (R381). -/
def crc16 (bits : List Bool) : Nat := crcBits 16 0x1021 0xFFFF bits

/-- One byte through a reflected CRC-32C register, the Castagnoli polynomial bit-reversed. -/
def crc32cByte (r : Nat) (b : Nat) : Nat :=
  (List.range 8).foldl (fun x _ => if x % 2 = 1 then (x / 2) ^^^ 0x82F63B78 else x / 2) (r ^^^ b)

/-- The CRC-32C register after some bytes, without its initial and final inversion. -/
def crc32cRun (r : Nat) (bs : List Nat) : Nat := bs.foldl crc32cByte r

end Sys2Proof.Machine
end

