-- ==== Sys2Proof/Machine/Mesh.lean ====
section
/-! DEFINITION. The mesh (12_mesh_trellis.md): stops and their registers, routing (R371 to R373), the packet check (R381, R382), probes
(R557, R558), injection, and a flit's way out of a stop. -/
set_option autoImplicit false
namespace Sys2Proof.Machine

/-! ## Stops -/

/-- Stop number of the tile stop with a scan index (R14, R368). -/
def scanStop (n : Nat) : Nat := if n < 30 then n / 6 * 8 + n % 6 else 5 * 8 + (n - 29)
/-- Scan index of a tile stop; none for a bridge stop. -/
def stopScan (st : Nat) : Option Nat :=
  let x := st % 8; let y := st / 8
  if x > 5 ∨ y > 5 then none
  else if y < 5 then some (6 * y + x)
  else if x = 0 ∨ x = 5 then none
  else some (29 + x)

/-- Where a stop's registers are. -/
inductive StopLoc where
  | tile (unit : Nat)
  | bridge (unit : Nat)
  | iod (i : Nat)
  /-- A stop of a tile without a die index: no node. -/
  | bare
  deriving DecidableEq, Repr

/-- The node of a stop. -/
def State.stopLoc (s : State) (die st : Nat) : StopLoc :=
  if die < 8 then
    if st = 40 then .bridge 0x040
    else if st = 45 then .bridge 0x041
    else match stopScan st with
      | none => .bare
      | some n =>
        match (List.range 32).find? (fun d => s.scanOf (32 * die + d) == n) with
        | some d => .tile (0x020 + d)
        | none => .bare
  else .iod (4 * (st / 8) + st % 8)

/-- Unit of a stop's node. -/
def StopLoc.unit (l : StopLoc) : Nat :=
  match l with
  | .tile u => u
  | .bridge u => u
  | .iod _ => 0x03B
  | .bare => 0

/-- A register of a stop: the three forms of its definition. -/
def StopLoc.pick (l : StopLoc) (t b i : RegDef) (idx : List Nat) : Option (RegDef × List Nat) :=
  match l with
  | .tile _ => some (t, idx)
  | .bridge _ => some (b, idx)
  | .iod n => some (i, n :: idx)
  | .bare => none

/-- A field of a stop's register; 0 where the stop has no node. -/
def State.stopFld (s : State) (die st : Nat) (t b i : RegDef) (idx : List Nat) (f : RField) : Nat :=
  let l := s.stopLoc die st
  match l.pick t b i idx with
  | some (r, ix) => s.fld die l.unit r ix f
  | none => 0

/-- A field of a stop's register written. -/
def State.stopSet (s : State) (die st : Nat) (t b i : RegDef) (idx : List Nat) (f : RField) (x : Nat) : State :=
  let l := s.stopLoc die st
  match l.pick t b i idx with
  | some (r, ix) => s.setFld die l.unit r ix f x
  | none => s

/-- A count of MESH_ERRCNT increased, saturating. -/
def State.meshErrs (s : State) (die st : Nat) (f : RField) : State :=
  s.stopSet die st MESH_ERRCNT MESH_ERRCNT_B MESH_ERRCNT_I [] f
    (satAdd (s.stopFld die st MESH_ERRCNT MESH_ERRCNT_B MESH_ERRCNT_I [] f) 1 f.n)

/-- MESH_ERRLOG: the first logged flit is kept. -/
def State.meshLog (s : State) (die st port kind : Nat) (h : BitVec 32) : State :=
  let g := fun (s : State) f x => s.stopSet die st MESH_ERRLOG MESH_ERRLOG_B MESH_ERRLOG_I [] f x
  if s.stopFld die st MESH_ERRLOG MESH_ERRLOG_B MESH_ERRLOG_I [] MESH_ERRLOG_VALID ≠ 0 then s
  else g (g (g (g s MESH_ERRLOG_HEADER h.toNat) MESH_ERRLOG_PORT port) MESH_ERRLOG_KIND kind) MESH_ERRLOG_VALID 1

/-- The key of a slot register of a port: its control-space address, or a number of its own where the stop has no node. -/
def State.slotKey (s : State) (die st port n : Nat) : Nat :=
  let l := s.stopLoc die st
  match l.pick MESH_TSLOT MESH_TSLOT_B MESH_TSLOT_I [port, n] with
  | some (r, ix) => regKey die l.unit r ix
  | none => bareSlot + 2 ^ 32 * die + 2 ^ 12 * st + 128 * port + 8 * n
/-- A slot register of a port's schedule (R386). -/
def State.tslot (s : State) (die st port n : Nat) : BitVec 64 :=
  let k := s.slotKey die st port n
  if k < bareSlot then tget s.regs 0 k else tget s.spareTslot 0 k
/-- A slot register as the port uses it: a changed one takes effect at the port's next slot 0 (R388). -/
def State.tslotNow (s : State) (die st port n : Nat) : BitVec 64 :=
  (tfind s.ports.oldSlots (s.slotKey die st port n)).getD (s.tslot die st port n)
/-- A slot register written. -/
def State.setTslot (s : State) (die st port n : Nat) (v : BitVec 64) : State :=
  let k := s.slotKey die st port n
  let s := { s with ports := s.ports.slotChange (k, s.tslot die st port n) }
  if k < bareSlot then { s with regs := tset s.regs 0 k v } else { s with spareTslot := tset s.spareTslot 0 k v }
/-- Whether slot k of a port is reserved. -/
def State.slotUsed (s : State) (die st port k : Nat) : Bool := bitOf (s.tslot die st port (k / 8)) (8 * (k % 8) + 7)
/-- Slot k of a port reserved for a contract. -/
def State.slotTake (s : State) (die st port k con : Nat) : State :=
  s.setTslot die st port (k / 8) (setField (s.tslot die st port (k / 8)) (8 * (k % 8)) 8 (con % 64 + 0x80))

/-! ## Routing -/

/-- The package epoch (R389). -/
def State.epoch (s : State) : Nat := s.fld 8 0x03B MESH_FLIP_STATUS [] MESH_FLIP_STATUS_EPOCH
/-- The stop number of a tile in a bank (R373). -/
def State.tileStop (s : State) (bank lt : Nat) : Nat :=
  s.fld (ltDie lt) 0x040 MESH_TILEMAP [bank, ltIdx lt / 8] (MESH_TILEMAP_STOP (ltIdx lt % 8))
/-- The I/O die between two compute dies (R372). -/
def State.viaIod (s : State) (bank c d : Nat) : Nat := (natBit (s.fld c 0x040 MESH_ROUTE [bank] MESH_ROUTE_VIA) d).toNat

/-- The stop at which a packet leaves a die, and its port, for another die (R372, Table 12-1). -/
def State.exitOf (s : State) (bank die dst : Nat) : Nat × Nat :=
  if die < 8 then
    let io := if dst ≥ 8 then dst - 8 else s.viaIod bank die dst
    (if io = 0 then 40 else 45, 5)
  else if dst ≥ 8 then (3 * 8 + 3, 5)
  else (dst / 2, 5 + dst % 2)

/-- The output port of a stop towards a stop of the same die: x first, then y (R371). -/
def portTo (st target : Nat) : Option Nat :=
  if st % 8 < target % 8 then some 0
  else if st % 8 > target % 8 then some 1
  else if st / 8 < target / 8 then some 2
  else if st / 8 > target / 8 then some 3
  else none

/-- The neighbour of a stop behind a port 0 to 3, and the input port there. -/
def neighbour (st port : Nat) : Nat × Nat :=
  match port with
  | 0 => (st + 1, 1)
  | 1 => (st - 1, 0)
  | 2 => (st + 8, 3)
  | _ => (st - 8, 2)

/-- The output port of a packet at a stop. -/
def State.outPort (s : State) (die st ddie dstop bank : Nat) : Nat :=
  if ddie = die then (portTo st dstop).getD 4
  else
    let (e, p) := s.exitOf bank die ddie
    (portTo st e).getD p

/-- Where a flit goes that leaves an attached link (R372). -/
def linkPeer (die st port : Nat) : Nat × Nat × Nat :=
  if die < 8 then (if st = 40 then 8 else 9, die / 2, 5 + die % 2)
  else if st = 27 then (17 - die, 27, 5)
  else (2 * (st % 8) + (port - 5), if die = 8 then 40 else 45, 5)

/-! ## Flit fields -/

end Sys2Proof.Machine
namespace Sys2Proof

/-- VC of a flit. -/
def Flit.vc (f : Flit) : Nat := f.header.toNat / 2 ^ 10 % 8
/-- KIND of a flit: 0 single, 1 head, 2 body, 3 tail. -/
def Flit.kind (f : Flit) : Nat := f.header.toNat / 2 ^ 16 % 4
/-- EPOCH of a flit. -/
def Flit.epoch (f : Flit) : Nat := f.header.toNat / 2 ^ 14 % 4
/-- WORLD of a flit. -/
def Flit.walled (f : Flit) : Bool := f.header.getLsbD 13
/-- P of a flit. -/
def Flit.p (f : Flit) : Bool := f.header.getLsbD 18
/-- A flit whose four words are poison 0x02 and whose P is set (R380). -/
def Flit.poisoned (f : Flit) : Flit :=
  { header := f.header ||| 0x40000, payload := List.replicate 4 (Word.poison 0x02) }

end Sys2Proof
namespace Sys2Proof.Machine

/-- The 288 bits of a payload, the highest word first. -/
def payBits (ws : List Word) : List Bool :=
  (List.range 4).flatMap (fun i => let w := ws.getD (3 - i) Word.zero; bitsOf 8 w.tag.toNat ++ bitsOf 64 w.val.toNat)

/-- R381: the CRC-16 over a packet. Flits with P = 1 are left out. -/
def packetCrc (fs : List Flit) : Nat :=
  match fs with
  | [] => 0
  | h :: rest =>
    crc16 (bitsOf 13 (h.header.toNat / 2 ^ 19) ++ bitsOf 13 (h.header.toNat % 2 ^ 13) ++
      (payBits h.payload).take 272 ++ rest.flatMap (fun f => if f.p then [] else payBits f.payload))

/-- The CRC field of a head or single flit: payload bits [15:0]. -/
def headCrc (fs : List Flit) : Nat :=
  match fs with
  | [] => 0
  | h :: _ => (h.payload.getD 0 Word.zero).val.toNat % 2 ^ 16

/-! ## Sending -/

/-- A trace entry dropped (R558). -/
def State.traceDrop (s : State) (die st : Nat) : State :=
  s.stopSet die st CNT_TRC_CTL CNT_TRC_CTL CNT_TRC_CTL_I [] CNT_TRC_CTL_DROPS
    (satAdd (s.stopFld die st CNT_TRC_CTL CNT_TRC_CTL CNT_TRC_CTL_I [] CNT_TRC_CTL_DROPS) 1 16)

/-- The entries staged at a stop written. -/
def State.setStaging (s : State) (die st : Nat) (l : List TraceEnt) : State :=
  { s with ports := { s.ports with staging := tset s.ports.staging [] (64 * die + st) l } }

/-- One trace entry of a stop (R557) enters its staging queue of 4 (R558): of the matches of one cycle, probe 0's go first. -/
def State.trace (s : State) (die st port probe : Nat) (h : BitVec 32) : State :=
  let q := tget s.ports.staging [] (64 * die + st)
  if q.length ≥ 4 then s.traceDrop die st
  else
    let later := fun (e : TraceEnt) => e.time == s.time && decide (e.probe > probe)
    let e : TraceEnt := { time := s.time, probe := probe, word := h.toNat + port * 2 ^ 32 + probe * 2 ^ 35 + s.time % 2 ^ 24 * 2 ^ 40 }
    s.setStaging die st (q.filter (fun x => !later x) ++ [e] ++ q.filter later)

/-- R558: a fabric cycle of a stop's trace buffer: the oldest staged entry is stored, or dropped where the buffer has stopped. -/
def State.traceStore (s : State) (die st : Nat) : State :=
  match tget s.ports.staging [] (64 * die + st) with
  | [] => s
  | e :: rest =>
    let s := s.setStaging die st rest
    let g := fun f => s.stopFld die st CNT_TRC_CTL CNT_TRC_CTL CNT_TRC_CTL_I [] f
    let put := fun (s : State) f x => s.stopSet die st CNT_TRC_CTL CNT_TRC_CTL CNT_TRC_CTL_I [] f x
    let ptr := g CNT_TRC_CTL_PTR
    if g CNT_TRC_CTL_FULL ≠ 0 then s.traceDrop die st
    else
      let s := s.stopSet die st CNT_TRC CNT_TRC CNT_TRC_I [ptr] CNT_TRC_ENTRY e.word
      let s := put s CNT_TRC_CTL_PTR ((ptr + 1) % 512)
      if ptr = 511 ∧ g CNT_TRC_CTL_WRAP = 0 then put s CNT_TRC_CTL_FULL 1 else s

/-- A flit leaving a stop examined by its probes (R557). -/
def State.probe (s : State) (die st port : Nat) (f : Flit) : State :=
  foldN 2 (fun s n =>
    let g := fun x => s.stopFld die st CNT_PRB_CTL CNT_PRB_CTL CNT_PRB_CTL_I [n] x
    let m := fun x => s.stopFld die st CNT_PRB_MATCH CNT_PRB_MATCH CNT_PRB_MATCH_I [n] x
    let mask := m CNT_PRB_MATCH_MASK
    let hit : Bool := g CNT_PRB_CTL_EN != 0 && natBit (g CNT_PRB_CTL_PORTS) port && natBit (g CNT_PRB_CTL_VCMASK) f.vc &&
      decide (f.header.toNat &&& mask = m CNT_PRB_MATCH_VALUE &&& mask) &&
      (g CNT_PRB_CTL_HEADS == 0 || decide (f.kind < 2)) && (!f.walled || g CNT_PRB_CTL_WALLED != 0)
    if !hit then s
    else
      let c := s.stopFld die st CNT_PRB_CNT CNT_PRB_CNT CNT_PRB_CNT_I [n] CNT_PRB_CNT_COUNT
      let s := s.stopSet die st CNT_PRB_CNT CNT_PRB_CNT CNT_PRB_CNT_I [n] CNT_PRB_CNT_COUNT ((c + 1) % 2 ^ 48)
      if g CNT_PRB_CTL_TRACE ≠ 0 then s.trace die st port n f.header else s) s

/-- Flits counted at the stop they leave (Table 18-4). -/
def State.flitCount (s : State) (die st port : Nat) (f : Flit) : State :=
  match s.stopLoc die st with
  | .tile u =>
    let s := s.count die u cntLlc 5 1 f.walled
    if f.vc = 4 then s.count die u cntLlc 6 1 f.walled else s
  | .iod _ =>
    let s := s.count die 0x03B cntIod 1 1 f.walled
    if st = 27 ∧ port = 5 then s.count die 0x03B cntIod 3 1 f.walled else s
  | .bridge _ => s
  | .bare => s

/-- The injection of a stop on a flit of a port and channel (Table 20-4): the action of one whose target is among those given. -/
def State.flitInject (s : State) (die st port : Nat) (f : Flit) (lo hi : Nat) : Option (Nat × Nat) × State :=
  let l := s.stopLoc die st
  if l = .bare then (none, s)
  else
    let p := fun x => s.fld die l.unit ERB_INJ_PARAM [] x
    let t := s.fld die l.unit ERB_INJ_CTL [] ERB_INJ_CTL_TARGET
    if p ERB_INJ_PARAM_PORT ≠ port ∨ p ERB_INJ_PARAM_VC ≠ f.vc ∨ !within lo t hi then (none, s)
    else
      match s.inject die l.unit t f.walled with
      | (some a, s) => (some (t, a), s)
      | (none, s) => (none, s)

/-- Errors that an injection of target 0x9 puts in a flit (Table 20-4). -/
def flipErrors (x : Option (Nat × Nat)) : Nat :=
  match x with
  | some (9, a) => a
  | _ => 0

/-- The output port of a flit at a stop, by the bank of its epoch (R389). -/
def State.flitOut (s : State) (die st : Nat) (f : Flit) : Nat :=
  s.outPort die st (f.header.toNat % 16) (f.header.toNat / 16 % 64) (f.epoch % 2)

/-- The far end of an output port: die, stop and input port. -/
def portPeer (die st port : Nat) : Nat × Nat × Nat :=
  if port < 4 then (die, (neighbour st port).1, (neighbour st port).2) else linkPeer die st port

/-- A flit leaves a stop: on to the next stop, or to the stop's own agents on port 4 (R371 to R373), with `e` errors that an injection put
in it. `late` names the contract of a timed flit that leaves after its slot (R383). -/
def State.flitSend (s : State) (die st : Nat) (f : Flit) (late : Option Nat) (e : Nat) : State :=
  let port := s.flitOut die st f
  let s := ((s.probe die st port f).flitCount die st port f)
  let s := match late with
    | some n => s.conError n .late
    | none => s
  if port = 4 then
    let key := 2 ^ 20 * die + 2 ^ 12 * st + f.vc
    let fs := tget s.meshRx [] key ++ [f]
    if f.kind = 1 ∨ f.kind = 2 then { s with meshRx := tset s.meshRx [] key fs }
    else
      let s := { s with meshRx := terase s.meshRx key }
      if packetCrc fs = headCrc fs then { s with delivered := s.delivered ++ [(die, st, fs)] }
      else
        let s := s.meshErrs die st MESH_ERRCNT_CRC_FAIL
        let l := s.stopLoc die st
        if fs.length > 1 then
          let s := s.meshLog die st 4 3 f.header
          let s := s.err die l.unit { ErrRec.mk1 3 0x4B 4 0 with walled := f.walled, poison := 2 }
          let poison := fun (w : Word) => if w.isPoison then w else Word.poison 0x02
          let fs' := match fs with
            | [] => []
            | h :: r => h :: r.map (fun g => { g with payload := g.payload.map poison })
          { s with delivered := s.delivered ++ [(die, st, fs')] }
        else (s.meshLog die st 4 4 f.header).fatal die l.unit 2 4 0
  else
    let (d, t, ip) := portPeer die st port
    { s with flits := s.flits ++ [{ die := d, stop := t, port := ip, flit := f, err := e, inj := decide (e ≠ 0), tries := 0 }] }

end Sys2Proof.Machine
end

