-- ==== Sys2Proof/Machine/MeshPorts.lean ====
section
/-! DEFINITION. The ports of the mesh stops (12_mesh_trellis.md): input buffers and credits (R375), the choice of an output port in each
cycle (R385, R386), the receipt, check and replay of flits (R379, R380, R389), route banks (R390) and flips (R391). -/
set_option autoImplicit false
namespace Sys2Proof.Machine

/-! ## Buffers -/

/-- The key of a stop's port. -/
def portKey (die st port : Nat) : Nat := 2 ^ 16 * die + 2 ^ 8 * st + port
/-- The key of a channel of a stop's port. -/
def chanKey (die st port vc : Nat) : Nat := 4096 * die + 64 * st + 8 * port + vc

/-- Flits that a channel's buffer holds (Table 12-4). -/
def bufDepth (vc : Nat) : Nat := [4, 4, 4, 10, 6, 2].getD vc 0

/-- The flits in an input buffer, oldest first. -/
def State.bufOf (s : State) (die st port vc : Nat) : List FlitWait := tget s.ports.buf [] (chanKey die st port vc)
/-- An input buffer written. -/
def State.setBuf (s : State) (die st port vc : Nat) (l : List FlitWait) : State :=
  { s with ports := { s.ports with buf := tset s.ports.buf [] (chanKey die st port vc) l } }

/-- R375: whether a credit is left for an input buffer: its flits, those on their way to it and a credit withheld by injection (Table 20-4)
leave room. -/
def State.bufRoom (s : State) (die st port vc : Nat) : Bool :=
  let coming := (s.flits ++ s.flitFails.map (fun p => p.2)).filter (fun x => x.die == die && x.stop == st && x.port == port && x.flit.vc == vc)
  let withheld : Nat := if s.time < tget s.ports.starve 0 (chanKey die st port vc) then 1 else 0
  decide ((s.bufOf die st port vc).length + coming.length + withheld < bufDepth vc)

/-- A checked flit taken into its input buffer. -/
def State.flitEnter (s : State) (die st port : Nat) (f : Flit) (late : Option Nat) : State :=
  s.setBuf die st port f.vc (s.bufOf die st port f.vc ++ [{ flit := f, late := late, due := 0 }])

/-! ## The choice of an output port -/

/-- The turn of a channel at an output port. -/
def State.turnOf (s : State) (die st out vc : Nat) : PortTurn := tget s.ports.turns PortTurn.reset (chanKey die st out vc)

/-- The slot of a die's ports in the present cycle (R386). A fabric cycle lasts as long as a tick (DESIGN CHOICE, entry 99). -/
def State.slotNow (s : State) (die : Nat) : Nat := (s.time - tget s.ports.base 0 die) % 128

/-- The slot counts of a die restart at slot 0 (R386). -/
def State.slotRestart (s : State) (die : Nat) : State :=
  { s with ports := { s.ports with base := tset s.ports.base 0 die s.time } }

/-- Whether slot k of a port belongs to a contract (R386). -/
def State.slotOwn (s : State) (die st out con k : Nat) : Bool :=
  field (s.tslotNow die st out (k % 128 / 8)) (8 * (k % 8)) 8 == con + 0x80

/-- The contract of a timed flit: a head's by its payload, whose layout the spec does not give; a later flit's that of the packet which has
the turn. -/
def State.timedCon (s : State) (die st out : Nat) (f : Flit) : Nat :=
  if f.kind < 2 then Sys2Proof.Config.timedContract f.payload % 64 else (s.turnOf die st out 4).con

/-- Whether a timed flit may leave in the present slot: a head at the start of a run of its contract that takes the whole packet, a later
flit in any slot of its contract (R386). -/
def State.slotFits (s : State) (die st out : Nat) (f : Flit) : Bool :=
  let con := s.timedCon die st out f
  let n := if f.kind = 1 then f.header.toNat / 2 ^ 19 % 8 + 1 else 1
  (List.range n).all (fun j => s.slotOwn die st out con (s.slotNow die + j))

/-- Whether the contract of a timed flit has a slot at a port at all. -/
def State.slotSome (s : State) (die st out : Nat) (f : Flit) : Bool :=
  (List.range 128).any (fun k => s.slotOwn die st out (s.timedCon die st out f) k)

/-- The flit that an input port offers on a channel to an output port in this cycle: the oldest of its buffer, when it goes there, a credit is
left for it, and no other input port's packet has the channel's turn. -/
def State.offer (s : State) (die st out vc ip : Nat) : Option Flit :=
  match s.bufOf die st ip vc with
  | [] => none
  | w :: _ =>
    let peer := portPeer die st out
    let mine : Bool := match (s.turnOf die st out vc).turn with
      | some p => p == ip
      | none => true
    if mine && decide (w.due ≤ s.time) && s.flitOut die st w.flit == out && (out == 4 || s.bufRoom peer.1 peer.2.1 peer.2.2 vc) then
      some w.flit
    else none

/-- R385: the input port whose flit a channel sends, by its round-robin pointer, among those whose flit is as asked. -/
def State.offerPick (s : State) (die st out vc : Nat) (ok : Flit → Bool) : Option (Nat × Nat) :=
  let next := (s.turnOf die st out vc).next
  (((List.range 7).map (fun k => (next + k) % 7)).find? (fun ip => (s.offer die st out vc ip).any ok)).map (fun ip => (vc, ip))

/-- R385: the channel and input port that an output port serves in this cycle: a timed flit whose contract owns the slot, then control,
response, data, snoop, request, then a timed flit without a slot at this port. -/
def State.portPick (s : State) (die st out : Nat) : Option (Nat × Nat) :=
  let any := fun vc => s.offerPick die st out vc (fun _ => true)
  (s.offerPick die st out 4 (s.slotFits die st out)) <|> any 5 <|> any 2 <|> any 3 <|> any 1 <|> any 0 <|>
    s.offerPick die st out 4 (fun f => !s.slotSome die st out f)

/-- The turn of a channel after a flit of an input port has won: the pointer passes the winner, and a packet that has started keeps the
channel's turn (R385). -/
def State.turnTake (s : State) (die st out vc ip : Nat) (f : Flit) : State :=
  let t : PortTurn := { next := (ip + 1) % 7, turn := if f.kind = 1 ∨ f.kind = 2 then some ip else none,
                        con := if vc = 4 then s.timedCon die st out f else 0 }
  { s with ports := { s.ports with turns := tset s.ports.turns PortTurn.reset (chanKey die st out vc) t } }

/-- CYCLES of a stop's injection. -/
def State.injCycles (s : State) (die st : Nat) : Nat := s.fld die (s.stopLoc die st).unit ERB_INJ_PARAM [] ERB_INJ_PARAM_CYCLES

/-- The winner of an output port leaves. An injected delay puts it behind the flits of its port and channel instead, for CYCLES cycles; an
injected starvation withholds the credit of the place that it leaves (Table 20-4). -/
def State.portServe (s : State) (die st out vc ip : Nat) : State :=
  match s.bufOf die st ip vc with
  | [] => s
  | w :: rest =>
    let (e, s) := s.flitInject die st out w.flit 9 10
    match e with
    | some (10, _) => s.setBuf die st ip vc (rest ++ [{ w with due := s.time + s.injCycles die st }])
    | _ =>
      let s := (s.turnTake die st out vc ip w.flit).setBuf die st ip vc rest
      let (g, s) := s.flitInject die st ip w.flit 11 11
      let s := if g.isSome then
          { s with ports := { s.ports with starve := tput s.ports.starve (chanKey die st ip vc) (s.time + s.injCycles die st) } }
        else s
      s.flitSend die st w.flit w.late (flipErrors e)

/-- The stops with flits in their buffers, as 64 × die + stop. -/
def State.busyStops (s : State) : List Nat := (s.ports.buf.map (fun p => p.1 / 64)).eraseDups

/-- Changed slots take effect at slot 0 of their die (R388). -/
def State.slotTurn (s : State) : State :=
  { s with ports := { s.ports with oldSlots := s.ports.oldSlots.filter (fun p => s.slotNow (p.1 / 2 ^ 32 % 2 ^ 16) != 0) } }

/-- R385, R558: a fabric cycle: each trace buffer stores one entry, and each output port with a flit to send sends one. -/
def State.meshCycle (s : State) : State :=
  let s := s.ports.staging.foldl (fun (s : State) p => s.traceStore (p.1 / 64) (p.1 % 64)) s.slotTurn
  let picks := s.busyStops.flatMap (fun x => (List.range 7).filterMap (fun out => (s.portPick (x / 64) (x % 64) out).map (fun p => (x, out, p))))
  picks.foldl (fun (s : State) p => s.portServe (p.1 / 64) (p.1 % 64) p.2.1 p.2.2.1 p.2.2.2) s

/-! ## Receipt -/

/-- R379, R380: a flit at a stop's input whose check found `err` errors (0, 1 or more): taken into its buffer, corrected and taken, or
held for a replay; after two replays poisoned or lost. -/
def State.flitCheck (s : State) (x : FlitAt) (err : Nat) (late : Option Nat) : State :=
  let l := s.stopLoc x.die x.stop
  let bridge : Bool := decide (x.port ≥ 5)
  let s := if bridge ∧ x.die ≥ 8 then s.count x.die 0x03B cntIod 2 1 x.flit.walled else s
  if err = 0 then s.flitEnter x.die x.stop x.port x.flit late
  else if err = 1 then
    ((s.meshErrs x.die x.stop MESH_ERRCNT_CORR).errCorrected x.die l.unit x.port 0).flitEnter x.die x.stop x.port x.flit late
  else if x.tries < 2 then
    let s := (s.meshErrs x.die x.stop MESH_ERRCNT_REPLAY).errCorrected x.die l.unit x.port 0
    { s with flitFails := tput s.flitFails (portKey x.die x.stop x.port) { x with err := 0, tries := x.tries + 1 } }
  else if x.flit.kind ≥ 2 then
    let s := (s.meshErrs x.die x.stop MESH_ERRCNT_POISONED).meshLog x.die x.stop x.port 1 x.flit.header
    let s := s.err x.die l.unit { ErrRec.mk1 3 0x49 x.port 0 with walled := x.flit.walled, inj := x.inj, poison := 2 }
    s.flitEnter x.die x.stop x.port x.flit.poisoned late
  else (s.meshLog x.die x.stop x.port 2 x.flit.header).fatal x.die l.unit 1 x.port 0

/-- Whether a port's own agents may not inject a flit: injection is off (R393), or a flip holds it (R391), or the channel's buffer is full
(R375). -/
def State.injectBar (s : State) (die st port : Nat) (f : Flit) : Bool :=
  port == 4 && (!s.injEn || (s.flip == .hold && f.vc != 4 && decide (f.kind < 2)) || !s.bufRoom die st port f.vc)

/-- R379, R389: a stop receives a flit on a port: the oldest one on its way there, or one that agents inject or a neighbour sends with this
command. While the link awaits a replay, nothing else is taken from it (R379). -/
def State.flitReceive (s : State) (die st port : Nat) (f : Flit) (err : Nat) (late : Option Nat) : State :=
  let link := s.flits.filter (fun x => x.die == die && x.stop == st && x.port == port)
  let fresh : FlitAt := { die := die, stop := st, port := port, flit := f, err := 0, inj := false, tries := 0 }
  let x := (link.find? (fun x => x.flit == f)).getD fresh
  let behind : Bool := x != fresh && (link.head?.map (fun y => y.flit)) != some f
  let s' := { s with flits := s.flits.erase x }
  if behind ∨ (tfind s.flitFails (portKey die st port)).isSome then s
  else if x = fresh ∧ s.injectBar die st port f then s
  else if (f.epoch + 4 - s.epoch) % 4 = 2 then
    let l := s.stopLoc die st
    ((s'.meshErrs die st MESH_ERRCNT_STALE).meshLog die st port 5 f.header).fatal die l.unit 3 port 0
  else s'.flitCheck x (max err x.err) late

/-- R379: the sending port replays a failed flit. -/
def State.flitReplay (s : State) (die st port err : Nat) (late : Option Nat) : State :=
  let key := portKey die st port
  match tfind s.flitFails key with
  | none => s
  | some x =>
    let s := { s with flitFails := terase s.flitFails key }
    let up := portPeer die st port
    let (e, s) := if port = 4 then (none, s) else s.flitInject up.1 up.2.1 up.2.2 x.flit 9 9
    s.flitCheck { x with inj := x.inj || decide (flipErrors e ≠ 0) } (max err (flipErrors e)) late

/-! ## Route banks and flips -/

/-- R390: whether a write to a bank of a compute die is accepted. -/
def State.bankOpen (s : State) (bank : Nat) : Bool :=
  !s.injEn || (bank != s.epoch % 2 && s.fld 8 0x03B MESH_FLIP_STATUS [] MESH_FLIP_STATUS_BUSY == 0)

/-- The bits of a route or tile-map register that are not reserved (R7). -/
def bankMask (r : RegDef) : BitVec 64 := if r.id = MESH_ROUTE.id then 0xFF else 0x3F3F3F3F3F3F3F3F

/-- A write to a route or tile-map register of a bank (R390). -/
def State.writeBank (s : State) (die bank : Nat) (r : RegDef) (idx : List Nat) (v : BitVec 64) : State :=
  if s.bankOpen bank then s.setReg die 0x040 r idx (v &&& bankMask r)
  else s.setFld die 0x040 MESH_DIE_STATUS [] MESH_DIE_STATUS_REFUSED 1

/-- CHECK of MESH_DIE_STATUS: the CRC-16 of a bank's registers in register order. -/
def State.bankCrc (s : State) (die bank : Nat) : Nat :=
  crc16 (bitsOf 64 (s.reg die 0x040 MESH_ROUTE [bank]).toNat ++
    (List.range 4).flatMap (fun n => bitsOf 64 (s.reg die 0x040 MESH_TILEMAP [bank, n]).toNat))

/-- Every flit that a stop or a link holds: those on their way to a stop, those that await a replay, those in the stops' buffers. -/
def State.meshFlits (s : State) : List FlitAt :=
  s.flits ++ s.flitFails.map (fun p => p.2) ++ s.ports.buf.flatMap (fun p => p.2.map (fun w =>
    ({ die := p.1 / 4096, stop := p.1 / 64 % 64, port := p.1 / 8 % 8, flit := w.flit, err := 0, inj := false, tries := 0 } : FlitAt)))

/-- Flits in the package on the channels that a flip holds. -/
def State.heldFlits (s : State) : List FlitAt := s.meshFlits.filter (fun x => x.flit.vc != 4)

/-- Flits of another epoch in a stop's buffers and on the links that leave it (MESH_STATUS.PREV_FLITS). -/
def State.prevFlits (s : State) (die st : Nat) : Nat :=
  let old := fun (f : Flit) => f.epoch != s.epoch
  let from_ := fun (x : FlitAt) => let up := portPeer x.die x.stop x.port; x.port != 4 && up.1 == die && up.2.1 == st
  ((s.flits ++ s.flitFails.map (fun p => p.2)).filter (fun x => old x.flit && from_ x)).length +
    (s.ports.buf.filter (fun p => p.1 / 64 == 64 * die + st)).foldl (fun (n : Nat) p => n + (p.2.filter (fun w => old w.flit)).length) 0

/-- A field of MESH_FLIP_STATUS written. -/
def State.setFlip (s : State) (f : RField) (x : Nat) : State := s.setFld 8 0x03B MESH_FLIP_STATUS [] f x

/-- R391: the held channels have drained: every stop flips and injection resumes. -/
def State.flipDrained (s : State) : State :=
  if s.flip = .hold ∧ s.heldFlits = [] then
    { s.setFlip MESH_FLIP_STATUS_EPOCH ((s.epoch + 1) % 4) with flip := .flipped }
  else s

/-- R391: the drain limit passes. -/
def State.flipTimeout (s : State) : State :=
  if s.flip = .hold then
    { (s.setFlip MESH_FLIP_STATUS_TIMEOUT 1).setFlip MESH_FLIP_STATUS_BUSY 0 with flip := .none }
  else s

/-- R391: no flit of the old epoch is left. -/
def State.flipDone (s : State) : State :=
  if s.flip = .flipped ∧ s.meshFlits.all (fun x => x.flit.epoch == s.epoch) then
    let s := (s.setFlip MESH_FLIP_STATUS_BUSY 0).setFlip MESH_FLIP_STATUS_DONE 1
    { s.setFlip MESH_FLIP_STATUS_FLIPS (satAdd (s.fld 8 0x03B MESH_FLIP_STATUS [] MESH_FLIP_STATUS_FLIPS) 1 16) with
      flip := .none }
  else s

end Sys2Proof.Machine
end

