-- ==== Sys2Proof/Machine/Flags.lean ====
section
/-! DEFINITION. Integer arithmetic of class 0x1 to 0x4: results, the overflow and zero-divisor conditions of Table 4-8,
the fixed results of Table 4-9, the condition codes of Table 4-12 and the bit-field operations of R117. -/
set_option autoImplicit false
namespace Sys2Proof.Machine

/-- A signed value representable in n bits. -/
def fitsS (n : Nat) (x : Int) : Bool := decide (-(2 : Int) ^ (n - 1) ≤ x) && decide (x < (2 : Int) ^ (n - 1))

/-- The signed value of the low 32 bits. -/
def s32 (x : BitVec 64) : Int := (x.setWidth 32).toInt

/-- Overflow of ADD (Table 4-8): with a pointer result, the pointer bits [57:0] plus the signed data operand outside 0 to
2^58 - 1; otherwise the signed sum not representable. -/
def addOvf (a b : Word) : Bool :=
  let ptrOvf (p d : BitVec 64) : Bool :=
    let r : Int := ((p.toNat % 2 ^ 58 : Nat) : Int) + d.toInt
    decide (r < 0) || decide ((2 : Int) ^ 58 ≤ r)
  if a.isPointer ∧ b.cls = .data then ptrOvf a.val b.val
  else if a.cls = .data ∧ b.isPointer then ptrOvf b.val a.val
  else !fitsS 64 (a.val.toInt + b.val.toInt)

/-- Overflow of SUB. -/
def subOvf (a b : Word) : Bool := !fitsS 64 (a.val.toInt - b.val.toInt)
/-- Overflow of ADDW. -/
def addwOvf (a b : Word) : Bool := !fitsS 32 (s32 a.val + s32 b.val)
/-- Overflow of SUBW. -/
def subwOvf (a b : Word) : Bool := !fitsS 32 (s32 a.val - s32 b.val)
/-- Overflow of MUL. -/
def mulOvf (a b : Word) : Bool := !fitsS 64 (a.val.toInt * b.val.toInt)
/-- Overflow of MULW. -/
def mulwOvf (a b : Word) : Bool := !fitsS 32 (s32 a.val * s32 b.val)
/-- Overflow of DIV: a = -2^63 and b = -1. -/
def divOvf (a b : Word) : Bool := a.val == 0x8000000000000000 && b.val == 0xFFFFFFFFFFFFFFFF

/-- MULH: high 64 bits of the signed product. -/
def mulh (a b : BitVec 64) : BitVec 64 := BitVec.ofInt 64 ((a.toInt * b.toInt) / (2 : Int) ^ 64)
/-- MULHU: high 64 bits of the unsigned product. -/
def mulhu (a b : BitVec 64) : BitVec 64 := v64 (a.toNat * b.toNat / 2 ^ 64)
/-- MULHSU: high 64 bits of signed a times unsigned b. -/
def mulhsu (a b : BitVec 64) : BitVec 64 := BitVec.ofInt 64 ((a.toInt * (b.toNat : Int)) / (2 : Int) ^ 64)

/-- Signed quotient rounded towards zero, with the results of Table 4-9. -/
def divS (a b : BitVec 64) : BitVec 64 :=
  if b = 0 then 0xFFFFFFFFFFFFFFFF else BitVec.ofInt 64 (a.toInt.tdiv b.toInt)
/-- Unsigned quotient (Table 4-9 for b = 0). -/
def divU (a b : BitVec 64) : BitVec 64 := if b = 0 then 0xFFFFFFFFFFFFFFFF else v64 (a.toNat / b.toNat)
/-- Signed remainder with the sign of a (Table 4-9). -/
def remS (a b : BitVec 64) : BitVec 64 := if b = 0 then a else BitVec.ofInt 64 (a.toInt.tmod b.toInt)
/-- Unsigned remainder (Table 4-9 for b = 0). -/
def remU (a b : BitVec 64) : BitVec 64 := if b = 0 then a else v64 (a.toNat % b.toNat)

/-- Signed minimum. -/
def minS (a b : BitVec 64) : BitVec 64 := if a.slt b then a else b
/-- Signed maximum. -/
def maxS (a b : BitVec 64) : BitVec 64 := if a.slt b then b else a
/-- Unsigned minimum. -/
def minU (a b : BitVec 64) : BitVec 64 := if a.ult b then a else b
/-- Unsigned maximum. -/
def maxU (a b : BitVec 64) : BitVec 64 := if a.ult b then b else a

/-- Number of bits of x below 2^64, for the leading zero count. -/
def bitLen (fuel x : Nat) : Nat :=
  match fuel with
  | 0 => 0
  | f + 1 => if x = 0 then 0 else 1 + bitLen f (x / 2)

/-- Leading zero count, 64 for 0. -/
def clz64 (a : BitVec 64) : BitVec 64 := v64 (64 - bitLen 64 a.toNat)

/-- Trailing zeros of x within fuel bits. -/
def ctzN (fuel x : Nat) : Nat :=
  match fuel with
  | 0 => 0
  | f + 1 => if x % 2 = 1 then 0 else 1 + ctzN f (x / 2)

/-- Trailing zero count, 64 for 0. -/
def ctz64 (a : BitVec 64) : BitVec 64 := v64 (ctzN 64 a.toNat)

/-- 1 bits of x within fuel bits. -/
def popN (fuel x : Nat) : Nat :=
  match fuel with
  | 0 => 0
  | f + 1 => x % 2 + popN f (x / 2)

/-- Number of 1 bits. -/
def pop64 (a : BitVec 64) : BitVec 64 := v64 (popN 64 a.toNat)

/-- The eight bytes in reverse order. -/
def rev64 (a : BitVec 64) : BitVec 64 :=
  v64 (foldN 8 (fun acc i => acc + (a.toNat >>> (8 * i)) % 256 * 2 ^ (56 - 8 * i)) 0)

/-- Shift left by n below 64. -/
def shl64 (a : BitVec 64) (n : Nat) : BitVec 64 := a <<< n
/-- Logical shift right. -/
def shr64 (a : BitVec 64) (n : Nat) : BitVec 64 := a >>> n
/-- Arithmetic shift right. -/
def sra64 (a : BitVec 64) (n : Nat) : BitVec 64 := a.sshiftRight n
/-- Rotate right by n below 64. -/
def ror64 (a : BitVec 64) (n : Nat) : BitVec 64 := a.rotateRight n
/-- 32-bit shift left, sign-extended. -/
def shlw (a : BitVec 64) (n : Nat) : BitVec 64 := ((a.setWidth 32) <<< n).signExtend 64
/-- 32-bit logical shift right, sign-extended. -/
def shrw (a : BitVec 64) (n : Nat) : BitVec 64 := ((a.setWidth 32) >>> n).signExtend 64
/-- 32-bit arithmetic shift right, sign-extended. -/
def sraw (a : BitVec 64) (n : Nat) : BitVec 64 := ((a.setWidth 32).sshiftRight n).signExtend 64

/-- len of EXT, EXTS and INS, cut at the top of the word (R117). -/
def effLen (pos len : Nat) : Nat := min len (64 - pos)
/-- EXT (R117). -/
def extU (a : BitVec 64) (pos len : Nat) : BitVec 64 := v64 ((a.toNat >>> pos) % 2 ^ effLen pos len)
/-- EXTS (R117). -/
def extS (a : BitVec 64) (pos len : Nat) : BitVec 64 := sextN (a >>> pos) (effLen pos len)
/-- INS (R117): d with the field replaced by the low bits of a. -/
def insB (d a : BitVec 64) (pos len : Nat) : BitVec 64 :=
  let mask : BitVec 64 := v64 ((2 ^ effLen pos len - 1) <<< pos)
  (d &&& ~~~ mask) ||| ((a <<< pos) &&& mask)

/-- MOVK (Table 4-10): bits [16k+15:16k] replaced. -/
def movk (d : BitVec 64) (k imm16 : Nat) : BitVec 64 := setField d (16 * k) 16 imm16

/-- The condition codes of Table 4-12. -/
def condHolds (cc : BitVec 3) (a b : BitVec 64) : Bool :=
  match cc.toNat with
  | 0 => a == b
  | 1 => a != b
  | 2 => a.slt b
  | 3 => !a.slt b
  | 4 => a.ult b
  | 5 => !a.ult b
  | 6 => (a &&& b) != 0
  | _ => (a &&& b) == 0

end Sys2Proof.Machine
end

