-- ==== Sys2Proof/Machine/Alu.lean ====
section
/-! DEFINITION. The shared core-only operations of classes 0x1 to 0x5: field rules (R102), operand reads, poison (R60),
result class (Table 3-4), exceptions in the order of Table 4-6, the destination write and the PC. -/
set_option autoImplicit false
namespace Sys2Proof.Machine

/-- The core after an instruction that writes gd and falls through. -/
def Core.finish (c : Core) (rd : BitVec 5) (w : Word) : Core := (c.setG rd w).advance

/-- Class 0x1 (R109, R110): MOD[6:1] must be 0, MOD[0] is the O bit where allowed, a unary operation has RB = 0. `trap`
gives the exception of Table 4-8 with O = 1. -/
def aluR (o : ROp) (allowO unary : Bool) (trap : Word → Word → Option Exc) (res : Word → Word → Word) (c : Core) : CoreRes :=
  let a := c.getG o.ra
  let b := c.getG o.rb
  if o.md.toNat ≥ 2 ∨ (o.md = 1 ∧ !allowO) ∨ (unary ∧ o.rb ≠ 0) then .error .illegal
  else match firstPoison [a, b] with
    | some code => .ok (c.finish o.rd (Word.poison code))
    | none =>
      match (if o.md = 1 then trap a b else none) with
      | some e => .error e
      | none => .ok (c.finish o.rd (res a b))

/-- A class 0x1 operation on values with data result and no O bit. -/
def aluV (o : ROp) (f : BitVec 64 → BitVec 64 → BitVec 64) (c : Core) : CoreRes :=
  aluR o false false (fun _ _ => none) (fun a b => Word.data (f a.val b.val)) c

/-- A unary class 0x1 operation on a value. -/
def aluU (o : ROp) (f : BitVec 64 → BitVec 64) (c : Core) : CoreRes :=
  aluR o false true (fun _ _ => none) (fun a _ => Word.data (f a.val)) c

/-- A class 0x1 operation with an O bit that traps on integer-overflow. -/
def aluO (o : ROp) (ovf : Word → Word → Bool) (res : Word → Word → Word) (c : Core) : CoreRes :=
  aluR o true false (fun a b => if ovf a b then some Exc.overflow else none) res c

/-- DIV, DIVU, REM, REMU: with O = 1 integer-overflow (DIV only) outranks divide-by-zero (Table 4-6, Table 4-8). -/
def aluD (o : ROp) (ovf : Word → Word → Bool) (f : BitVec 64 → BitVec 64 → BitVec 64) (c : Core) : CoreRes :=
  aluR o true false
    (fun a b => if ovf a b then some Exc.overflow else if b.val = 0 then some Exc.divZero else none)
    (fun a b => Word.data (f a.val b.val)) c

/-- An I12 operation of class 0x2 on ga and the sign-extended immediate (R113, R114). -/
def immI (o : IOp) (res : Word → BitVec 64 → Word) (c : Core) : CoreRes :=
  let a := c.getG o.ra
  .ok (c.finish o.rd (withPoison [a] (res a (simm12 o.imm))))

/-- A class 0x3 register shift (R115, R116): MOD must be 0. -/
def shiftR (o : ROp) (f : BitVec 64 → Nat → BitVec 64) (n : BitVec 64 → Nat) (c : Core) : CoreRes :=
  let a := c.getG o.ra
  let b := c.getG o.rb
  if o.md ≠ 0 then .error .illegal
  else .ok (c.finish o.rd (withPoison [a, b] (Word.data (f a.val (n b.val)))))

/-- A class 0x3 immediate shift: RB must be 0 and the amount lies in the low `bits` of MOD (R115). -/
def shiftI (o : ROp) (bits : Nat) (f : BitVec 64 → Nat → BitVec 64) (c : Core) : CoreRes :=
  let a := c.getG o.ra
  if o.rb ≠ 0 ∨ o.md.toNat ≥ 2 ^ bits then .error .illegal
  else .ok (c.finish o.rd (withPoison [a] (Word.data (f a.val o.md.toNat))))

/-- pos of a bit-field instruction, IMM12[11:6] (R117). -/
def bfPos (o : IOp) : Nat := o.imm.toNat / 64
/-- len of a bit-field instruction, IMM12[5:0] + 1 (R117). -/
def bfLen (o : IOp) : Nat := o.imm.toNat % 64 + 1

/-- EXT and EXTS. -/
def extOp (o : IOp) (f : BitVec 64 → Nat → Nat → BitVec 64) (c : Core) : CoreRes :=
  let a := c.getG o.ra
  .ok (c.finish o.rd (withPoison [a] (Word.data (f a.val (bfPos o) (bfLen o)))))

/-- INS reads gd as its further operand, after ga (R115). -/
def insOp (o : IOp) (c : Core) : CoreRes :=
  let a := c.getG o.ra
  let d := c.getG o.rd
  .ok (c.finish o.rd (withPoison [a, d] (Word.data (insB d.val a.val (bfPos o) (bfLen o)))))

/-- CMP.cc (R119, R120): 1 or 0 by the condition; poison operands give poison. -/
def cmpG (cc : BitVec 3) (o : ROp) (c : Core) : CoreRes :=
  let a := c.getG o.ra
  let b := c.getG o.rb
  if o.md ≠ 0 then .error .illegal
  else .ok (c.finish o.rd (withPoison [a, b] (Word.data (if condHolds cc a.val b.val then 1 else 0))))

/-- CMPI.cc. -/
def cmpiG (cc : BitVec 3) (o : IOp) (c : Core) : CoreRes :=
  let a := c.getG o.ra
  .ok (c.finish o.rd (withPoison [a] (Word.data (if condHolds cc a.val (simm12 o.imm) then 1 else 0))))

/-- The low three bits of a field that names a predicate (R101). -/
def pn (r : BitVec 5) : BitVec 3 := r.setWidth 3
/-- Whether a predicate field has its upper bits 0 (R101). -/
def pnOk (r : BitVec 5) : Bool := decide (r.toNat < 8)

/-- The core after a predicate write that falls through. -/
def Core.finishP (c : Core) (n : BitVec 3) (val : BitVec 8) (pz : BitVec 3) : Core := (c.setP n val pz).advance

/-- A predicate compare result (R120). -/
def cmpP (ops : List Word) (b : Bool) (pd : BitVec 3) (c : Core) : Core :=
  match firstPoison ops with
  | some code => c.finishP pd 0 (code.setWidth 3)
  | none => c.finishP pd (if b then 0xFF else 0) 0

/-- CMPP.cc (Table 4-13). -/
def cmppG (cc : BitVec 3) (o : ROp) (c : Core) : CoreRes :=
  let a := c.getG o.ra
  let b := c.getG o.rb
  if o.md ≠ 0 ∨ !pnOk o.rd then .error .illegal
  else .ok (cmpP [a, b] (condHolds cc a.val b.val) (pn o.rd) c)

/-- CMPPI.cc (Table 4-13). -/
def cmppiG (cc : BitVec 3) (o : IOp) (c : Core) : CoreRes :=
  let a := c.getG o.ra
  if !pnOk o.rd then .error .illegal
  else .ok (cmpP [a] (condHolds cc a.val (simm12 o.imm)) (pn o.rd) c)

/-- SEL (R121): pn in MOD[6:4]; a poisoned pn is consumed (R95). -/
def selG (o : ROp) (c : Core) : CoreRes :=
  let n : BitVec 3 := o.md.extractLsb' 4 3
  let a := c.getG o.ra
  let b := c.getG o.rb
  if o.md.toNat % 16 ≠ 0 then .error .illegal
  else if c.getPZ n ≠ 0 then .error (Exc.poison (c.getPZ n).toNat)
  else .ok (c.finish o.rd (withPoison [a, b] (moved c.pl (if (c.getP n).getLsbD 0 then a else b))))

/-- PAND, POR, PXOR, PANDN (R122). -/
def predOp (o : ROp) (f : BitVec 8 → BitVec 8 → BitVec 8) (c : Core) : CoreRes :=
  if o.md ≠ 0 ∨ !pnOk o.rd ∨ !pnOk o.ra ∨ !pnOk o.rb then .error .illegal
  else
    let za := c.getPZ (pn o.ra)
    let zb := c.getPZ (pn o.rb)
    .ok (c.finishP (pn o.rd) (f (c.getP (pn o.ra)) (c.getP (pn o.rb))) (if za ≠ 0 then za else zb))

/-- MOVP (R122): the predicate value, or poison with the code PZ. -/
def movpG (o : ROp) (c : Core) : CoreRes :=
  if o.md ≠ 0 ∨ o.rb ≠ 0 ∨ !pnOk o.ra then .error .illegal
  else
    let z := c.getPZ (pn o.ra)
    .ok (c.finish o.rd (if z ≠ 0 then Word.poison (z.setWidth 6) else Word.data ((c.getP (pn o.ra)).setWidth 64)))

/-- PMOV (R122): a[7:0], or 0x00 with PZ for a poison ga. -/
def pmovG (o : ROp) (c : Core) : CoreRes :=
  let a := c.getG o.ra
  if o.md ≠ 0 ∨ o.rb ≠ 0 ∨ !pnOk o.rd then .error .illegal
  else .ok (if a.isPoison then c.finishP (pn o.rd) 0 (a.aux.setWidth 3) else c.finishP (pn o.rd) (a.val.setWidth 8) 0)

/-- The target of a PC-relative branch: (PC + sext(OFF22) × 4) mod 2^58 (R123). -/
def branchTarget (pc : Nat) (off : BitVec 22) : Nat :=
  let o : Int := off.toInt
  (((pc : Int) + o * 4) % (2 : Int) ^ 58).toNat

/-- BT and BF (R124, Table 4-15): `want` is the value of bit 0 that branches. -/
def condBranch (want : Bool) (n : BitVec 3) (off : BitVec 22) (c : Core) : CoreRes :=
  if c.getPZ n ≠ 0 then .error (Exc.poison (c.getPZ n).toNat)
  else if (c.getP n).getLsbD 0 = want then .ok { c with pc := branchTarget c.pc off }
  else .ok c.advance

/-- JRL and RET (R126, R127, R99): jump to value bits [57:0] of ga; JRL writes the link to gd. -/
def jumpReg (link : Option (BitVec 5)) (ra : BitVec 5) (c : Core) : CoreRes :=
  let a := c.getG ra
  let t := vaLow a.val
  if a.isPoison then .error (Exc.poison (wordCode a))
  else if t % 4 ≠ 0 then .error (Exc.instrAlign (v64 t))
  else match link with
    | some rd => .ok { c.setG rd (Word.data (v64 (pcAdd c.pc 4))) with pc := t }
    | none => .ok { c with pc := t }

end Sys2Proof.Machine
end

