-- ==== Sys2Proof/Machine/Pci.lean ====
section
/-! DEFINITION. PCI functions (R462, R465, R471 to R475): which routing IDs are functions of the package, the reset values and
writable bits of their configuration registers, the addresses they claim, BARs and doorbells. The offsets of the standard
registers are those of PCI Express. -/
set_option autoImplicit false
namespace Sys2Proof.Machine

/-- A function of the package. Root ports are numbered 20 × I/O die + 4 × x16 port + root position, clusters 8 × I/O die +
cluster. -/
inductive Fn where
  | root (rp : Nat)
  | cluster (c : Nat)
  | pf (i : Nat)
  | vf (i v : Nat)
  | none
  deriving DecidableEq, Repr

/-- The boot configuration of the x16 port of a root port. -/
def State.portCfg (s : State) (rp : Nat) : PortCfg := s.bootCfg.ports.getD (rp / 4) PortCfg.none

/-- Table 15-1: whether a root position exists under an option. -/
def rpListed (option r : Nat) : Bool :=
  match option with
  | 0 => r == 0
  | 1 => r == 0 || r == 2
  | 2 => r == 0 || r == 2 || r == 3
  | 3 => r == 0 || r == 1 || r == 2
  | 4 => true
  | _ => false

/-- R462: whether a root port exists. -/
def State.rpExists (s : State) (rp : Nat) : Bool := decide (rp < 40) && rpListed (s.portCfg rp).option (rp % 4)
/-- Whether a root port is a CXL port (R464). -/
def State.rpCxl (s : State) (rp : Nat) : Bool := s.rpExists rp && natBit (s.portCfg rp).cxl (rp % 4)
/-- Whether a root port is marked HP (R487). -/
def State.rpHp (s : State) (rp : Nat) : Bool := s.rpExists rp && natBit (s.portCfg rp).hp (rp % 4)

/-- Routing ID of a root port (Table 15-3). -/
def rpRid (rp : Nat) : Nat := rp / 20 * 0x8000 + rp % 20 * 8
/-- Routing ID of a kiosk cluster. -/
def clRid (c : Nat) : Nat := c / 8 * 0x8000 + 0xC0 + c % 8 * 8
/-- Kiosks of a cluster: numbers 256 + 16 × cluster onwards. -/
def clKiosks (c : Nat) : List Nat := (List.range 16).map (fun j => 256 + 16 * c + j)
/-- Routing ID of the Urn physical function of a half. -/
def pfRid (i : Nat) : Nat := i * 0x8000 + 0xA0
/-- Routing ID of a virtual function. -/
def vfRid (i v : Nat) : Nat := i * 0x8000 + 0x100 + v

/-- A configuration register as it is held, with its reset value. -/
def State.cfgRaw (s : State) (rid d : Nat) (reset : Nat) : BitVec 32 := tget s.io.cfg (BitVec.ofNat 32 reset) (1024 * rid + d)

/-- SR-IOV control of a half: VF Enable and the number of VFs. -/
def State.vfOn (s : State) (i v : Nat) : Bool :=
  (s.cfgRaw (pfRid i) 0x62 0).getLsbD 0 && decide (v < (s.cfgRaw (pfRid i) 0x64 0).toNat % 2 ^ 16)

/-- R465: the function of a routing ID. -/
def State.fnOf (s : State) (rid : Nat) : Fn :=
  let i := rid / 0x8000
  let l := rid % 0x8000
  if l < 0xA0 then (if l % 8 = 0 ∧ s.rpExists (20 * i + l / 8) then .root (20 * i + l / 8) else .none)
  else if l = 0xA0 then .pf i
  else if within 0xC0 l 0xF8 ∧ l % 8 = 0 then .cluster (8 * i + (l - 0xC0) / 8)
  else if within 0x100 l 0x4FF then (if s.vfOn i (l - 0x100) then .vf i (l - 0x100) else .none)
  else .none

/-- Whether a function is integrated. -/
def Fn.integrated (f : Fn) : Bool :=
  match f with
  | .root _ | .none => false
  | .cluster _ | .pf _ | .vf _ _ => true

/-- MSI-X vectors of a function (Table 15-5). -/
def Fn.vectors (f : Fn) : Nat :=
  match f with
  | .root _ => 2
  | .cluster _ => 17
  | .pf _ => 1
  | .vf _ _ => 1
  | .none => 0

/-- Dword of the MSI-X table in its page: VFs have it at 0x800, the others at 0. -/
def Fn.tableAt (f : Fn) : Nat :=
  match f with
  | .vf _ _ => 0x200
  | .root _ | .cluster _ | .pf _ | .none => 0
/-- Dword of the PBA in its page: VFs have it at 0xC00, the others at 0x800. -/
def Fn.pbaAt (f : Fn) : Nat :=
  match f with
  | .vf _ _ => 0x300
  | .root _ | .cluster _ | .pf _ | .none => 0x200

/-- Extended capabilities of a function: offset and capability ID (Table 15-6). -/
def State.extCaps (s : State) (f : Fn) : List (Nat × Nat) :=
  match f with
  | .root rp => [(0x100, 0x01), (0x140, 0x0D), (0x200, 0x23)] ++ (if s.rpCxl rp then [(0x300, 0x23)] else [])
  | .cluster _ => [(0x100, 0x01), (0x150, 0x0F), (0x160, 0x1B), (0x200, 0x23)]
  | .pf _ => [(0x100, 0x01), (0x180, 0x10), (0x1C0, 0x0E), (0x200, 0x23)]
  | .vf _ _ => [(0x100, 0x01), (0x1C0, 0x0E), (0x200, 0x23)]
  | .none => []

/-- Header dword of an extended capability: ID, version 1, and the offset of the next one. -/
def capHeader (caps : List (Nat × Nat)) (off : Nat) : Option Nat :=
  match caps with
  | [] => Option.none
  | (o, id) :: r => if o = off then some (id + 2 ^ 16 + ((r.head?.map (fun x => x.1)).getD 0) * 2 ^ 20) else capHeader r off

/-- R463: the width in lanes of a root position under an option (Table 15-1). -/
def rpWidth (option r : Nat) : Nat :=
  match option, r with
  | 0, _ => 16
  | 1, _ => 8
  | 2, 0 => 8
  | 3, 2 => 8
  | _, _ => 4

/-- Reset value of a configuration dword (R471 to R475, R487). -/
def State.cfgReset (s : State) (f : Fn) (d : Nat) : Nat :=
  let root : Bool := match f with
    | .root _ => true
    | .cluster _ | .pf _ | .vf _ _ | .none => false
  let rp : Nat := match f with
    | .root rp => rp
    | .cluster _ | .pf _ | .vf _ _ | .none => 0
  let vid := Config.vendorId.toNat
  match capHeader (s.extCaps f) (4 * d) with
  | some h => h
  | none =>
    match 4 * d with
    | 0x00 => (match f with
      | .root _ => vid + 0x8510 * 2 ^ 16
      | .cluster _ => vid + 0x8511 * 2 ^ 16
      | .pf _ => vid + 0x8514 * 2 ^ 16
      | .vf _ _ => 0xFFFFFFFF
      | .none => 0xFFFFFFFF)
    | 0x04 => 0x00100000
    | 0x08 => (match f with
      | .root _ => 0x06040001
      | .cluster _ => 0x0B400001
      | .pf _ => 0x08800001
      | .vf _ _ => 0x08800001
      | .none => 0)
    | 0x0C => if root then 0x00010000 else 0
    | 0x10 => (match f with
      | .vf _ _ => 0
      | .root _ | .cluster _ | .pf _ | .none => 4)
    | 0x18 => (match f with
      | .cluster _ | .pf _ => 4
      | .root _ | .vf _ _ | .none => 0)
    | 0x24 => if root then 0x00010001 else 0
    | 0x2C => if root then 0 else s.bootCfg.subsysVendor % 2 ^ 16 + s.bootCfg.subsysId % 2 ^ 16 * 2 ^ 16
    | 0x34 => 0x40
    | 0x40 => 0x10 + 0x80 * 2 ^ 8 + (2 + (if root then 4 * 16 else 9 * 16) + (if s.rpHp rp && root then 256 else 0)) * 2 ^ 16
    | 0x44 => if root then 2 else 2 + 2 ^ 28
    | 0x48 => (match f with
      | .vf _ _ => 0
      | .root _ | .cluster _ | .pf _ | .none => 0x2810)
    | 0x4C => if root then (if s.rpCxl rp then 6 else 7) + rpWidth (s.portCfg rp).option (rp % 4) * 2 ^ 4 + 2 ^ 20 else 0
    | 0x54 => if root && s.rpHp rp then
        1 + 2 + 8 + 16 + 64 + ((s.portCfg rp).power.getD (rp % 4) 0) % 256 * 2 ^ 7 + ((s.portCfg rp).slot.getD (rp % 4) 0) % 2 ^ 13 * 2 ^ 19
      else 0
    | 0x58 => if root && s.rpHp rp then 0x7C0 else 0
    | 0x64 => 0xF + 16
    | 0x80 => 0x11 + 0x90 * 2 ^ 8 + (f.vectors - 1) * 2 ^ 16
    | 0x84 => (match f with
      | .cluster _ | .pf _ => 2
      | .vf _ _ => 0x800
      | .root _ | .none => 0)
    | 0x88 => (match f with
      | .cluster _ | .pf _ => 0x802
      | .vf _ _ => 0xC00
      | .root _ | .none => 0x800)
    | 0x90 => 0x01 + 3 * 2 ^ 16
    | 0x108 => (match f with
      | .vf _ _ => 0
      | .root _ | .cluster _ | .pf _ | .none => 0x00400000)
    | 0x10C => (match f with
      | .vf _ _ => 0
      | .root _ | .cluster _ | .pf _ | .none => 0x00462030)
    | 0x114 => (match f with
      | .vf _ _ => 0
      | .root _ | .cluster _ | .pf _ | .none => 0xE000)
    | 0x144 => if root then 0x1F else 0
    | 0x164 => (match f with
      | .cluster _ => 20 * 2 ^ 8
      | .root _ | .pf _ | .vf _ _ | .none => 0)
    | 0x18C => (match f with
      | .pf _ => 1024 + 1024 * 2 ^ 16
      | .root _ | .cluster _ | .vf _ _ | .none => 0)
    | 0x194 => (match f with
      | .pf _ => 0x60 + 2 ^ 16
      | .root _ | .cluster _ | .vf _ _ | .none => 0)
    | 0x198 => (match f with
      | .pf _ => 0x8515 * 2 ^ 16
      | .root _ | .cluster _ | .vf _ _ | .none => 0)
    | 0x1A4 => (match f with
      | .pf _ => 4
      | .root _ | .cluster _ | .vf _ _ | .none => 0)
    | 0x204 => vid + 2 ^ 16 + 0x24 * 2 ^ 20
    | 0x208 => 1
    | 0x21C => (match f with
      | .cluster c => nodeId (8 + c / 8) (0x20 + c % 8)
      | .root _ | .pf _ | .vf _ _ | .none => 0)
    | 0x220 => (match f with
      | .root rp => (s.portCfg rp).option % 8 + (s.rpCxl rp).toNat * 8 + (s.rpHp rp).toNat * 16
      | .cluster _ | .pf _ | .vf _ _ | .none => 0)
    | _ => 0

/-- Bits that a configuration write replaces, and bits that it clears by writing 1. -/
def cfgMask (f : Fn) (d : Nat) : Nat × Nat :=
  let root : Bool := match f with
    | .root _ => true
    | .cluster _ | .pf _ | .vf _ _ | .none => false
  match 4 * d with
  | 0x04 => (0x0546, 0xF9000000)
  | 0x10 => (match f with
    | .root _ => (0xFFFFF000, 0)
    | .cluster _ => (0xFFC00000, 0)
    | .pf _ => (0xFFE00000, 0)
    | .vf _ _ | .none => (0, 0))
  | 0x14 => (match f with
    | .root _ | .cluster _ | .pf _ => (0xFFFFF, 0)
    | .vf _ _ | .none => (0, 0))
  | 0x18 => (match f with
    | .root _ => (0x00FFFFFF, 0)
    | .cluster _ | .pf _ => (0xFFFFF000, 0)
    | .vf _ _ | .none => (0, 0))
  | 0x1C => (match f with
    | .root _ => (0, 0xF9000000)
    | .cluster _ | .pf _ => (0xFFFFF, 0)
    | .vf _ _ | .none => (0, 0))
  | 0x20 => if root then (0xFFF0FFF0, 0) else (0, 0)
  | 0x24 => if root then (0xFFF0FFF0, 0) else (0, 0)
  | 0x28 => if root then (0xFFFFFFFF, 0) else (0, 0)
  | 0x2C => if root then (0xFFFFFFFF, 0) else (0, 0)
  | 0x3C => if root then (0x005300FF, 0) else (0xFF, 0)
  | 0x48 => (0x7FFF, 0x000F0000)
  | 0x50 => if root then (0x0FFB, 0xC0000000) else (0, 0)
  | 0x58 => if root then (0x1FFF, 0x011F0000) else (0, 0)
  | 0x5C => if root then (0x1F, 0) else (0, 0)
  | 0x60 => if root then (0, 0x10000) else (0, 0)
  | 0x68 => (0x7F, 0)
  | 0x80 => (0xC0000000, 0)
  | 0x94 => (0x3, 0)
  | 0x104 => (0, 0xFFFFFFFF)
  | 0x108 => (0xFFFFFFFF, 0)
  | 0x10C => (0xFFFFFFFF, 0)
  | 0x110 => (0, 0xFFFFFFFF)
  | 0x114 => (0xFFFFFFFF, 0)
  | 0x12C => if root then (7, 0) else (0, 0)
  | 0x130 => if root then (0, 0x7F) else (0, 0)
  | 0x144 => if root then (0x1F0000, 0) else (0, 0)
  | 0x154 => (match f with
    | .cluster _ => (0x801F0000, 0)
    | .root _ | .pf _ | .vf _ _ | .none => (0, 0))
  | 0x164 => (match f with
    | .cluster _ => (0x10000, 0)
    | .root _ | .pf _ | .vf _ _ | .none => (0, 0))
  | 0x188 => (match f with
    | .pf _ => (0x19, 0)
    | .root _ | .cluster _ | .vf _ _ | .none => (0, 0))
  | 0x190 => (match f with
    | .pf _ => (0xFFFF, 0)
    | .root _ | .cluster _ | .vf _ _ | .none => (0, 0))
  | 0x1A4 => (match f with
    | .pf _ => (0xFFFFF000, 0)
    | .root _ | .cluster _ | .vf _ _ | .none => (0, 0))
  | 0x1A8 => (match f with
    | .pf _ => (0xFFFFF, 0)
    | .root _ | .cluster _ | .vf _ _ | .none => (0, 0))
  | 0x210 => (0, 0x80000000)
  | 0x214 => (0, 2)
  | 0x218 => (match f with
    | .vf _ _ => (0, 0x7FFFFFFF)
    | .root _ | .cluster _ | .pf _ | .none => (0, 0))
  | _ => (0, 0)

/-- A configuration dword of a function. -/
def State.cfgGet (s : State) (rid d : Nat) : BitVec 32 := s.cfgRaw rid d (s.cfgReset (s.fnOf rid) d)
/-- A configuration dword written by the hardware. -/
def State.cfgSet (s : State) (rid d : Nat) (v : BitVec 32) : State :=
  { s with io := { s.io with cfg := tset s.io.cfg (BitVec.ofNat 32 (s.cfgReset (s.fnOf rid) d)) (1024 * rid + d) v } }
/-- A bit field of a configuration dword. -/
def State.cfgF (s : State) (rid d lo n : Nat) : Nat := (s.cfgGet rid d).toNat / 2 ^ lo % 2 ^ n
/-- A bit field of a configuration dword written by the hardware. -/
def State.setCfgF (s : State) (rid d lo n x : Nat) : State :=
  s.cfgSet rid d ((setField ((s.cfgGet rid d).setWidth 64) lo n x).setWidth 32)

/-- Bus Master Enable as it acts: D3hot on an integrated function acts as BME = 0, and so does an FLR (R472, R486). -/
def State.bme (s : State) (rid : Nat) : Bool :=
  s.cfgF rid 1 2 1 == 1 && (!(s.fnOf rid).integrated || (s.cfgF rid 0x25 0 2 == 0 && s.cfgF rid 0x85 0 1 == 0))

/-- DVSEC WORLD of an integrated function (R475). -/
def State.fnWalled (s : State) (rid : Nat) : Bool := s.cfgF rid 0x83 0 1 == 1

/-! ## Claims -/

/-- Who claims an MMIO address (R467), with the offset from its base. -/
inductive Claim where
  | below (rp : Nat)
  | rootBar (rp off : Nat)
  | cluster (c off : Nat)
  | clusterMsix (c off : Nat)
  | pfBell (i off : Nat)
  | pfMsix (i off : Nat)
  | vf (i v off : Nat)
  | none
  deriving DecidableEq, Repr

/-- The base of a 64-bit BAR at a dword. -/
def State.barBase (s : State) (rid d : Nat) : Nat := (s.cfgGet rid d).toNat / 16 * 16 + s.cfgF rid (d + 1) 0 20 * 2 ^ 32

/-- The offset of an address in an enabled BAR of a size. -/
def State.barHas (s : State) (rid d size pa : Nat) : Option Nat :=
  let b := s.barBase rid d
  if s.cfgF rid 1 1 1 = 1 ∧ b ≤ pa ∧ pa < b + size then some (pa - b) else Option.none

/-- Whether an enabled memory or prefetchable window of a root port contains an address. -/
def State.rpWindow (s : State) (rp pa : Nat) : Bool :=
  let r := rpRid rp
  let memLo := s.cfgF r 8 4 12 * 2 ^ 20
  let memHi := s.cfgF r 8 20 12 * 2 ^ 20 + (2 ^ 20 - 1)
  let pfLo := s.cfgF r 9 4 12 * 2 ^ 20 + (s.cfgGet r 10).toNat * 2 ^ 32
  let pfHi := s.cfgF r 9 20 12 * 2 ^ 20 + (2 ^ 20 - 1) + (s.cfgGet r 11).toNat * 2 ^ 32
  s.rpExists rp && s.cfgF r 1 1 1 == 1 && (within memLo pa memHi || within pfLo pa pfHi)

/-- R467: who claims an MMIO address. -/
def State.claimOf (s : State) (pa : Nat) : Claim :=
  let clusters := (List.range 16).filterMap (fun c => (s.barHas (clRid c) 4 0x400000 pa).map (fun o => Claim.cluster c o))
  let clMsix := (List.range 16).filterMap (fun c => (s.barHas (clRid c) 6 4096 pa).map (fun o => Claim.clusterMsix c o))
  let pfs := [0, 1].filterMap (fun i => (s.barHas (pfRid i) 4 0x200000 pa).map (fun o => Claim.pfBell i o))
  let pfMs := [0, 1].filterMap (fun i => (s.barHas (pfRid i) 6 4096 pa).map (fun o => Claim.pfMsix i o))
  let vfs := [0, 1].filterMap (fun i =>
    let b := s.barBase (pfRid i) 0x69
    let v := (pa - b) / 4096
    if s.cfgF (pfRid i) 0x62 3 1 = 1 ∧ b ≤ pa ∧ v < 1024 ∧ s.vfOn i v then some (Claim.vf i v ((pa - b) % 4096)) else Option.none)
  let bars := (List.range 40).filterMap (fun rp =>
    if s.rpExists rp then (s.barHas (rpRid rp) 4 4096 pa).map (fun o => Claim.rootBar rp o) else Option.none)
  let wins := (List.range 40).filterMap (fun rp => if s.rpWindow rp pa then some (Claim.below rp) else Option.none)
  (clusters ++ clMsix ++ pfs ++ pfMs ++ vfs ++ bars ++ wins).headD .none

/-- R474: the queue of a doorbell claimed by the Urn, when its offset is a doorbell in use. -/
def State.bellQueue (s : State) (c : Claim) : Option (Nat × Nat) :=
  match c with
  | .pfBell i off =>
    let l := off / 64
    if off % 64 = 0 ∧ !(decide (l < 31744) && s.vfOn i (l / 31)) then some (32768 * i + l, pfRid i) else Option.none
  | .vf i v off => if off % 64 = 0 ∧ off / 64 < 31 then some (32768 * i + 31 * v + off / 64, vfRid i v) else Option.none
  | .below _ | .rootBar _ _ | .cluster _ _ | .clusterMsix _ _ | .pfMsix _ _ | .none => Option.none

/-! ## AER -/

/-- An event logged in a function's uncorrectable AER status (R468), by the bit of that register. -/
def State.aerLog (s : State) (rid bit : Nat) : State := s.setCfgF rid 0x41 bit 1 1

end Sys2Proof.Machine
end

