-- ==== Sys2Proof/Machine/Iommu.lean ====
section
/-! DEFINITION. The IOMMU (R476 to R480): device and PASID entries, translation of untranslated requests, translated requests and
Translation Requests, the IOTLB, invalidation commands; and the MSI-X messages of the package's functions (R470). -/
set_option autoImplicit false
namespace Sys2Proof.Machine

/-- How a translation ends. -/
inductive IoRes where
  | ok (pa bits : Nat) (r w walled : Bool)
  | refused
  | integrity
  | stall
  deriving DecidableEq, Repr

/-- The state of a translation: the machine and the lines of the table entries read. -/
abbrev IoWalk := State × List Nat

/-- A table word read by IOMMU i for a routing ID (R479): a coherent RdNC; an Open read of Walled memory is refused and
reported (Table 16-2). -/
def iomRead (i rid : Nat) (walled : Bool) (p : IoWalk) (pa level : Nat) : Except WFault Word × IoWalk :=
  let s := p.1
  let bad := fun (k : WalkKind) => (⟨k, level, false, false, 0⟩ : WFault)
  if (s.classify pa).isDevice then (.error (bad (.translation 3)), p)
  else if !walled && s.walledMem pa then (.error (bad (.permission 0)), (s.rangeViol 1 rid pa, p.2))
  else
    match s.ncRead (.iommu i) (pa / 128) walled with
    | (none, s) => (.error (bad .stall), (s, p.2))
    | (some l, s) =>
      let m := s.iommu i
      let lines := (m.lines.filter (fun x => x != pa / 128) ++ [pa / 128])
      let s := s.setIommu i { m with lines := lines.drop (lines.length - 256) }
      (.ok (l.getD (pa % 128 / 8) Word.zero), (s, if p.2.contains (pa / 128) then p.2 else p.2 ++ [pa / 128]))

/-- A two-word entry read (R476). -/
def iomPair (i rid : Nat) (walled : Bool) (p : IoWalk) (pa : Nat) : Except WFault (Word × Word) × IoWalk :=
  match iomRead i rid walled p pa 0 with
  | (.error f, p) => (.error f, p)
  | (.ok a, p) =>
    match iomRead i rid walled p (pa + 8) 0 with
    | (.error f, p) => (.error f, p)
    | (.ok b, p) => (.ok (a, b), p)

/-- Whether the whole device table of IOMMU i lies in a Walled range (R476). -/
def State.dtWalled (s : State) (i : Nat) : Bool :=
  let base := s.fld (8 + i) 0x039 IOM_DTBASE [] IOM_DTBASE_BASE * 2 ^ 14
  (List.range 16).any (fun n =>
    let r := s.reg 15 2 WW_RANGE [n]
    bitOf r 54 && decide (field r 0 27 ≤ base / 2 ^ 25) && decide ((base + 2 ^ 20 - 1) / 2 ^ 25 ≤ field r 27 27))

/-- How a failed table read or walk ends a request. -/
def ioFail (f : WFault) : IoRes :=
  match f.kind with
  | .integrity _ => .integrity
  | .stall => .stall
  | .translation _ | .permission _ => .refused

/-- A stage-2 walk of the IOMMU. -/
def ioStage2 (i rid : Nat) (walled : Bool) (root : Nat) (p : IoWalk) (ipa : Nat) : Except WFault Leaf × IoWalk :=
  if ipa ≥ 2 ^ 52 then (.error ⟨.translation 2, 0, true, false, ipa⟩, p)
  else walk (iomRead i rid walled) true ipa root 0 4 p

/-- A table word of a stage-1 walk of the IOMMU, whose address passes through stage 2. -/
def ioRead1 (i rid : Nat) (walled : Bool) (root : Nat) (p : IoWalk) (ipa level : Nat) : Except WFault Word × IoWalk :=
  match ioStage2 i rid walled root p ipa with
  | (.error f, p) => (.error { f with s1walk := true }, p)
  | (.ok l, p) =>
    if !bitOf l.attr 6 then (.error ⟨.permission 0, l.level, true, true, ipa⟩, p)
    else iomRead i rid walled p (l.pa ipa) level

/-- R477: the walks of a request by its device entry. -/
def ioWalks (i rid : Nat) (e0 e1 : BitVec 64) (walled : Bool) (pasid addr : Nat) (p : IoWalk) : IoRes × IoWalk :=
  let root2 := field e0 14 38 * 2 ^ 14
  match field e0 1 2 with
  | 1 => if addr < 2 ^ 52 then (.ok addr 52 true true walled, p) else (.refused, p)
  | 2 =>
    match ioStage2 i rid walled root2 p addr with
    | (.error f, p) => (ioFail f, p)
    | (.ok l, p) => (.ok (l.pa addr) l.bits (bitOf l.attr 6) (bitOf l.attr 7) walled, p)
  | 3 =>
    if pasid ≥ 2 ^ (field e1 16 4 + 4) then (.refused, p)
    else
      match iomPair i rid walled p (field e1 20 32 * 2 ^ 20 + 16 * pasid) with
      | (.error f, p) => (ioFail f, p)
      | (.ok (w0, w1), p) =>
        if w0.tag ≠ 0x81 ∨ w1.tag ≠ 0x81 then (.integrity, p)
        else if !bitOf w0.val 0 then (.refused, p)
        else
          let va := addr % 2 ^ 58
          match walk (ioRead1 i rid walled root2) false va (field w0.val 14 38 * 2 ^ 14) 0 4 p with
          | (.error f, p) => (ioFail f, p)
          | (.ok l1, p) =>
            match ioStage2 i rid walled root2 p (l1.pa va) with
            | (.error f, p) => (ioFail f, p)
            | (.ok l2, p) =>
              (.ok (l2.pa (l1.pa va)) (min l1.bits l2.bits) (bitOf l1.attr 6 && bitOf l2.attr 6) (bitOf l1.attr 7 && bitOf l2.attr 7)
                walled, p)
  | _ => (.refused, p)

/-- The device entry of a routing ID: its words when its tags are right. -/
def iomDevice (i rid : Nat) (p : IoWalk) : Except IoRes (BitVec 64 × BitVec 64) × IoWalk :=
  let base := p.1.fld (8 + i) 0x039 IOM_DTBASE [] IOM_DTBASE_BASE * 2 ^ 14
  match iomPair i rid (p.1.dtWalled i) p (base + 16 * rid) with
  | (.error f, p) => (.error (ioFail f), p)
  | (.ok (w0, w1), p) =>
    if w0.tag ≠ 0x81 ∨ w1.tag ≠ 0x81 then (.error .integrity, p) else (.ok (w0.val, w1.val), p)

/-- R477: a translation of an address of a routing ID and PASID, through the IOTLB or the tables. -/
def State.ioTranslate (s : State) (i rid pasid addr : Nat) : IoRes × State :=
  if s.fld (8 + i) 0x039 IOM_CTL [] IOM_CTL_EN = 0 then (.refused, s)
  else
    match iomDevice i rid (s, []) with
    | (.error r, p) => (r, p.1)
    | (.ok (e0, e1), p) =>
      let walled : Bool := bitOf e0 3 && p.1.dtWalled i && p.1.part == .a1
      if !bitOf e0 0 ∨ field e0 5 9 ≠ 0 then (.refused, p.1)
      else
        match (p.1.iommu i).tlb.find? (fun e => e.rid == rid && e.pasid == pasid && e.page == addr / 2 ^ e.bits) with
        | some e => (.ok (e.pa + addr % 2 ^ e.bits) e.bits e.r e.w walled, p.1)
        | none =>
          match ioWalks i rid e0 e1 walled pasid addr p with
          | (.ok pa bits r w wl, (s, lines)) =>
            let m := s.iommu i
            let e : IoTlbEnt := { rid := rid, pasid := pasid, page := addr / 2 ^ bits, bits := bits, pa := pa / 2 ^ bits * 2 ^ bits, r := r, w := w, lines := lines }
            let tlb := m.tlb ++ [e]
            let keep := field e0 1 2 ≠ 1
            (.ok pa bits r w wl, if keep then s.setIommu i { m with tlb := tlb.drop (tlb.length - 4096) } else s)
          | (r, p) => (r, p.1)

/-- R477: a refused or faulting request recorded. -/
def State.iomFault (s : State) (i rid : Nat) (integrity : Bool) : State :=
  let r := s.reg (8 + i) 0x039 IOM_STATUS []
  let s := if bitOf r 0 || bitOf r 1 then s else s.setFld (8 + i) 0x039 IOM_STATUS [] IOM_STATUS_FAULT_RID rid
  let s := s.setFld (8 + i) 0x039 IOM_STATUS [] (if integrity then IOM_STATUS_INTEGRITY else IOM_STATUS_FAULT) 1
  s.addFld (8 + i) 0x039 IOM_STATUS [] IOM_STATUS_FAULTS 1

/-- R478: the world of the translated requests and Translation Requests of a routing ID, or why they are not accepted. -/
def State.atsOk (s : State) (i rid : Nat) : Except IoRes Bool × State :=
  if s.fld (8 + i) 0x039 IOM_CTL [] IOM_CTL_EN = 0 then (.error .refused, s)
  else
    match iomDevice i rid (s, []) with
    | (.error r, p) => (.error r, p.1)
    | (.ok (e0, _), p) =>
      if bitOf e0 0 && bitOf e0 4 && field e0 1 2 != 0 && field e0 5 9 == 0 && !(p.1.iommu i).blocked.contains rid then
        (.ok (bitOf e0 3 && p.1.dtWalled i && p.1.part == .a1), p.1)
      else (.error .refused, p.1)

/-- R480: removal of the IOTLB entries that an ADDR or FUNCTION command names. -/
def State.iotlbDrop (s : State) (i rid : Nat) (range : Option (Nat × Nat)) (pasid : Option Nat) : State :=
  let m := s.iommu i
  let hit := fun (e : IoTlbEnt) => e.rid == rid &&
    (match pasid with
     | some p => e.pasid == p
     | none => true) &&
    (match range with
     | some (a, bits) => decide (a / 2 ^ bits * 2 ^ bits < (e.page + 1) * 2 ^ e.bits) && decide (e.page * 2 ^ e.bits < (a / 2 ^ bits + 1) * 2 ^ bits)
     | none => true)
  s.setIommu i { m with tlb := m.tlb.filter (fun e => !hit e) }

/-- R481: removal of a kiosk cluster's translations. -/
def State.atcDrop (s : State) (c : Nat) (range : Option (Nat × Nat)) (pasid : Option Nat) : State :=
  let hit := fun (e : AtcEnt) =>
    (match pasid with
     | some p => e.pasid == p
     | none => true) &&
    (match range with
     | some (a, bits) => decide (a / 2 ^ bits * 2 ^ bits < (e.page + 1) * 2 ^ e.bits) && decide (e.page * 2 ^ e.bits < (a / 2 ^ bits + 1) * 2 ^ bits)
     | none => true)
  { s with io := { s.io with atc := tset s.io.atc [] c ((tget s.io.atc [] c).filter (fun e => !hit e)) } }

/-- R480: the range of IOM_INV_ADDR: address and size in bits. -/
def State.invRange (s : State) (i : Nat) : Nat × Nat :=
  let n := s.fld (8 + i) 0x039 IOM_INV_ADDR [] IOM_INV_ADDR_LOG2SZ
  (s.fld (8 + i) 0x039 IOM_INV_ADDR [] IOM_INV_ADDR_ADDR * 4096, if within 12 n 58 then n else 12)

/-- An invalidation command ends: GO clears (R480). -/
def State.invEnd (s : State) (i : Nat) : State :=
  let s := s.setFld (8 + i) 0x039 IOM_INV [] IOM_INV_GO 0
  { s with io := { s.io with inv := terase s.io.inv i, reads := s.io.reads.map (fun (q : InReq) => if q.t.rp / 20 = i then { q with awaited := false } else q) } }

/-- The outstanding requests of the kiosks of clusters. -/
def State.clOut (s : State) (cs : List Nat) : IoAwait :=
  let ks := cs.flatMap clKiosks
  { msgs := ks.flatMap s.kRequests
    reads := s.io.mmio.filter (fun m => m.answer.isNone && (match m.who with
      | .kiosk k _ => ks.contains k
      | .core _ | .config | .peer _ _ | .gone => false)) }

/-- Whether some of the requests that an invalidation waits for are still outstanding. -/
def State.awaits (s : State) (a : IoAwait) : Bool :=
  a.msgs.any (fun m => s.asked m.src m.kind m.line) ||
    a.reads.any (fun m => s.io.mmio.any (fun x => x.port == m.port && x.addr == m.addr && x.size == m.size && x.answer.isNone))

/-- R480: the command in progress goes on: it has what the function owes it, and ends once the requests that it waits for have been
performed. -/
def State.invPoll (s : State) (i : Nat) : State :=
  match tfind s.io.inv i with
  | some v => if v.come && !s.awaits v.kiosks && !s.io.reads.any (fun q => q.awaited && q.t.rp / 20 == i) then s.invEnd i else s
  | none => s

/-- A command waits for the requests of an I/O die that `hit` names, and for those of kiosk clusters. -/
def State.invAwait (s : State) (i : Nat) (hit : InReq → Bool) (kiosks : IoAwait) : State :=
  ({ s with io := { s.io with inv := tput s.io.inv i { come := true, kiosks := kiosks },
                              reads := s.io.reads.map (fun (q : InReq) => if q.t.rp / 20 = i ∧ hit q then { q with awaited := true } else q) } }).invPoll i

/-- R480: the function has sent all its invalidation completions: every translated request received from it before them is awaited. -/
def State.invCome (s : State) (i : Nat) : State :=
  match tfind s.io.inv i with
  | some v =>
    if v.come then s
    else
      let rid := s.fld (8 + i) 0x039 IOM_INV [] IOM_INV_RID
      s.invAwait i (fun q => q.translated && q.t.rid == rid) (s.clOut (((List.range 8).map (fun c => 8 * i + c)).filter (fun c => clRid c == rid)))
  | none => s

/-- R480: an IOM_INV command whose fields have been written. ADDR and FUNCTION wait for the completions of the function; SYNC waits for
every request that has been translated and not performed. -/
def State.invStart (s : State) (i : Nat) : State :=
  let f := fun (x : RField) => s.fld (8 + i) 0x039 IOM_INV [] x
  let rid := f IOM_INV_RID
  let pasid : Option Nat := if f IOM_INV_PV = 1 then some (f IOM_INV_PASID) else none
  let s := s.setFld (8 + i) 0x039 IOM_INV [] IOM_INV_TIMEOUT 0
  let ats := fun (s : State) (range : Option (Nat × Nat)) =>
    let s := s.iotlbDrop i rid range pasid
    let s := { s.setFld (8 + i) 0x039 IOM_INV [] IOM_INV_GO 1 with io := { s.io with inv := tput s.io.inv i { come := false, kiosks := { msgs := [], reads := [] } } } }
    s.emit (.atsInvalidate rid (range.getD (0, 64)).1 (range.getD (0, 64)).2 (pasid.getD 0) pasid.isSome)
  match f IOM_INV_KIND with
  | 1 => ats s (some (s.invRange i))
  | 2 => ats s none
  | 3 =>
    (s.setFld (8 + i) 0x039 IOM_INV [] IOM_INV_GO 1).invAwait i (fun q => q.dest.isSome) (s.clOut ((List.range 8).map (fun c => 8 * i + c)))
  | 4 =>
    let m := s.iommu i
    (s.setIommu i { m with blocked := m.blocked.filter (fun x => x != rid) }).invEnd i
  | _ => s.invEnd i

/-- R481: a kiosk cluster answers the Invalidate Requests whose requests have completed. -/
def State.atsPoll (s : State) : State :=
  s.io.atsWaits.foldl (fun (s : State) p =>
    if s.awaits p.2 then { s with io := { s.io with atsWaits := s.io.atsWaits ++ [p] } } else s.emit (.atsComplete (clRid p.1)))
    { s with io := { s.io with atsWaits := [] } }

/-- R481: an Invalidate Request at a kiosk cluster: the matching entries go, and the answer follows the requests that used them. All the
cluster's requests in flight count as such (DESIGN CHOICE, entry 101). -/
def State.atsInval (s : State) (c : Nat) (range : Option (Nat × Nat)) (pasid : Option Nat) : State :=
  let s := s.atcDrop c range pasid
  ({ s with io := { s.io with atsWaits := s.io.atsWaits ++ [(c, s.clOut [c])] } }).atsPoll

/-! ## MSI-X -/

/-- What a dword of a function's MSI-X page holds before it is written: the mask bit of each vector is set. -/
def msixReset (f : Fn) (d : Nat) : BitVec 32 :=
  if f.tableAt ≤ d ∧ d < f.tableAt + 4 * f.vectors ∧ (d - f.tableAt) % 4 = 3 then 1 else 0
/-- A dword of a function's MSI-X page. -/
def State.msixWord (s : State) (rid d : Nat) : Nat := (tget s.io.msix (msixReset (s.fnOf rid) d) (1024 * rid + d)).toNat
/-- A dword of a function's MSI-X page written. -/
def State.setMsix (s : State) (rid d : Nat) (v : BitVec 32) : State :=
  { s with io := { s.io with msix := tset s.io.msix (msixReset (s.fnOf rid) d) (1024 * rid + d) v } }

/-- A 4-byte write to the MSI window (R470): an entry for the core of its offset, or MSI_BAD. -/
def State.msiWindow (s : State) (i rid off data : Nat) (sized : Bool) : State :=
  if sized ∧ off % 4096 = 0 then s.msiPush (off / 4096) rid data
  else s.setFld (8 + i) 0x039 IOM_STATUS [] IOM_STATUS_MSI_BAD 1

/-- A 4-byte message write of a function at a physical address. -/
def State.msixWrite (s : State) (i rid pa data : Nat) (walled : Bool) : State :=
  match s.classify pa with
  | .msi off => s.msiWindow i rid off data true
  | .control _ | .ecam _ | .mmio _ => s.iomFault i rid false
  | .cxl _ _ | .dram _ _ _ | .remote _ | .unmapped =>
    if !walled && s.walledMem pa then (s.rangeViol 1 rid pa).iomFault i rid false
    else
      let w := pa % 128 / 8
      let ws := List.replicate w Word.zero ++ [Word.data (v64 (data % 2 ^ 32 * 2 ^ (8 * (pa % 8))))] ++ List.replicate (15 - w) Word.zero
      s.ncWrite (.nca (32768 + rid)) (pa / 128) ws (15 * 2 ^ (pa % 128)) walled

/-- Whether a root port has taken a posted write that is not performed (R469). -/
def State.writeWaits (s : State) (rp : Nat) : Bool := s.io.reads.any (fun q => q.t.rp == rp && q.t.write)

/-- A message sent (R470), in the world of its function (Table 16-1), or kept until the posted writes before it at its root port are performed (R469) and its table words have
come. -/
def State.msixGo (s : State) (m : MsixMsg) : State :=
  let i := m.rid / 0x8000
  let wait := fun (s : State) => { s with io := { s.io with msgs := s.io.msgs ++ [m] } }
  let f := s.fnOf m.rid
  let behind := match f with
    | .root rp => s.writeWaits rp
    | .cluster _ | .pf _ | .vf _ _ | .none => false
  if behind then wait s
  else
    match s.ioTranslate i m.rid 0 m.addr with
    | (.ok pa _ _ w walled, s) =>
      if w then s.msixWrite i m.rid (pa / 4 * 4) m.data (if f.integrated then s.fnWalled m.rid else walled) else s.iomFault i m.rid false
    | (.refused, s) => s.iomFault i m.rid false
    | (.integrity, s) => s.iomFault i m.rid true
    | (.stall, s) => wait s

/-- A message of an MSI-X vector (R470, R484): sent when enabled and unmasked with BME = 1, otherwise pending. -/
def State.msixSend (s : State) (rid vec : Nat) : State :=
  let f := s.fnOf rid
  let at4 := fun (k : Nat) => s.msixWord rid (f.tableAt + 4 * vec + k)
  if s.cfgF rid 0x20 31 1 = 0 then s
  else if !s.bme rid ∨ s.cfgF rid 0x20 30 1 = 1 ∨ at4 3 % 2 = 1 then
    let d := f.pbaAt + vec / 32
    s.setMsix rid d (BitVec.ofNat 32 (s.msixWord rid d ||| 2 ^ (vec % 32)))
  else
    s.msixGo { rid := rid, addr := at4 0 + at4 1 * 2 ^ 32, data := at4 2 }

/-- Pending vectors that may now be sent are sent, and their Pending bits clear. -/
def State.msixFlush (s : State) (rid : Nat) : State :=
  let f := s.fnOf rid
  foldN f.vectors (fun (s : State) vec =>
    let d := f.pbaAt + vec / 32
    let w := s.msixWord rid d
    if natBit w (vec % 32) ∧ s.bme rid ∧ s.cfgF rid 0x20 30 2 = 2 ∧ s.msixWord rid (f.tableAt + 4 * vec + 3) % 2 = 0 then
      (s.setMsix rid d (BitVec.ofNat 32 (w - 2 ^ (vec % 32)))).msixSend rid vec
    else s) s

/-- A dword of a function's MSI-X page written by software: table entries, whose reserved bits stay 0; the PBA is read-only. -/
def State.msixPut (s : State) (rid d : Nat) (v : BitVec 32) : State :=
  let f := s.fnOf rid
  if f.tableAt ≤ d ∧ d < f.tableAt + 4 * f.vectors then
    let v := match (d - f.tableAt) % 4 with
      | 0 => v &&& 0xFFFFFFFC
      | 3 => v &&& 1
      | _ => v
    (s.setMsix rid d v).msixFlush rid
  else s

end Sys2Proof.Machine
end

