-- ==== Sys2Proof/Machine/Predict.lean ====
section
/-! DEFINITION. Branch prediction (R221 to R226, R447): the tables' state at the retirement of branches. Prediction has no
architectural effect. The index and tag functions are the model's own. -/
set_option autoImplicit false
namespace Sys2Proof.Machine

/-- The dimensions of a predictor: entries of the base table, entries of a tagged table, the tagged tables' history lengths
and tag widths, entries of the target buffer and of the return-address stack. -/
structure PredDims where
  base : Nat
  tagged : Nat
  hist : List (Nat × Nat)
  btb : Nat
  ras : Nat

/-- A number folded into k bits. -/
def foldBits (k x fuel : Nat) : Nat :=
  match fuel with
  | 0 => 0
  | n + 1 => (x % 2 ^ k) ^^^ foldBits k (x / 2 ^ k) n

/-- Entry of a tagged table for a branch and history. -/
def predIdx (d : PredDims) (pc hist len : Nat) : Nat := ((pc / 4) ^^^ foldBits 11 (hist % 2 ^ len) 14) % d.tagged
/-- Tag of a branch and history. -/
def predTag (pc hist len bits : Nat) : Nat := ((pc / 4 / 2 ^ 11) ^^^ foldBits bits (hist % 2 ^ len) 20) % 2 ^ bits

/-- The tagged entry of table t (from 0) that matches, with its key. -/
def Predictor.hit (p : Predictor) (d : PredDims) (pc t : Nat) : Option (Nat × PredEnt) :=
  match d.hist[t]? with
  | none => none
  | some (len, bits) =>
    let key := 2 ^ 16 * t + predIdx d pc p.history len
    match tfind p.tagged key with
    | some e => if e.tag = predTag pc p.history len bits then some (key, e) else none
    | none => none

/-- The longest-history matching table (R223). -/
def Predictor.provider (p : Predictor) (d : PredDims) (pc : Nat) : Option (Nat × Nat × PredEnt) :=
  (List.range d.hist.length).foldl (fun r t =>
    match p.hit d pc t with
    | some (k, e) => some (t, k, e)
    | none => r) none

/-- R223: the predicted direction of a conditional branch with its hint. -/
def Predictor.predict (p : Predictor) (d : PredDims) (pc : Nat) (hint : Bool) : Bool :=
  match p.provider d pc with
  | some (_, _, e) => decide (e.ctr ≥ 4)
  | none =>
    let b := tget p.base 1 (pc / 4 % d.base)
    if b ≥ 4 then decide (b % 4 ≥ 2) else hint

/-- A counter one step towards a direction. -/
def ctrStep (c hi : Nat) (up : Bool) : Nat := if up then (if c < hi then c + 1 else hi) else c - 1

/-- R224: a conditional branch retires. DESIGN CHOICE (entry 28): a new tagged entry starts weakly in the branch's direction, the provider's
useful count goes up by one when the prediction was right and down by one when not, and the base entry stays where a tagged table provides. -/
def Predictor.branch (p : Predictor) (d : PredDims) (pc : Nat) (hint taken : Bool) : Predictor :=
  let guess := p.predict d pc hint
  let prov := p.provider d pc
  let p1 : Predictor := match prov with
    | some (_, k, e) =>
      let e2 : PredEnt := { e with ctr := ctrStep e.ctr 7 taken, useful := ctrStep e.useful 3 (guess == taken) }
      { p with tagged := tput p.tagged k e2 }
    | none =>
      let i := pc / 4 % d.base
      let b := tget p.base 1 i
      { p with base := tset p.base 1 i (ctrStep (b % 4) 3 taken + 4) }
  let first := match prov with
    | some (t, _, _) => t + 1
    | none => 0
  let cands := ((List.range d.hist.length).filter (fun t => decide (t ≥ first))).filterMap (fun t =>
    (d.hist[t]?).map (fun h => (2 ^ 16 * t + predIdx d pc p.history h.1, predTag pc p.history h.1 h.2)))
  let p2 : Predictor :=
    if guess = taken then p1
    else
      match cands.find? (fun c => ((tfind p1.tagged c.1).map (fun e => e.useful)).getD 0 == 0) with
      | some c =>
        let e2 : PredEnt := { tag := c.2, ctr := if taken then 4 else 3, useful := 0 }
        { p1 with tagged := tput p1.tagged c.1 e2 }
      | none =>
        let dec : Tbl PredEnt → Nat × Nat → Tbl PredEnt := fun t c =>
          match tfind t c.1 with
          | some e =>
            let e2 : PredEnt := { e with useful := e.useful - 1 }
            tput t c.1 e2
          | none => t
        { p1 with tagged := cands.foldl dec p1.tagged }
  let n := p.branches + 1
  let p3 : Predictor := { p2 with history := (p.history * 2 + taken.toNat) % 2 ^ 144, branches := n % 262144 }
  let half : PredEnt → PredEnt := fun e => { e with useful := e.useful / 2 }
  if n = 262144 then { p3 with tagged := p3.tagged.map (fun x => (x.1, half x.2)) } else p3

/-- A taken branch's target entered in the target buffer. -/
def Predictor.target (p : Predictor) (d : PredDims) (pc tgt : Nat) : Predictor :=
  { p with btb := tput p.btb (pc / 4 % d.btb) (pc * 2 ^ 58 + tgt) }
/-- A return address pushed. -/
def Predictor.call (p : Predictor) (d : PredDims) (ret : Nat) : Predictor := { p with ras := (ret :: p.ras).take d.ras }
/-- A return address popped. -/
def Predictor.ret (p : Predictor) : Predictor := { p with ras := p.ras.drop 1 }

end Sys2Proof.Machine
end

