-- ==== Sys2Proof/Machine/Kiosk.lean ====
section
/-! DEFINITION. The kiosk engines (14_kiosk_engines.md) but for memory accesses: contexts and their states (R431 to R434),
registers (R435), instruction boundaries, exceptions and interrupts (R452 to R458), register operations (R440), branches with
delay slots (R446), the data SRAM (R430, R441), queue operations (R442), control registers (R444), stop and reset (R459 to
R461). -/
set_option autoImplicit false
namespace Sys2Proof.Machine

/-! ## Places -/

/-- Die of a kiosk's node: tile kiosks 0 to 255, hub kiosks 256 to 511 (R428). -/
def kskDie (k : Nat) : Nat := if k < 256 then ltDie k else 8 + (k - 256) / 128
/-- Unit of a kiosk's node. -/
def kskUnit (k : Nat) : Nat := if k < 256 then ltIdx k else 0x20 + (k - 256) % 128 / 16
/-- Index of a hub kiosk in its cluster. -/
def kskJ (k : Nat) : Nat := if k < 256 then 0 else (k - 256) % 16

/-- Kiosk k. -/
def State.ksk (s : State) (k : Nat) : Kiosk := tget s.kiosks Kiosk.reset k
/-- The state with a kiosk written. -/
def State.setKsk (s : State) (k : Nat) (q : Kiosk) : State := { s with kiosks := tset s.kiosks Kiosk.reset k q }

/-- A field of a KSK_ register of a kiosk, in its tile form t or cluster form h. -/
def State.kf (s : State) (k : Nat) (t h : RegDef) (idx : List Nat) (f : RField) : Nat :=
  if k < 256 then s.fld (kskDie k) (kskUnit k) t idx f else s.fld (kskDie k) (kskUnit k) h (kskJ k :: idx) f
/-- A field of a KSK_ register written. -/
def State.setKf (s : State) (k : Nat) (t h : RegDef) (idx : List Nat) (f : RField) (x : Nat) : State :=
  if k < 256 then s.setFld (kskDie k) (kskUnit k) t idx f x else s.setFld (kskDie k) (kskUnit k) h (kskJ k :: idx) f x

/-- KSK_CTL.EN. -/
def State.kEn (s : State) (k : Nat) : Bool := s.kf k KSK_CTL KSK_CTL_H [] KSK_CTL_EN != 0
/-- KSK_CTL.WORLD: true for Walled. -/
def State.kWalled (s : State) (k : Nat) : Bool := s.kf k KSK_CTL KSK_CTL_H [] KSK_CTL_WORLD != 0
/-- A field of KSK_STATUS. -/
def State.kStat (s : State) (k : Nat) (f : RField) : Bool := s.kf k KSK_STATUS KSK_STATUS_H [] f != 0
/-- A flag of KSK_STATUS set. -/
def State.setKStat (s : State) (k : Nat) (f : RField) (b : Bool) : State := s.setKf k KSK_STATUS KSK_STATUS_H [] f b.toNat
/-- KSK_CTXn.STATE. -/
def State.kCtxState (s : State) (k n : Nat) : Nat := s.kf k KSK_CTX KSK_CTX_H [n] KSK_CTX_STATE
/-- KSK_CTXn.STATE written: 0 stopped, 1 ready, 2 waiting, 3 running (Table 14-1). -/
def State.setCtxState (s : State) (k n x : Nat) : State := s.setKf k KSK_CTX KSK_CTX_H [n] KSK_CTX_STATE x
/-- Whether a context runs at KP1. -/
def State.kPriv (s : State) (k n : Nat) : Bool := s.kf k KSK_CTX KSK_CTX_H [n] KSK_CTX_PRIV != 0

/-- The context number under which a kiosk's running program is known: 0 to 3, or 4 for the handler. -/
def Kiosk.cur (q : Kiosk) : Nat := if q.handler then 4 else q.running.getD 0
/-- The position of the running program. -/
def Kiosk.at (q : Kiosk) (n : Nat) : KPos := tget q.pos (KPos.at 0) n
/-- A position written. -/
def Kiosk.setPos (q : Kiosk) (n : Nat) (p : KPos) : Kiosk := { q with pos := tset q.pos (KPos.at 0) n p }
/-- Whether the running program is at KP1 (R433). -/
def State.kp1 (s : State) (k : Nat) : Bool := (s.ksk k).handler || s.kPriv k (s.ksk k).cur
/-- The level that Table 3-4 uses (R433). -/
def State.kLevel (s : State) (k : Nat) : Nat := if s.kp1 k then 1 else 0

/-- R435: the place of register r of the running program. A tile handler has its own k13 to k15 and otherwise the registers of
the context that it interrupts (the last one where none ran); a hub handler has its own k1 to k15. -/
def kPlace (k : Nat) (q : Kiosk) (r : BitVec 4) : Nat :=
  if q.handler then
    if k ≥ 256 ∨ r.toNat ≥ 13 then 64 + r.toNat else 16 * q.running.getD q.last + r.toNat
  else 16 * q.running.getD 0 + r.toNat

/-- A register word at a place; places of k0 hold the zero word. -/
def Kiosk.word (q : Kiosk) (place : Nat) : Word := if place % 16 = 0 then Word.zero else tget q.regs Word.zero place
/-- A register word written at a place; k0 discards it. -/
def Kiosk.setWord (q : Kiosk) (place : Nat) (w : Word) : Kiosk :=
  if place % 16 = 0 then q else { q with regs := tset q.regs Word.zero place w }

/-- Register r of the running program. -/
def State.kr (s : State) (k : Nat) (r : BitVec 4) : Word := (s.ksk k).word (kPlace k (s.ksk k) r)
/-- Register r of the running program written. -/
def State.setKr (s : State) (k : Nat) (r : BitVec 4) (w : Word) : State :=
  s.setKsk k ((s.ksk k).setWord (kPlace k (s.ksk k) r) w)

/-- A kiosk control register. -/
def Kiosk.kc (q : Kiosk) (n : Nat) : BitVec 64 := tget q.kcr 0 n
/-- A kiosk control register written. -/
def Kiosk.setKc (q : Kiosk) (n : Nat) (v : BitVec 64) : Kiosk := { q with kcr := tset q.kcr 0 n v }
/-- KIRQ.PEND[cause] set. -/
def Kiosk.pend (q : Kiosk) (cause : Nat) : Kiosk := q.setKc 8 (setBit (q.kc 8) cause true)
/-- KSTATUS.IE. -/
def Kiosk.ie (q : Kiosk) : Bool := bitOf (q.kc 0) 0

/-- Whether the tile of a tile kiosk was quarantined (R461). -/
def State.kGone (s : State) (k : Nat) : Bool := decide (k < 256) && natBit (s.fld 15 1 GH_TILE_FATAL [k / 64] GH_TILE_FATAL_FATAL) (k % 64)

/-- Whether the machine's mode lets kiosks execute: M5, M8 and M10. -/
def Mode.runs (m : Mode) : Bool :=
  match m with
  | .m5 | .m8 | .m10 => true
  | .m0 | .m1 | .m2 | .m3 | .m4 | .m6 | .m7 | .m9 | .m11 => false

/-- Whether a kiosk has WrInvs without their Cmp (R438). -/
def State.kStoresOut (s : State) (k : Nat) : Bool := !(s.kStores k).isEmpty

/-- Whether the power domain of a kiosk lets it execute: its tile in T0 or T1, or its cluster in D0 (Table 17-3). -/
def State.kPowered (s : State) (k : Nat) : Bool :=
  if k < 256 then decide (s.tileSt k ≤ 1) else s.fld (8 + (k - 256) / 128) 0x03C PWR_DOM_STATUS_I [16 + (k - 256) % 128 / 16] PWR_DOM_STATUS_STATE == 0

/-- Whether a kiosk can execute now: its mode and its power let it (R29, R461), and no scrub has stopped it (R509). -/
def State.kOn (s : State) (k : Nat) : Bool := s.mode.runs && !s.boot.scrub && !s.kGone k && s.kPowered k

/-- Whether a kiosk has a program to run: a handler, or a running context with EN = 1 or on its way to a stop (R460). -/
def State.kRuns (s : State) (k : Nat) : Bool :=
  let q := s.ksk k
  s.kOn k && !s.kStat k KSK_STATUS_SRAM_CLR && !s.kStat k KSK_STATUS_DFAULT && !s.kStat k KSK_STATUS_INTERR &&
  (q.handler || q.running.any (fun n => s.kEn k || (tfind q.stopping n).isSome))

/-- The lines of the reads that the programs of a kiosk have outstanding, but for those of abandoned instructions. -/
def State.kReads (s : State) (k : Nat) : List Nat :=
  ((s.requests (kskAgent k) .rdNC ++ s.net.filter (fun m => m.dst == kskAgent k && m.kind == .data)).map (fun m => m.line)).filter
    (fun l => !(s.ksk k).stale.contains l)

/-- Whether the instruction in M has begun: it has performed its lower part, waits for an answer of the Urn, or has a read outstanding. -/
def State.kBegun (s : State) (k : Nat) : Bool :=
  let q := s.ksk k
  q.half.isSome || (tfind q.waits q.cur).isSome || s.io.mmio.any (fun m => m.who == .kiosk k q.cur) || !(s.kReads k).isEmpty

/-! ## Error records -/

/-- An error record for a kiosk in its node's bank, which raises the kiosk's ERROR cause (R456). -/
def State.kErr (s : State) (k : Nat) (r : ErrRec) : State :=
  let s := s.err (kskDie k) (kskUnit k) r
  s.setKsk k ((s.ksk k).pend 2)

/-- The MSI-X vector of a fault of a hub kiosk (Table 15-5). -/
def State.kFaultMsg (s : State) (k : Nat) : State := if k < 256 then s else s.msixSend (clRid ((k - 256) / 16)) (kskJ k)

/-! ## The data SRAM -/

/-- R430: a data-SRAM word read at a local address, 8-byte aligned: a single-bit error is corrected and counted, an
uncorrectable word is poison 0x06 and rewritten so. -/
def State.kLocal (s : State) (k addr : Nat) : Word × State :=
  let i := addr % 65536 / 8
  let q := s.ksk k
  let w := tget q.dsram Word.zero i
  match tget q.dbad 0 i with
  | 0 => (w, s)
  | 1 => (w, (s.setKsk k { q with dbad := terase q.dbad i }).errCorrected (kskDie k) (kskUnit k) (kskJ k) (addr % 65536))
  | _ =>
    let p := Word.poison 0x06
    let s := s.setKsk k { q with dsram := tset q.dsram Word.zero i p, dbad := terase q.dbad i }
    (p, s.kErr k { ErrRec.mk1 3 0x02 (kskJ k) (addr % 65536) with poison := 6, inj := true, walled := s.kWalled k })

/-- A data-SRAM word written, with the injection of Table 20-4. -/
def State.kLocalPut (s : State) (k addr : Nat) (w : Word) : State :=
  let i := addr % 65536 / 8
  let q := s.ksk k
  let s := s.setKsk k { q with dsram := tset q.dsram Word.zero i w, dbad := terase q.dbad i }
  if k < 256 then
    match s.inject (kskDie k) (kskUnit k) 7 (s.kWalled k) with
    | (some a, s) => s.setKsk k { s.ksk k with dbad := tset (s.ksk k).dbad 0 i (if a = 1 then 1 else 2) }
    | (none, s) => s
  else s

/-- The class that a store of a word writes at a level, as STT does (R441). -/
def sttWord (level : Nat) (w : Word) : Word := if level = 0 ∧ w.isSystem then Word.data w.val else w
/-- The word that a load of a whole word returns at a level, as LDT does (R441, Table 3-4). -/
def ldtWord (level : Nat) (w : Word) : Word := if level = 0 ∧ w.isSystem then Word.data w.val else toReg w

/-- A whole local word stored (R441, R66). -/
def State.kLocalStore (s : State) (k addr : Nat) (w : Word) : State :=
  s.kLocalPut k addr (storeWhole (tget (s.ksk k).dsram Word.zero (addr % 65536 / 8)) w)

/-- n words read from consecutive local addresses. -/
def State.kLocals (s : State) (k addr n : Nat) : List Word × State :=
  foldN n (fun (p : List Word × State) i =>
    let (w, s) := p.2.kLocal k (addr + 8 * i)
    (p.1 ++ [w], s)) ([], s)

/-- The level at which a context or the handler (4) runs (R433). -/
def State.kCtxLevel (s : State) (k n : Nat) : Nat := if n = 4 ∨ s.kPriv k n then 1 else 0

/-- A popped or peeked entry written where the instruction says, then its status. -/
def State.kEntry (s : State) (k level : Nat) (w : KWait) (status : Nat) (ws : List Word) : State :=
  let s :=
    if w.g then
      match ws with
      | [] => s
      | x :: _ => s.setKsk k ((s.ksk k).setWord w.entry (ldtWord level x))
    else foldN ws.length (fun s i => s.kLocalStore k (w.loc + 8 * i) (sttWord level (ldtWord level (ws.getD i Word.zero)))) s
  s.setKsk k ((s.ksk k).setWord w.dest (Word.data (v64 status)))

/-! ## Stops -/

/-- KSK_CTXn_FAULT written when a context stops. -/
def State.kRecord (s : State) (k n code info pc : Nat) : State :=
  let v := v64 (code % 16 + info % 16 * 16 + pc / 4 % 2 ^ 14 * 2 ^ 16 + 2 ^ 63)
  if k < 256 then s.setReg (kskDie k) (kskUnit k) KSK_CTX_FAULT [n] v
  else s.setReg (kskDie k) (kskUnit k) KSK_CTX_FAULT_H [kskJ k, n] v

/-- A context enters STOPPED: its PC field shows the resume point, STOP reads 0. A stop by an error has written its record already. -/
def State.kHalted (s : State) (k n code : Nat) : State :=
  let q := s.ksk k
  let pc := (q.at n).pc
  let q := if q.running = some n then { q with running := none } else q
  let s := s.setKsk k { q with stopping := terase q.stopping n }
  let s := (s.setCtxState k n 0).setKf k KSK_CTX KSK_CTX_H [n] KSK_CTX_STOP 0
  let s := s.setKf k KSK_CTX KSK_CTX_H [n] KSK_CTX_PC (pc / 4)
  if code = 0 then s.kRecord k n 0 0 pc else s

/-- The waiting queue operation of a context cancelled in the Urn (R460, R408): its instruction ends INTERRUPTED when the Urn removed
it, and otherwise with the answer that the Urn has sent. -/
def State.kCancel (s : State) (k n : Nat) : State :=
  match tfind (s.ksk k).waits n with
  | none => s
  | some w =>
    let ended := fun (s : State) => s.setKsk k { s.ksk k with waits := terase (s.ksk k).waits n }
    match s.urnCancel (.kiosk k n), s.urnAns.find? (fun a => a.who == .kiosk k n) with
    | (true, s), _ => ended (s.kEntry k 0 w 5 [])
    | (false, s), some a => ended ({ s with urnAns := s.urnAns.erase a }.kEntry k (s.kCtxLevel k n) w a.status a.words)
    | (false, s), none => s

/-- R460: a context that is being stopped leaves the kiosk at its next instruction boundary, then waits for its long operations and the
kiosk's stores (R451), and enters STOPPED. -/
def State.kStopOne (s : State) (k n code : Nat) : State :=
  let q := s.ksk k
  let here : Bool := q.running == some n
  if here && !q.handler && s.kBegun k && s.kRuns k then s
  else if q.longs.any (fun l => l.ctx == n) || s.kStoresOut k then
    (s.setKsk k { q with running := if here then none else q.running }).setCtxState k n 2
  else s.kHalted k n code

/-- The contexts that are being stopped go on as far as they can. -/
def State.kStopPoll (s : State) (k : Nat) : State := (s.ksk k).stopping.foldl (fun s p => s.kStopOne k p.1 p.2) s

/-- A context begins to stop, with the CODE of its record. -/
def State.kStopAs (s : State) (k n code : Nat) : State :=
  let s := (s.setKsk k { s.ksk k with stopping := tput (s.ksk k).stopping n code }).setKf k KSK_CTX KSK_CTX_H [n] KSK_CTX_STOP 1
  s.kStopOne k n code

/-- R460: context n stops; its waiting Urn operation is cancelled. -/
def State.kStop (s : State) (k n : Nat) : State :=
  if s.kCtxState k n = 0 ∨ (tfind (s.ksk k).stopping n).isSome then s
  else (if s.kCtxState k n = 2 then s.kCancel k n else s).kStopAs k n 0

/-- Every context stopped. -/
def State.kStopAll (s : State) (k : Nat) : State := foldN 4 (fun s n => s.kStop k n) s

/-- What a kiosk has asked for and no longer waits for: its waiting Urn operations end, answers to it are dropped (R460, R461). -/
def State.kForget (s : State) (k : Nat) : State :=
  let s := foldN 5 (fun s n => (s.urnCancel (.kiosk k n)).2) s
  let mine : QWho → Bool := fun w => match w with
    | .kiosk j _ => j == k
    | .core _ | .function _ | .ipi _ | .hardware => false
  let orphan := fun (m : MmioReq) => match m.who with
    | .kiosk j _ => if j = k then { m with who := .gone } else m
    | .core _ | .config | .peer _ _ | .gone => m
  { s with urnAns := s.urnAns.filter (fun a => !mine a.who),
           io := { s.io with mmio := (s.io.mmio.map orphan).filter (fun m => !(m.who == .gone && m.answer.isSome)) } }

/-- R460: KSK_CTL.RESET: every context stops at once, outstanding long operations are discarded, INTERR, DFAULT, every k
register and control register are cleared, and both SRAMs are kept. -/
def State.kReset (s : State) (k : Nat) : State :=
  let q := s.ksk k
  let lines := q.stale ++ s.kReads k
  let s := s.kForget k
  let s := foldN 4 (fun s n => if s.kCtxState k n = 0 then s else
    (((s.setCtxState k n 0).setKf k KSK_CTX KSK_CTX_H [n] KSK_CTX_STOP 0).setKf k KSK_CTX KSK_CTX_H [n] KSK_CTX_PC
      ((q.at n).pc / 4)).kRecord k n 0 0 (q.at n).pc) s
  let s := (s.setKStat k KSK_STATUS_INTERR false).setKStat k KSK_STATUS_DFAULT false
  s.setKsk k { Kiosk.reset with pos := terase q.pos 4, last := q.last, stale := lines, isram := q.isram, ibad := q.ibad, dsram := q.dsram, dbad := q.dbad }

/-- R461: the tile of a tile kiosk is quarantined: the kiosk stops as by RESET and every contract that names it is
withdrawn with reason ABSENT (3). -/
def State.kQuarantine (s : State) (k : Nat) : State :=
  let s := s.kReset k
  foldN 64 (fun s n =>
    let src : Bool := s.cf n TSV_CCFG TSV_CCFG_SKIND == 1 && s.cf n TSV_CCFG TSV_CCFG_SID == k
    let dst : Bool := s.qf (s.cf n TSV_CCFG TSV_CCFG_QUEUE) URN_QCFG URN_QCFG_IBEN == 0 &&
      s.qf (s.cf n TSV_CCFG TSV_CCFG_QUEUE) URN_QCFG URN_QCFG_CONS == 2 &&
      s.qf (s.cf n TSV_CCFG TSV_CCFG_QUEUE) URN_QCFG URN_QCFG_OWNID == k
    if src || dst then s.withdraw n 3 else s) s

/-! ## Exceptions and interrupts -/

/-- A kiosk exception (Table 14-8): code, INFO, the failing address where there is one, HALF. -/
structure KExc where
  code : Nat
  info : Nat
  addr : Option (BitVec 64)
  half : Bool
  deriving DecidableEq, Repr

/-- An exception with only its code. -/
def KExc.of (code : Nat) : KExc := { code := code, info := 0, addr := none, half := false }
/-- ILLEGAL. -/
def KExc.illegal : KExc := KExc.of 1
/-- PRIVILEGE. -/
def KExc.privilege : KExc := KExc.of 2
/-- ALIGN of an address. -/
def KExc.align (a : BitVec 64) : KExc := { code := 3, info := 0, addr := some a, half := false }
/-- POISON with its source code. -/
def KExc.poison (w : Word) : KExc := { code := 6, info := w.aux.toNat % 16, addr := none, half := false }

/-- Where the program goes on after an instruction (R446). -/
inductive KNext where
  /-- To the next instruction in program order. -/
  | seq
  /-- Past a delay slot that executes, then to a target. -/
  | slot (target : Nat)
  /-- To PC + 8: the slot is annulled. -/
  | annul
  /-- The instruction has set its own position. -/
  | done
  /-- The instruction waits where it is. -/
  | stay
  deriving DecidableEq, Repr

/-- What an instruction of a kiosk does: the state after it, and where the program goes on or the exception raised. -/
abbrev KRes := State × Except KExc KNext

/-- The position after an instruction. -/
def KPos.step (p : KPos) (n : KNext) : KPos :=
  match n with
  | .seq => { pc := p.npc, npc := (p.npc + 4) % 65536, slot := false }
  | .slot t => { pc := (p.pc + 4) % 65536, npc := t % 65536, slot := true }
  | .annul => KPos.at (p.pc + 8)
  | .done => p
  | .stay => p

/-- R453: entry at the handler: KEPC, KENPC and KCAUSE written, IE cleared, the handler's bank and level, and the vector. -/
def State.kEnter (s : State) (k : Nat) (epc enpc : Nat) (cause : BitVec 64) (vec : Nat) : State :=
  let q := s.ksk k
  let cold : Bool := match q.running with
    | some n => !s.kPriv k n
    | none => false
  let (epc, enpc, s) := if q.running.isSome ∨ q.handler then (epc, enpc, s) else
    let (f, s) := s.takeFree
    let (g, s) := s.takeFree
    (field (Config.freeValue f) 2 14 * 4, field (Config.freeValue g) 2 14 * 4, s)
  let q := ((q.setKc 1 (v64 epc)).setKc 2 (v64 enpc)).setKc 3 cause
  let q := { q with handler := true, noctx := q.running.isNone, savedIe := q.ie, pred := if cold then Predictor.cold else q.pred }
  let q := q.setKc 0 (setBit (q.kc 0) 0 false)
  s.setKsk k (q.setPos 4 (KPos.at (field (q.kc 5) 8 8 * 256 + vec)))

/-- KCAUSE of an exception. -/
def kCause (e : KExc) (imprecise : Bool) : BitVec 64 :=
  v64 (e.code % 16 + e.half.toNat * 2 ^ 7 + imprecise.toNat * 2 ^ 8 + e.info % 16 * 2 ^ 12)

/-- R454: a double fault, with the INFO of the exception that the handler raised: every context stops, the one that was running with CODE
0xE. -/
def State.kDouble (s : State) (k info : Nat) : State :=
  let q := s.ksk k
  let pc := (q.at 4).pc
  let s := (s.setKsk k { q with handler := false, noctx := false, half := none }).setKStat k KSK_STATUS_DFAULT true
  let s := match q.running with
    | some n => (s.kRecord k n 0xE info pc).kStopAs k n 0xE
    | none => s
  (s.kStopAll k |>.kErr k { ErrRec.mk1 4 0x07 (kskJ k) pc with walled := s.kWalled k }).kFaultMsg k

/-- An exception taken with the position of the failing instruction. -/
def State.kRaise (s : State) (k : Nat) (e : KExc) (p : KPos) : State :=
  if (s.ksk k).handler then s.kDouble k e.info
  else
    let s := match e.addr with
      | some a => s.setKsk k ((s.ksk k).setKc 4 a)
      | none => s
    s.kEnter k p.pc p.npc (kCause e false) 0

/-- The pending, enabled interrupt cause of lowest number (R456). -/
def Kiosk.irq (q : Kiosk) : Option Nat :=
  if q.ie && !q.handler then [0, 1, 2].find? (fun c => bitOf (q.kc 8) c && bitOf (q.kc 8) (8 + c)) else none

/-- KCAUSE of an interrupt. -/
def kIrqCause (c : Nat) : BitVec 64 := v64 (2 ^ 4 + c * 2 ^ 5)

/-- R453, R456: interrupt entry for a cause. What an instruction abandoned in M has read from memory is dropped (R457). -/
def State.kInterrupt (s : State) (k c : Nat) : State :=
  let s := s.setKsk k { s.ksk k with half := none, stale := (s.ksk k).stale ++ s.kReads k }
  let q := s.ksk k
  let p := q.at q.cur
  s.kEnter k p.pc p.npc (kIrqCause c) (0x40 * (c + 1))

/-- OP of the instruction-SRAM word at a PC. -/
def Kiosk.opAt (q : Kiosk) (pc : Nat) : Nat := field (tget q.isram Word.zero (pc % 65536 / 8)).val (8 * (pc % 8 / 4 * 4) + 26) 6

/-- The oldest fault of the running program's long operations. -/
def Kiosk.lfault (q : Kiosk) : Option KFault := q.lfaults.find? (fun f => f.ctx == q.cur)

/-- R450: the fault of a long operation taken: precise when FENCE.K is the next instruction and stands right after the
operation, not in a delay slot; otherwise imprecise, with CODE unstated. -/
def State.kTakeFault (s : State) (k : Nat) (f : KFault) (isFence : Bool) : State :=
  let q := s.ksk k
  let p := q.at q.cur
  let precise : Bool := (isFence || q.opAt p.pc == 0x38) && p.pc == (f.pc + 4) % 65536 && !p.slot
  let q := { q with lfaults := q.lfaults.erase f }
  let s := s.setKsk k (match f.addr with
    | some a => q.setKc 4 a
    | none => q)
  if q.handler then s.kDouble k f.info
  else if precise then s.kEnter k f.pc ((f.pc + 4) % 65536) (kCause { KExc.of f.code with info := f.info } false) 0
  else
    let (n, s) := s.takeFree
    let q := s.ksk k
    let s := s.setKsk k (q.setKc 9 (v64 (f.pc + 2 ^ 63)))
    s.kEnter k p.pc p.npc (kCause { KExc.of (field (Config.freeValue n) 0 4) with info := f.code } true) 0

/-! ## Running an instruction -/

/-- R449: whether an instruction must wait in D: it uses the destination of a long operation, or a busy unit. -/
def Kiosk.busy (q : Kiosk) (k : Nat) (uses : List (BitVec 4)) (unit : Option Nat) : Bool :=
  let places := (uses.filter (fun r => r != 0)).map (kPlace k q)
  q.longs.any (fun l => places.contains l.dest || unit == some l.kind.unit)

/-- The word that a kiosk's instruction fetch reads at a PC. -/
def Kiosk.wordAt (q : Kiosk) (pc : Nat) : BitVec 32 := (tget q.isram Word.zero (pc % 65536 / 8)).val.extractLsb' (8 * (pc % 8 / 4 * 4)) 32

/-- An event of a hub kiosk counted by its cluster (Table 18-4). -/
def State.kCount (s : State) (k ev : Nat) : State :=
  if k < 256 then s else s.count (kskDie k) (kskUnit k) cntKsk ev 1 (s.kWalled k)

/-- The instruction in M that waits for the Urn completes once the answer has come, from the context's answer latch (R457). -/
def State.kResume (s : State) (k : Nat) (w : KWait) : State :=
  let c := (s.ksk k).cur
  match s.urnAns.find? (fun a => a.who == .kiosk k c) with
  | none => s
  | some a =>
    let s := { s with urnAns := s.urnAns.erase a }.kEntry k (s.kCtxLevel k c) w a.status a.words
    let q := s.ksk k
    let s := s.setKsk k ({ q with waits := terase q.waits c }.setPos c ((q.at c).step .seq))
    ((s.kCount k 4).kCount k 1).kStopPoll k

/-- One instruction of kiosk k: an interrupt or a long operation's fault is taken in its place, by a hub kiosk only when it has not
begun (R458); it waits where R449 says; fetched with R430 and R439; its exceptions are taken by R453 and R454. `uses` are the registers
that it reads or writes, `branch` says that it may not stand in a delay slot (R439). -/
def runKiosk (k : Nat) (uses : List (BitVec 4)) (unit : Option Nat) (branch isFence : Bool) (body : State → KRes) (s : State) :
    Host.Outcome State Fault Refusal :=
  if k ≥ 512 then .fault .absent
  else if !s.kRuns k then .next s
  else
    let q := s.ksk k
    let p := q.at q.cur
    let mid := s.kBegun k
    match if mid then none else q.lfault with
    | some f => .next (s.kTakeFault k f isFence)
    | none =>
      match if mid && decide (k ≥ 256) then none else q.irq with
      | some c => .next (s.kInterrupt k c)
      | none =>
        match tfind q.waits q.cur with
        | some w => .next (s.kResume k w)
        | none =>
          if q.busy k uses unit then .next s
          else
            let bad := tget q.ibad 0 (p.pc / 8)
            let s := if bad = 1 then (s.setKsk k { q with ibad := terase q.ibad (p.pc / 8) }).errCorrected (kskDie k) (kskUnit k) (kskJ k)
              p.pc else s
            if bad ≥ 2 then .next (s.kRaise k (KExc.of 9) p)
            else if (branch && p.slot) || (decodeKiosk (q.wordAt p.pc)).isNone then .next (s.kRaise k KExc.illegal p)
            else
              match body s with
              | (s, .error e) => .next (s.kRaise k e p)
              | (s, .ok n) =>
                match n with
                | .done => .next ((s.kCount k 1).kStopPoll k)
                | .stay => .next s
                | .seq | .slot _ | .annul =>
                  let q := s.ksk k
                  .next (((s.setKsk k (q.setPos q.cur (p.step n))).kCount k 1).kStopPoll k)

/-! ## Register operations -/

/-- A register result: rd written and the program goes on. -/
def State.kDone (s : State) (k : Nat) (rd : BitVec 4) (w : Word) : KRes := (s.setKr k rd w, .ok .seq)

/-- An ALU operation of Table 14-3 on two registers. -/
def kAlu (k : Nat) (o : KR) (f : Word → Word → Word) : State → Host.Outcome State Fault Refusal :=
  runKiosk k [o.rd, o.ra, o.rb] none false false (fun s =>
    if o.fn.toNat ≥ 64 then (s, .error .illegal)
    else s.kDone k o.rd (withPoison [s.kr k o.ra, s.kr k o.rb] (f (s.kr k o.ra) (s.kr k o.rb))))

/-- An ALU operation on values. -/
def kAluV (k : Nat) (o : KR) (f : BitVec 64 → BitVec 64 → BitVec 64) : State → Host.Outcome State Fault Refusal :=
  kAlu k o (fun a b => Word.data (f a.val b.val))

/-- A unary ALU operation: RB must be 0. -/
def kAluU (k : Nat) (o : KR) (f : Nat → Word → Word) : State → Host.Outcome State Fault Refusal :=
  runKiosk k [o.rd, o.ra] none false false (fun s =>
    if o.fn.toNat ≥ 64 ∨ o.rb ≠ 0 then (s, .error .illegal)
    else s.kDone k o.rd (withPoison [s.kr k o.ra] (f (s.kLevel k) (s.kr k o.ra))))

/-- An immediate operation: the immediate sign-extended. -/
def kImm (k : Nat) (o : KI) (f : Word → Word → Word) : State → Host.Outcome State Fault Refusal :=
  runKiosk k [o.rd, o.ra] none false false (fun s =>
    s.kDone k o.rd (withPoison [s.kr k o.ra] (f (s.kr k o.ra) (Word.data (o.imm.signExtend 64)))))

/-- An immediate shift: IMM18[17:6] must be 0. -/
def kShiftI (k : Nat) (o : KI) (f : BitVec 64 → Nat → BitVec 64) : State → Host.Outcome State Fault Refusal :=
  runKiosk k [o.rd, o.ra] none false false (fun s =>
    if o.imm.toNat ≥ 64 then (s, .error .illegal)
    else s.kDone k o.rd (withPoison [s.kr k o.ra] (Word.data (f (s.kr k o.ra).val o.imm.toNat))))

/-- A tag operation of OP 0x1A: RB and FN[13:3] must be 0. -/
def kTag (k : Nat) (o : KR) (kp1Only : Bool) (f : Word → Word) : State → Host.Outcome State Fault Refusal :=
  runKiosk k [o.rd, o.ra] none false false (fun s =>
    if o.rb ≠ 0 ∨ o.fn.toNat ≥ 8 then (s, .error .illegal)
    else if kp1Only ∧ !s.kp1 k then (s, .error .privilege)
    else s.kDone k o.rd (withPoison [s.kr k o.ra] (f (s.kr k o.ra))))

/-- The place where a long operation of the running program writes its result. -/
def State.kDest (s : State) (k : Nat) (rd : BitVec 4) : Nat := kPlace k (s.ksk k) rd

/-- A long operation issued (R449): its operands are read now. -/
def State.kIssue (s : State) (k : Nat) (kind : KLongKind) (rd : BitVec 4) (a b d : Word) (fn : Nat) : KRes :=
  let q := s.ksk k
  let l : KLong := { kind := kind, ctx := q.cur, dest := s.kDest k rd, pc := (q.at q.cur).pc, a := a, b := b, d := d, fn := fn, kp1 := s.kp1 k, moved := 0 }
  (s.setKsk k { q with longs := q.longs ++ [l] }, .ok .seq)

/-- DIV, DIVU, REM and REMU of a kiosk. -/
def kDivide (k : Nat) (o : KR) (kind : KLongKind) : State → Host.Outcome State Fault Refusal :=
  runKiosk k [o.rd, o.ra, o.rb] (some 0) false false (fun s =>
    if o.fn.toNat ≥ 64 then (s, .error .illegal)
    else s.kIssue k kind o.rd (s.kr k o.ra) (s.kr k o.rb) Word.zero 0)

/-! ## Branches -/

/-- A target of the kiosk: (PC + offset × 4) mod 65,536 (R439). -/
def kTarget (pc : Nat) (off : Int) : Nat := (((pc : Int) + 4 * off) % 65536).toNat

/-- The PC of the running program. -/
def State.kPc (s : State) (k : Nat) : Nat := ((s.ksk k).at (s.ksk k).cur).pc

/-- The dimensions of a kiosk's predictor (R447). -/
def kPredDims : PredDims := { base := 1024, tagged := 256, hist := [(4, 8), (12, 8), (32, 8)], btb := 16, ras := 0 }

/-- The predictor of a kiosk changed. -/
def State.kPredict (s : State) (k : Nat) (f : Predictor → Predictor) : State :=
  s.setKsk k { s.ksk k with pred := f (s.ksk k).pred }

/-! ## Queue operations -/

/-- The requester of a kiosk's queue operation. -/
def State.kReq (s : State) (k : Nat) : QReq :=
  { who := .kiosk k (s.ksk k).cur, walled := s.kWalled k, pl := s.kLevel k, vmid := none }

/-- Whether the Urn holds a waiting operation of a requester. -/
def State.urnWaits (s : State) (who : QWho) : Bool := [0, 1].any (fun h => (s.urnHalf h).waiting.any (fun w => w.who == who))

/-- An instruction waits for the Urn (R442). With W = 1 its context leaves the kiosk, the instruction done but for its answer; a
handler, and an instruction with W = 0, wait in M. -/
def State.kWaitFor (s : State) (k : Nat) (w : KWait) (leave : Bool) : KRes :=
  let q := s.ksk k
  let c := q.cur
  if !s.urnWaits (.kiosk k c) then (s, .ok .stay)
  else
    let q := { q with waits := tput q.waits c w }
    if leave && !q.handler then
      ((s.setKsk k { q.setPos c ((q.at c).step .seq) with running := none }).setCtxState k c 2, .ok .done)
    else (s.setKsk k q, .ok .stay)

/-- The common checks of a queue operation: must-be-zero bits, a poison handle, and a poison or misaligned entry address. -/
def kqCheck (bad : Bool) (g : Bool) (a b : Word) : Option KExc :=
  if bad then some .illegal
  else if a.isPoison then some (KExc.poison a)
  else if !g && b.isPoison then some (KExc.poison b)
  else if !g && field b.val 0 3 != 0 then some (KExc.align b.val)
  else none

/-- The wait record of a queue instruction. -/
def State.kWaitOf (s : State) (k : Nat) (o : KR) (kind : WaitKind) (deadline : Option Nat) : KWait :=
  { kind := kind, queue := field (s.kr k o.ra).val 0 16, dest := s.kDest k o.rd, entry := s.kDest k o.rb, g := o.fn.getLsbD 1,
    loc := field (s.kr k o.rb).val 0 16, deadline := deadline }

/-- KQPUSH (R442). -/
def State.kPush (s : State) (k : Nat) (o : KR) : KRes :=
  match kqCheck (decide (o.fn.toNat ≥ 4)) (o.fn.getLsbD 1) (s.kr k o.ra) (s.kr k o.rb) with
  | some e => (s, .error e)
  | none =>
    if s.kStoresOut k then (s, .ok .stay)
    else
      let w := s.kWaitOf k o .push none
      let (ws, s) := if w.g then ([s.kr k o.rb], s) else s.kLocals k w.loc (s.qWords w.queue)
      let ws := ws.map (fun x => sttWord (s.kLevel k) x)
      match s.urnPush (s.kReq k) w.queue ws (o.fn.getLsbD 0) w.g with
      | (.done st _, s) => s.kDone k o.rd (Word.data (v64 st))
      | (.waits, s) => s.kWaitFor k w (o.fn.getLsbD 0)

/-- KQPOP (R442). -/
def State.kPop (s : State) (k : Nat) (o : KR) : KRes :=
  match kqCheck (decide (o.fn.toNat ≥ 4)) (o.fn.getLsbD 1) (s.kr k o.ra) (s.kr k o.rb) with
  | some e => (s, .error e)
  | none =>
    let w := s.kWaitOf k o .pop none
    match s.urnPop (s.kReq k) w.queue (o.fn.getLsbD 0) w.g with
    | (.done st ws, s) => (s.kEntry k (s.kLevel k) w st ws, .ok .seq)
    | (.waits, s) => s.kWaitFor k w (o.fn.getLsbD 0)

/-- KQPEEK: FN[13:1] must be 0, so the entry goes to local words. -/
def State.kPeek (s : State) (k : Nat) (o : KR) : KRes :=
  match kqCheck (decide (o.fn.toNat ≥ 2)) false (s.kr k o.ra) (s.kr k o.rb) with
  | some e => (s, .error e)
  | none =>
    let w := s.kWaitOf k o .pop none
    match s.urnPeek (s.kReq k) w.queue false with
    | (.done st ws, s) => (s.kEntry k (s.kLevel k) w st ws, .ok .seq)
    | (.waits, s) => (s, .ok .stay)

/-- KQWAIT: k[RB] is the timeout in ns, 0 for none. -/
def State.kWaitQ (s : State) (k : Nat) (o : KR) : KRes :=
  let a := s.kr k o.ra
  if o.fn ≠ 0 then (s, .error .illegal)
  else if a.isPoison then (s, .error (KExc.poison a))
  else
    let t := (s.kr k o.rb).val.toNat
    let w := s.kWaitOf k o .wait (if t = 0 then none else some (s.time + t))
    match s.urnWaitOp (s.kReq k) w.queue with
    | (.done st _, s) => s.kDone k o.rd (Word.data (v64 st))
    | (.waits, s) => s.kWaitFor k w true

/-- The wait of a context that has left the kiosk ended with a status and an entry: the context becomes READY. -/
def State.kWakeWith (s : State) (k n : Nat) (w : KWait) (status : Nat) (ws : List Word) : State :=
  let s := s.kEntry k (s.kCtxLevel k n) w status ws
  let s := s.setKsk k { s.ksk k with waits := terase (s.ksk k).waits n }
  if s.kCtxState k n = 2 ∧ (tfind (s.ksk k).stopping n).isNone then s.setCtxState k n 1 else s

/-- R442: the Urn's answer to a waiting context, or the timeout of a KQWAIT, which the kiosk cancels. An instruction that waits in M takes
its answer when it is issued again. Kiosks that do not run take nothing (R29). -/
def State.kWake (s : State) (k n : Nat) : State :=
  let q := s.ksk k
  let inM : Bool := n == 4 || q.running == some n
  match tfind q.waits n with
  | none => s
  | some w =>
    if !s.kOn k then s
    else
      match s.urnAns.find? (fun a => a.who == .kiosk k n) with
      | some a => if inM then s else { s with urnAns := s.urnAns.erase a }.kWakeWith k n w a.status a.words
      | none =>
        if !w.deadline.any (fun t => decide (s.time ≥ t)) then s
        else
          match s.urnCancel (.kiosk k n) with
          | (true, s) => if inM then s.answer (.kiosk k n) w.queue 4 [] else s.kWakeWith k n w 4 []
          | (false, s) => s

/-! ## Control registers -/

/-- Level that reads a kiosk control register: false KP0, true KP1; none for a number not in Table 14-5. -/
def kcrRead (n : Nat) : Option Bool :=
  match n with
  | 0x00 | 0x06 | 0x0A => some false
  | 0x01 | 0x02 | 0x03 | 0x04 | 0x05 | 0x07 | 0x08 | 0x09 | 0x0B => some true
  | _ => none

/-- The value of a kiosk control register as KRDC reads it. -/
def State.kcrValue (s : State) (k n : Nat) : BitVec 64 :=
  let q := s.ksk k
  if n = 0 then
    v64 (q.ie.toNat + q.handler.toNat * 2 + (s.kp1 k).toNat * 4 + q.running.getD 0 * 8 + (q.handler && q.noctx).toNat * 32)
  else if n = 6 then v64 s.time
  else q.kc n

/-- KWRC: the value bits written where the fields of Table 14-5 are writable; read-only registers keep their value. -/
def Kiosk.kcrWrite (q : Kiosk) (n : Nat) (v : BitVec 64) : Kiosk :=
  match n with
  | 0x00 => q.setKc 0 (v &&& 1)
  | 0x01 => q.setKc 1 (v &&& 0xFFFC)
  | 0x02 => q.setKc 2 (v &&& 0xFFFC)
  | 0x03 => q.setKc 3 (v &&& 0xF1FF)
  | 0x04 => q.setKc 4 v
  | 0x05 => q.setKc 5 (v &&& 0xFF00)
  | 0x07 => q.setKc 7 v
  | 0x08 => q.setKc 8 ((v &&& 0x700) ||| (q.kc 8 &&& 7 &&& ~~~ v))
  | 0x09 => q.setKc 9 ((v &&& 0xFFFC) ||| (q.kc 9 &&& v &&& 0x8000000000000000))
  | 0x0A => q.setKc 10 v
  | _ => q

/-- KRET (R453), and the chain of a hub kiosk (R458). -/
def State.kReturn (s : State) (k : Nat) : State :=
  let q := s.ksk k
  let chained : Option Nat :=
    if k ≥ 256 ∧ q.handler ∧ q.savedIe then [0, 1, 2].find? (fun c => bitOf (q.kc 8) c && bitOf (q.kc 8) (8 + c)) else none
  match chained with
  | some c => s.setKsk k ((q.setKc 3 (kIrqCause c)).setPos 4 (KPos.at (field (q.kc 5) 8 8 * 256 + 0x40 * (c + 1))))
  | none =>
    let epc := (q.kc 1).toNat % 65536
    let enpc := (q.kc 2).toNat % 65536
    let old := q.at (q.running.getD 0)
    let p : KPos := { pc := epc, npc := enpc, slot := if old.pc = epc ∧ old.npc = enpc then old.slot else decide (enpc ≠ (epc + 4) % 65536) }
    let cold : Bool := match q.running with
      | some n => !s.kPriv k n
      | none => false
    let q := q.setKc 0 (setBit (q.kc 0) 0 q.savedIe)
    let q := { q with handler := false, noctx := false, pred := if cold then Predictor.cold else q.pred }
    match q.running with
    | some n => s.setKsk k (q.setPos n p)
    | none => s.setKsk k q

/-! ## Dispatch and control -/

/-- R434: the next READY context in round-robin order starts to run. -/
def State.kDispatch (s : State) (k : Nat) : State :=
  let q := s.ksk k
  if !s.kOn k || !s.kEn k || s.kStat k KSK_STATUS_DFAULT || s.kStat k KSK_STATUS_INTERR ||
      s.kStat k KSK_STATUS_SRAM_CLR || q.handler || q.running.isSome then s
  else
    match ([1, 2, 3, 4].map (fun i => (q.last + i) % 4)).find? (fun n => s.kCtxState k n == 1) with
    | none => s
    | some n =>
      (s.setKsk k { q with running := some n, last := n, pred := if n = q.last then q.pred else Predictor.cold }).setCtxState k n 3

/-- The running context's slice ends at an instruction boundary (R434, YIELD): it becomes READY. -/
def State.kSliceEnd (s : State) (k : Nat) : State :=
  let q := s.ksk k
  match q.running with
  | some n => if q.handler || s.kBegun k then s else (s.setKsk k { q with running := none }).setCtxState k n 1
  | none => s

/-- A write of KSK_DOORBELL (R456). -/
def State.kDoorbell (s : State) (k : Nat) (msg : BitVec 64) : State :=
  let q := s.ksk k
  let s := if bitOf (q.kc 8) 0 then s.setKStat k KSK_STATUS_MSG_OVR true else s
  s.setKsk k ((q.setKc 11 msg).pend 0)

/-- A write of KSK_CTL.EN (R460). -/
def State.kEnable (s : State) (k : Nat) (en : Bool) : State :=
  let s := s.setKf k KSK_CTL KSK_CTL_H [] KSK_CTL_EN en.toNat
  if en then s else s.kStopAll k

/-- A write of KSK_CTL.WORLD (R432): with EN = 0 and by a Walled access only; on X1 the bit cannot be written. A change zeroes
both SRAMs and every context register, the handler's bank among them (DEDUCED, entry 59). -/
def State.kWorld (s : State) (k : Nat) (world walled : Bool) : State :=
  if s.kWalled k = world then s
  else if s.part = .x1 then s
  else if s.kEn k || !walled then s.setKStat k KSK_STATUS_REFUSED true
  else
    let q := s.ksk k
    let s := s.setKf k KSK_CTL KSK_CTL_H [] KSK_CTL_WORLD world.toNat
    let s := s.setKsk k { q with regs := [], isram := [], ibad := [], dsram := [], dbad := [] }
    s.setKStat k KSK_STATUS_SRAM_CLR true

/-- KSK_CTXn.GO (Table 14-1). -/
def State.kGo (s : State) (k n : Nat) : State := if s.kCtxState k n = 0 ∧ s.kEn k then s.setCtxState k n 1 else s

/-- R455: the stores and pushes of a kiosk that have been issued write poison 0x06. -/
def State.kSpoil (s : State) (k : Nat) : State :=
  let bad := fun (ws : List Word) => ws.map (fun _ => Word.poison 0x06)
  let mine := fun (m : Msg) => (m.src == kskAgent k || m.src == kskEngine k) && m.kind == .wrInv
  let spoil := fun (l : List Msg) => l.map (fun m => if mine m then { m with data := bad m.data } else m)
  let push : QWho → Bool := fun w => match w with
    | .kiosk j _ => j == k
    | .core _ | .function _ | .ipi _ | .hardware => false
  let s := [0, 1].foldl (fun (s : State) h =>
    let u := s.urnHalf h
    s.setUrn h { u with waiting := u.waiting.map (fun w => if push w.who then { w with words := bad w.words } else w) }) s
  { s with net := spoil s.net, nacked := spoil s.nacked }

/-- R455: an internal uncorrectable error: every context stops with CODE 0xF; what has been issued completes. -/
def State.kInternal (s : State) (k : Nat) : State :=
  let q := s.ksk k
  let s := (s.setKsk k { q with handler := false, noctx := false, half := none }).setKStat k KSK_STATUS_INTERR true
  let s := foldN 4 (fun s n => if s.kCtxState k n = 0 then s else (s.kRecord k n 0xF 0 (q.at n).pc).kStopAs k n 0xF) s
  (s.kSpoil k |>.kErr k { ErrRec.mk1 4 0x08 (kskJ k) 0 with walled := s.kWalled k }).kFaultMsg k

end Sys2Proof.Machine
end

