-- ==== Sys2Proof/Machine/Pcie.lean ====
section
/-! DEFINITION. PCI configuration accesses and their effects (R465, R473, R475, R484 to R489), hot-plug frames, function level
resets, and downstream reads that wait for completions (R468). -/
set_option autoImplicit false
namespace Sys2Proof.Machine

/-- An event of an x16 port (Table 18-4), with its bytes in 64-byte units: 1 and 3 for a packet received, 2 and 4 for one sent. -/
def State.portTlp (s : State) (rp : Nat) (sent : Bool) (bytes : Nat) : State :=
  let d := 8 + rp / 20
  let u := 0x10 + rp % 20 / 4
  let e := if sent then 2 else 1
  (s.count d u cntPort e 1 false).count d u cntPort (e + 2) ((bytes + 63) / 64) false

/-! ## Slots -/

/-- The slot of a root port. -/
def State.slot (s : State) (rp : Nat) : Slot := tget s.io.slots Slot.reset rp
/-- The slot of a root port written. -/
def State.setSlot (s : State) (rp : Nat) (x : Slot) : State := { s with io := { s.io with slots := tset s.io.slots Slot.reset rp x } }

/-- PWR_EN of a slot: Power Controller Control on is 0 in Slot Control [10]. -/
def State.pwrEn (s : State) (rp : Nat) : Bool := s.cfgF (rpRid rp) 0x16 10 1 == 0

/-- R489: a Slot Control write: the outputs replace those not yet sent. -/
def State.slotControl (s : State) (rp : Nat) (v : Nat) : State :=
  if !s.rpHp rp then s
  else
    let was := s.pwrEn rp
    let s := s.setCfgF (rpRid rp) 0x16 0 13 v
    let x := s.slot rp
    s.setSlot rp { x with unsent := true, pwrSince := if s.pwrEn rp then (if was then x.pwrSince else some s.time) else none }

/-- A slot status bit set, with the hot-plug message when its enable and HPIE are set (R470). -/
def State.slotEvent (s : State) (rp bit en : Nat) : State :=
  let r := rpRid rp
  let s := s.setCfgF r 0x16 (16 + bit) 1 1
  if s.cfgF r 0x16 en 1 = 1 ∧ s.cfgF r 0x16 5 1 = 1 then s.msixSend r 0 else s

/-- The output bits of a root position in a hot-plug frame (Table 15-10). -/
def State.slotOut (s : State) (rp : Nat) : Nat :=
  if !s.rpHp rp then 0
  else (s.pwrEn rp).toNat + s.cfgF (rpRid rp) 0x16 6 2 * 2 + s.cfgF (rpRid rp) 0x16 8 2 * 8

/-- R489: the input bits of a root position in a frame. -/
def State.slotIn (s : State) (rp bits : Nat) : State :=
  if !s.rpHp rp then s
  else
    let x := s.slot rp
    let p := natBit bits 0
    let equal := if p = x.prsnt then min (x.equal + 1) 2500 else 1
    let attn := if natBit bits 1 then min (x.attn + 1) 9 else 0
    let watch : Bool := match x.pwrSince with
      | some t => s.pwrEn rp && decide (s.time > t + 100000000)
      | none => false
    let noPg := if watch && !natBit bits 2 then min (x.noPg + 1) 5 else 0
    let unsent := x.unsent
    let s := s.setSlot rp { x with prsnt := p, equal := equal, attn := attn, noPg := noPg, unsent := false }
    let s := if equal = 2500 ∧ s.cfgF (rpRid rp) 0x16 22 1 ≠ p.toNat then (s.setCfgF (rpRid rp) 0x16 22 1 p.toNat).slotEvent rp 3 3 else s
    let s := if attn = 8 then s.slotEvent rp 0 0 else s
    let s := if noPg = 4 then s.slotEvent rp 1 1 else s
    if unsent then s.slotEvent rp 4 4 else s

/-- R488: one hot-plug frame of x16 port 5 × I/O die + p; a port with no HP root port sends none (R618). -/
def State.slotFrame (s : State) (port bits : Nat) : State :=
  if !(List.range 4).any (fun r => s.rpHp (4 * port + r)) then s
  else
    let out := (List.range 4).foldl (fun n r => n + s.slotOut (4 * port + r) * 2 ^ (8 * r)) 0
    foldN 4 (fun s r => s.slotIn (4 * port + r) (bits / 2 ^ (8 * r) % 256)) (s.emit (.slotFrame port out))

/-- The reference output of a root position takes what CLK_REFOUT asks for while the root port's link is down (R538). -/
def State.refApply (s : State) (rp : Nat) : State :=
  let v := s.reg (8 + rp / 20) 0x03C CLK_REFOUT []
  let want := (bitOf v (rp % 20)).toNat + 2 * (bitOf v (20 + rp % 20)).toNat
  if tget s.io.linkUp false rp ∨ tget s.io.refOut 0 rp = want then s
  else { s with io := { s.io with refOut := tset s.io.refOut 0 rp want } }

/-- A root port's link goes up or down: Link Status shows it, and Data Link Layer State Changed follows on a hot-plug port (R489). -/
def State.rpLinkSet (s : State) (rp : Nat) (up : Bool) : State :=
  let was := tget s.io.linkUp false rp
  let s := { s with io := { s.io with linkUp := tset s.io.linkUp false rp up } }
  let s := (s.setCfgF (rpRid rp) 0x14 29 1 up.toNat).refApply rp
  if was != up && s.rpHp rp then s.slotEvent rp 8 12 else s

/-! ## Function level reset -/

/-- R486 step 1: an FLR starts. -/
def State.flrStart (s : State) (rid : Nat) : State :=
  if (s.fnOf rid).integrated then s.setCfgF rid 0x85 0 1 1 else s

/-- R486 step 4 for a VF: its 31 queues are drained. -/
def State.vfDrain (s : State) (i v : Nat) : State :=
  foldN 31 (fun s j =>
    let q := 32768 * i + 31 * v + j
    let u := s.urnHalf i
    let held := u.hold.any (fun e => e.queue == q)
    let n := s.qCount q
    let s := s.setUrn i { u with hold := u.hold.filter (fun e => e.queue != q), caddy := u.caddy.filter (fun e => e.queue != q) }
    let s := if n = 0 then s else
      ((s.setQf q URN_QPTR URN_QPTR_HEAD (s.qTail q)).setQf q URN_QPTR URN_QPTR_SEQ ((s.qSeq q + n) % 2 ^ 16)).addQf q URN_QSTAT
        URN_QSTAT_DROPS n
    if n ≠ 0 ∨ held then s.setCfgF (vfRid i v) 0x86 j 1 1 else s) s

/-- The requesters of a function's downstream reads: the kiosks of a cluster. -/
def fnAsks (f : Fn) (who : IoAsk) : Bool :=
  match f, who with
  | .cluster c, .kiosk k _ => (clKiosks c).contains k
  | _, _ => false

/-- R486 step 5: the configuration space returns to its reset values but for sticky AER fields and WORLD. -/
def State.cfgClear (s : State) (rid : Nat) : State :=
  let world := s.cfgGet rid 0x83
  let kept := fun (k : Nat) => k / 1024 != rid || within 0x41 (k % 1024) 0x45
  let s := { s with io := { s.io with cfg := s.io.cfg.filter (fun p => kept p.1), msix := s.io.msix.filter (fun p => p.1 / 1024 != rid) } }
  s.cfgSet rid 0x83 world

/-- R486 steps 3 to 5. -/
def State.flrDone (s : State) (rid : Nat) : State :=
  let f := s.fnOf rid
  if !f.integrated ∨ s.cfgF rid 0x85 0 1 = 0 then s
  else
    let gone := s.io.mmio.filter (fun m => fnAsks f m.who && m.answer.isNone)
    let s := { s with io := { s.io with mmio := s.io.mmio.filter (fun m => !(fnAsks f m.who && m.answer.isNone)),
                                        late := s.io.late ++ gone.map (fun (m : MmioReq) => (m.port, rid)) } }
    let drained := s.cfgGet rid 0x86
    let s := match f with
      | .cluster c =>
        let s := (clKiosks c).foldl (fun (s : State) k =>
          if s.kWalled k then s
          else
            let s := s.kReset k
            s.setKsk k { s.ksk k with isram := [], ibad := [], dsram := [], dbad := [] }) s
        { s with io := { s.io with atc := terase s.io.atc c } }
      | .vf i v => s.vfDrain i v
      | .pf i => foldN 1024 (fun s v => if s.vfOn i v then s.vfDrain i v else s) s
      | .root _ | .none => s
    let d := match f with
      | .vf _ _ => s.cfgGet rid 0x86
      | .cluster _ | .pf _ | .root _ | .none => drained
    let s := s.cfgClear rid
    let s := match f with
      | .vf _ _ => s.cfgSet rid 0x86 d
      | .cluster _ | .pf _ | .root _ | .none => s
    (s.setCfgF rid 0x85 0 1 0).setCfgF rid 0x85 1 1 1

/-! ## Configuration accesses -/

/-- Where a configuration request goes (R465). -/
inductive CfgTarget where
  | fn
  | below (rp : Nat)
  | absent
  deriving DecidableEq, Repr

/-- R465: the target of a configuration request for a routing ID. -/
def State.cfgTarget (s : State) (rid : Nat) : CfgTarget :=
  match s.fnOf rid with
  | .none =>
    let bus := rid / 256
    match (List.range 20).find? (fun k =>
        let r := rpRid (rid / 0x8000 * 20 + k)
        s.rpExists (rid / 0x8000 * 20 + k) && decide (5 ≤ bus % 128) && within (s.cfgF r 6 8 8) bus (s.cfgF r 6 16 8)) with
    | some k => .below (rid / 0x8000 * 20 + k)
    | none => .absent
  | .root _ | .cluster _ | .pf _ | .vf _ _ => .fn

/-- A configuration dword written with a byte-enable mask, with its effects: FLR, slot control, VF Enable. -/
def State.cfgWriteFn (s : State) (rid d : Nat) (v : BitVec 32) (be : Nat) (walled : Bool) : State :=
  let f := s.fnOf rid
  let old := s.cfgGet rid d
  let lane : BitVec 32 := (List.range 4).foldl (fun m k => if natBit be k then m ||| (0xFF : BitVec 32) <<< (8 * k) else m) 0
  let (rw, w1c) := cfgMask f d
  let rwm : BitVec 32 := BitVec.ofNat 32 rw &&& lane
  let w1m : BitVec 32 := BitVec.ofNat 32 w1c &&& lane
  let new := ((old &&& ~~~ rwm) ||| (v &&& rwm)) &&& ~~~ (v &&& w1m)
  if f.integrated && s.fnWalled rid && !walled then s
  else if d = 0x83 then
    if f.integrated && walled && s.part == .a1 && natBit be 0 then s.setCfgF rid 0x83 0 1 (v.toNat % 2) else s
  else if d = 0x16 then
    match f with
    | .root rp =>
      let s := s.cfgSet rid d ((old &&& ~~~ (v &&& w1m)))
      if natBit be 0 || natBit be 1 then s.slotControl rp ((new.toNat) % 2 ^ 13) else s
    | .cluster _ | .pf _ | .vf _ _ | .none => s
  else
    let s := s.cfgSet rid d new
    let s := if d = 1 ∨ d = 0x20 then s.msixFlush rid else s
    if d = 0x12 ∧ natBit be 1 ∧ v.getLsbD 15 ∧ f.integrated then s.flrStart rid else s

/-- A configuration read of a dword; none where it goes below a root port. -/
def State.cfgRead (s : State) (rid d : Nat) : Option (BitVec 32) :=
  match s.cfgTarget rid with
  | .fn => some (s.cfgGet rid (d % 1024))
  | .below _ => none
  | .absent => some 0xFFFFFFFF

/-- A configuration write. -/
def State.cfgWrite (s : State) (rid d : Nat) (v : BitVec 32) (be : Nat) (walled : Bool) : State :=
  match s.cfgTarget rid with
  | .fn => s.cfgWriteFn rid (d % 1024) v be walled
  | .below rp => (s.emit (.portWrite rp (rid * 4096 + 4 * d) 4 (v.setWidth 64) true)).portTlp rp true 4
  | .absent => s

/-- R484, R485: Bus Master Enable of a function of the package cleared. -/
def State.bmeClear (s : State) (rid : Nat) (walled : Bool) : State :=
  match s.cfgTarget rid with
  | .fn => s.cfgWriteFn rid 1 ((s.cfgGet rid 1) &&& 0xFFFFFFFB &&& 0x0000FFFF) 1 walled
  | .below _ | .absent => s

/-! ## Downstream requests -/

/-- The downstream reads with one of them replaced, or removed. -/
def State.setMmio (s : State) (l : List MmioReq) : State := { s with io := { s.io with mmio := l } }

/-- R463: the most downstream reads that a root port has outstanding. -/
def rpTags : Nat := 1024

/-- The oldest downstream read of a root port that has not been sent goes out when a tag is free (R463). -/
def State.mmioNext (s : State) (rp : Nat) : State :=
  match s.io.mmio.find? (fun m => m.port == rp && !m.sent) with
  | some m =>
    if (s.io.mmio.filter (fun x => x.port == rp && x.sent && x.answer.isNone)).length ≥ rpTags then s
    else ((s.setMmio (s.io.mmio.map (fun x => if x = m then { x with sent := true } else x))).emit (.portRead rp m.addr m.size m.cfg)).portTlp rp true 0
  | none => s

/-- R468: a read sent below a root port for a requester, and its answer once it has come. -/
def State.mmioAsk (s : State) (who : IoAsk) (rp addr size : Nat) (cfg : Bool) : Option (BitVec 64) × State :=
  match s.io.mmio.find? (fun m => m.who == who && m.port == rp && m.addr == addr && m.size == size) with
  | some m =>
    match m.answer with
    | some v => (some v, s.setMmio (s.io.mmio.erase m))
    | none => (none, s)
  | none =>
    let s := match who with
      | .kiosk k _ => s.iselSend k addr true (s.kWalled k)
      | .core _ | .config | .peer _ _ | .gone => s
    (none, (s.setMmio (s.io.mmio ++ [{ who := who, port := rp, addr := addr, size := size, cfg := cfg, sent := false, answer := none }])).mmioNext rp)

/-- The oldest unanswered read of a root port answered. A peer's read (R482) is answered to its function. -/
def State.mmioAnswer (s : State) (rp : Nat) (vs : List (BitVec 64)) (status : Nat) (poisoned : Bool) : Option State :=
  let v : BitVec 64 := if status ≠ 0 || poisoned then 0xFFFFFFFFFFFFFFFF else vs.headD 0
  match s.io.mmio.find? (fun (m : MmioReq) => m.port == rp && m.sent && m.answer.isNone) with
  | none => none
  | some m =>
    let rest := (s.setMmio (s.io.mmio.erase m)).mmioNext rp
    match m.who with
    | .peer p rid => some ((rest.iselRead (520 + p / 4) m.addr true 0).emit (.tlpCompletion rid status (if status = 0 then vs else []) poisoned))
    | .config => some (rest.emit (.cfg (m.addr / 4096) (m.addr % 4096 / 4) (v.setWidth 32)))
    | .gone => some rest
    | .core _ | .kiosk _ _ =>
      let s := match m.who with
        | .kiosk k _ => s.iselRead k m.addr true 0
        | .core _ | .config | .peer _ _ | .gone => s
      let m2 : MmioReq := { m with answer := some v }
      some ((s.setMmio (s.io.mmio.map (fun (x : MmioReq) => if x = m then m2 else x))).mmioNext rp)

/-- R468, R486: a completion at a root port: status 0 Successful, 1 Unsupported Request, 2 Completer Abort. An unsuccessful or
poisoned one gives all ones and is logged in AER; one for a request that an FLR gave up is discarded and counted. -/
def State.pcieCompletion (s : State) (rp status : Nat) (data : List (BitVec 64)) (poisoned : Bool) : State :=
  let bad := status ≠ 0 || poisoned
  let s := s.portTlp rp false (8 * data.length)
  match s.mmioAnswer rp data status poisoned with
  | some s =>
    if !bad then s
    else (s.aerLog (rpRid rp) (if poisoned then 12 else if status = 1 then 20 else 15)).msixSend (rpRid rp) 1
  | none =>
    match s.io.late.find? (fun p => p.1 == rp) with
    | some p =>
      let s := { s with io := { s.io with late := s.io.late.erase p } }
      s.setCfgF p.2 0x85 16 16 (satAdd (s.cfgF p.2 0x85 16 16) 1 16)
    | none => (s.aerLog (rpRid rp) 16).msixSend (rpRid rp) 1

/-- R468: a completion timeout of the oldest read at a root port. -/
def State.mmioTimeout (s : State) (rp : Nat) : State :=
  match s.mmioAnswer rp [] 1 false with
  | some s => (s.aerLog (rpRid rp) 14).msixSend (rpRid rp) 1
  | none => s

/-- R468: an unclaimed MMIO access at an I/O die. -/
def State.unclaimed (s : State) (i : Nat) : State := s.setFld (8 + i) 0x039 IOM_STATUS [] IOM_STATUS_UNCLAIMED 1

/-! ## Peer windows -/

/-- R482: the enabled window of the active bank of I/O die i that contains an address and admits a source. -/
def State.peerWindow (s : State) (i src pa : Nat) : Option Nat :=
  let b := s.fld (8 + i) 0x039 IOM_PWIN_CTL [] IOM_PWIN_CTL_ACTIVE
  ((List.range 64).find? (fun n =>
    let base := s.reg (8 + i) 0x039 IOM_PWIN_BASE [b, n]
    bitOf base 0 && within (field base 12 40) (pa / 4096) (s.fld (8 + i) 0x039 IOM_PWIN_LIM [b, n] IOM_PWIN_LIM_LIMIT) &&
      natBit (s.fld (8 + i) 0x039 IOM_PWIN_SRC [b, n] IOM_PWIN_SRC_SRC) src)).map (fun n => s.fld (8 + i) 0x039 IOM_PWIN_BASE [b, n] IOM_PWIN_BASE_TARGET)

/-- R483: COMMIT: every ingress switches banks between two TLPs, so the switch is one step. -/
def State.pwinCommit (s : State) (i : Nat) : State :=
  let a := s.fld (8 + i) 0x039 IOM_PWIN_CTL [] IOM_PWIN_CTL_ACTIVE
  (s.setFld (8 + i) 0x039 IOM_PWIN_CTL [] IOM_PWIN_CTL_ACTIVE (1 - a)).setFld (8 + i) 0x039 IOM_PWIN_CTL [] IOM_PWIN_CTL_COMMIT 0

end Sys2Proof.Machine
end

