-- ==== Sys2Proof/Machine/Power.lean ====
section
/-! DEFINITION. Power domains, performance levels, the current governor, caps and package sleep (17_power_clocks.md), with the
Walled world's hold on domains (R505). -/
set_option autoImplicit false
namespace Sys2Proof.Machine

/-! ## Domains -/

/-- The classes of Table 17-3. -/
inductive DomCls where
  | tile | chan | port | fb | cluster | fixed
  deriving DecidableEq, Repr

/-- Die, unit and index of a domain's registers (Table 17-2). -/
def domLoc (dom : Nat) : Nat × Nat × Nat :=
  if dom < 0x200 then (dom / 0x40, 0x050, dom % 0x40) else (8 + (dom - 0x200) / 0x40, 0x03C, dom % 0x40)

/-- The class of a domain with registers; none for a number that names no such domain (Table 17-2). -/
def domCls (dom : Nat) : Option DomCls :=
  let k := dom % 0x40
  if dom < 0x200 then
    if k < 32 then some .tile else if k = 0x3F then some .fixed else none
  else if dom < 0x280 then
    if k < 8 then some .chan else if k < 13 then some .port else if k < 16 then some .fb else if k < 24 then some .cluster
    else if k < 28 then some .fixed else none
  else none

/-- The domain of a logical tile. -/
def tileDom (lt : Nat) : Nat := 0x40 * ltDie lt + ltIdx lt
/-- The logical tile of a tile domain. -/
def domTile (dom : Nat) : Nat := 32 * (dom / 0x40) + dom % 0x40

/-- The register of a domain: its form on a compute die or an I/O die. -/
def domReg (dom : Nat) (c i : RegDef) : RegDef := if dom < 0x200 then c else i

/-- A field of a register of a domain. -/
def State.domF (s : State) (dom : Nat) (c i : RegDef) (f : RField) : Nat :=
  s.fld (domLoc dom).1 (domLoc dom).2.1 (domReg dom c i) [(domLoc dom).2.2] f
/-- A field of a register of a domain written. -/
def State.setDomF (s : State) (dom : Nat) (c i : RegDef) (f : RField) (x : Nat) : State :=
  s.setFld (domLoc dom).1 (domLoc dom).2.1 (domReg dom c i) [(domLoc dom).2.2] f x

/-- A field of PWR_DOM_CTL. -/
def State.domCtl (s : State) (dom : Nat) (f : RField) : Nat := s.domF dom PWR_DOM_CTL PWR_DOM_CTL_I f
/-- A field of PWR_DOM_VOTE. -/
def State.domVote (s : State) (dom : Nat) (f : RField) : Nat := s.domF dom PWR_DOM_VOTE PWR_DOM_VOTE_I f
/-- A field of PWR_DOM_STATUS. -/
def State.domSt (s : State) (dom : Nat) (f : RField) : Nat := s.domF dom PWR_DOM_STATUS PWR_DOM_STATUS_I f
/-- A field of PWR_DOM_STATUS written. -/
def State.setDomSt (s : State) (dom : Nat) (f : RField) (x : Nat) : State :=
  s.setDomF dom PWR_DOM_STATUS PWR_DOM_STATUS_I f x

/-- Whether a domain is Walled-held (R505). On PM-8512-X1 none is (Table 16-5). -/
def State.wHeld (s : State) (dom : Nat) : Bool := s.part == .a1 && s.domVote dom PWR_DOM_VOTE_WALLED != 0

/-- The states of Table 17-3 below the running state. -/
def lowOk (c : DomCls) (t : Nat) : Bool :=
  match c with
  | .tile => within 1 t 3
  | .chan => within 1 t 3
  | .port => t == 1 || t == 3
  | .fb => t == 1
  | .cluster => t == 3
  | .fixed => false

/-- Whether some contract is admitted (R425). -/
def State.contracts (s : State) : Bool := (List.range 64).any (fun n => s.cf n TSV_CCFG TSV_CCFG_VALID != 0)

/-- Whether a channel (8 × I/O die + channel) is used by an enabled MEM_RANGE (Table 17-3). -/
def State.chanUsed (s : State) (ch : Nat) : Bool :=
  (List.range 4).any (fun n => field (s.memRange n) 44 2 == 1 || field (s.memRange n) 44 2 == 2 + ch / 8)

/-- Whether an x16 port (5 × I/O die + port) may not take D3: an enabled CXL window, or a contract's source on it. -/
def State.portBound (s : State) (p : Nat) : Bool :=
  (List.range 8).any (fun k =>
      let r := s.reg (8 + k / 4) 0x039 IOM_CXLWIN [k % 4]
      field r IOM_CXLWIN_EN.lo 1 != 0 && 5 * (k / 4) + field r IOM_CXLWIN_PORT.lo 3 == p) ||
    (List.range 64).any (fun n =>
      let sid := s.cf n TSV_CCFG TSV_CCFG_SID
      s.cf n TSV_CCFG TSV_CCFG_VALID != 0 && s.cf n TSV_CCFG TSV_CCFG_SKIND == 3 && sid % 8 + 5 * (sid / 8 % 2) == p)

/-- Why a request for a state of a domain is refused: 1 not targetable, 4 T4, 2 STATE (Table 17-3, R525, R533). -/
def State.domRefusal (s : State) (dom t : Nat) : Option Nat :=
  match domCls dom with
  | none => some 1
  | some c =>
    let st := s.domSt dom PWR_DOM_STATUS_STATE
    let io := 8 * ((dom - 0x200) / 0x40) + dom % 0x40
    if !(lowOk c t || (t == 0 && c != .fixed)) then some 1
    else if st = 4 then some 4
    else
      let bad : Bool := match c with
        | .chan => (t == 3 && s.chanUsed io) || (t != 3 && st == 3 && s.mode != .m4 && s.mode != .m8)
        | .port => t == 3 && s.portBound (5 * ((dom - 0x200) / 0x40) + dom % 0x40 - 8)
        | .cluster => t == 3 && (List.range 16).any (fun j => s.kEn (256 + 128 * ((dom - 0x200) / 0x40) + 16 * (dom % 0x40 - 16) + j))
        | .tile | .fb | .fixed => false
      if bad then some 2 else none

/-- R528: the logical cores of a tile that exist are idle. -/
def State.tileIdle (s : State) (lt : Nat) : Bool :=
  [2 * lt, 2 * lt + 1].all (fun lc => !s.coreExists lc || (s.core lc).wait.isSome)

/-- R528: whether a tile may begin to go to a lower state. -/
def State.lowerOk (s : State) (lt t : Nat) : Bool :=
  s.tileIdle lt && (t != 2 || (List.range 4).all (fun n => s.kCtxState lt n == 0 || s.kCtxState lt n == 2)) &&
    (t != 3 || !s.kEn lt)

/-- R526: a request that has not been refused arrives. One that lowers a tile waits for R528. -/
def State.powerReq (s : State) (dom t : Nat) : State :=
  let st := s.domSt dom PWR_DOM_STATUS_STATE
  let wait := fun (s : State) => (s.setDomSt dom PWR_DOM_STATUS_PEND 1).setDomSt dom PWR_DOM_STATUS_PTGT t
  let clear := fun (s : State) =>
    let s := s.setDomSt dom PWR_DOM_STATUS_PEND 0
    { s with pwr := { s.pwr with lower := s.pwr.lower.filter (fun d => d != dom) } }
  if s.domSt dom PWR_DOM_STATUS_BUSY ≠ 0 then
    if s.domSt dom PWR_DOM_STATUS_PROG = t then clear s else wait s
  else if st = t then clear s
  else if domCls dom = some .tile ∧ t > st ∧ !s.lowerOk (domTile dom) t then
    let s := wait s
    { s with pwr := { s.pwr with lower := s.pwr.lower.filter (fun d => d != dom) ++ [dom] } }
  else ((clear s).setDomSt dom PWR_DOM_STATUS_BUSY 1).setDomSt dom PWR_DOM_STATUS_PROG t

/-- A request, refused with its reason or accepted (R525, R526). -/
def State.domRequest (s : State) (dom t : Nat) : State :=
  match s.domRefusal dom t with
  | some r => if (domCls dom).isNone then s
    else (s.setDomSt dom PWR_DOM_STATUS_REFUSED 1).setDomSt dom PWR_DOM_STATUS_REASON r
  | none => (s.setDomF dom PWR_DOM_CTL PWR_DOM_CTL_I PWR_DOM_CTL_TARGET t).powerReq dom t

/-- R528: pending requests whose conditions have come to hold begin. -/
def State.powerPoll (s : State) : State :=
  s.pwr.lower.foldl (fun (s : State) dom =>
    let t := s.domSt dom PWR_DOM_STATUS_PTGT
    if s.domSt dom PWR_DOM_STATUS_PEND ≠ 0 ∧ s.domSt dom PWR_DOM_STATUS_BUSY = 0 ∧ s.lowerOk (domTile dom) t then s.powerReq dom t
    else s) s

/-! ## Held packets -/

/-- The packets held for a domain. -/
def State.heldFor (s : State) (dom : Nat) : List (List Flit) := tget s.pwr.held [] dom

/-- The packets held for a domain written, and their count shown. -/
def State.setHeld (s : State) (dom : Nat) (l : List (List Flit)) : State :=
  ({ s with pwr := { s.pwr with held := tset s.pwr.held [] dom l } }).setDomSt dom PWR_DOM_STATUS_HELD l.length

/-- Die and stop that serve a domain: of a tile its stop, of an I/O-die domain the die's Urn stop. -/
def State.domStop (s : State) (dom : Nat) : Nat × Nat :=
  if dom < 0x200 then (dom / 0x40, scanStop (s.scanOf (domTile dom))) else (8 + (dom - 0x200) / 0x40, 0)

/-- A packet delivered to the agents of a stop. -/
def State.handOver (s : State) (dom : Nat) (p : List Flit) : State :=
  { s with delivered := s.delivered ++ [((s.domStop dom).1, (s.domStop dom).2, p)] }

/-- A packet answered with a DOMAIN_OFF error response (R531). -/
def State.offAnswer (s : State) (dom : Nat) (p : List Flit) : State := s.emit (.domainOff dom p)

/-- Whether a tile is in T0 and not being fenced. -/
def State.tileOpen (s : State) (lt : Nat) : Bool :=
  decide (s.domSt (tileDom lt) PWR_DOM_STATUS_STATE = 0) && decide (s.domSt (tileDom lt) PWR_DOM_STATUS_BUSY = 0)

/-! ## Completion -/

/-- What a core loses in T3 beside its architectural state (R532): TLB, walk cache, predictor, L1s. -/
def Core.powerOff (c : Core) : Core :=
  { c with tlb := [], itlb := [], dtlb := [], wcache := [], pred := Predictor.cold, l1i := [], l1iTree := [], l1d := [], l1dMru := [], shelf := [] }

/-- Whether a tile has requests or writebacks on their way. -/
def State.tileBusy (s : State) (lt : Nat) : Bool :=
  !(s.tile lt).miss.isEmpty || !(s.tile lt).wb.isEmpty || !(s.arbour lt).rb.isEmpty || !(s.tile lt).fills.isEmpty

/-- R530, Table 17-4 step 2: the drain of a tile that goes to T2 or T3. Answers false while a store, a request or a writeback is on its
way. -/
def State.tileDrain (s : State) (lt : Nat) : Bool × State :=
  let (a, s) := s.sbEmpty (2 * lt)
  let (b, s) := s.sbEmpty (2 * lt + 1)
  (a && b && !s.tileBusy lt, s)

/-- R530, Table 17-4: the drain of a tile that goes to T3, its full L2 flush (R297, R298), and what it loses. A flush in progress ends first.
Answers false while a store, a request or a writeback is on its way. -/
def State.tileOff (s : State) (lt : Nat) : Bool × State :=
  let (drained, s) := s.tileDrain lt
  let s := s.l2FlushDone lt
  let flushed := (s.setTile lt { s.tile lt with flushing := true }).l2FlushDone lt
  if !drained || s.tileBusy lt then (false, s)
  else if flushed.tileBusy lt then (false, flushed)
  else
    let s := flushed
    let s := s.setCore (2 * lt) (s.core (2 * lt)).powerOff
    let s := s.setCore (2 * lt + 1) (s.core (2 * lt + 1)).powerOff
    let s := foldN 4 (fun (s : State) n => s.setCtxState lt n 0) s
    (true, s.setKsk lt Kiosk.reset)

/-- What a change of a domain to a state does. Answers false while it cannot end. -/
def State.domEffect (s : State) (dom t : Nat) : Bool × State :=
  match domCls dom with
  | some .tile => if t = 3 then s.tileOff (domTile dom) else if t = 2 then s.tileDrain (domTile dom) else (true, s)
  | some .cluster =>
    if t = 3 then (true, foldN 16 (fun (s : State) j =>
      s.setKsk (256 + 128 * ((dom - 0x200) / 0x40) + 16 * (dom % 0x40 - 16) + j) Kiosk.reset) s)
    else (true, s)
  | some .port =>
    if t = 3 then (true, foldN 4 (fun (s : State) r => s.rpLinkSet (20 * ((dom - 0x200) / 0x40) + 4 * (dom % 0x40 - 8) + r) false) s)
    else (true, s)
  | some .chan | some .fb | some .fixed | none => (true, s)

/-- A domain reaches a state: STATE and EPOCH (R527). -/
def State.domReach (s : State) (dom t : Nat) : State :=
  let s := (s.setDomSt dom PWR_DOM_STATUS_STATE t).setDomSt dom PWR_DOM_STATUS_BUSY 0
  s.setDomSt dom PWR_DOM_STATUS_EPOCH (s.domSt dom PWR_DOM_STATUS_EPOCH + 1)

/-- R531: held packets once a change has completed: released in order when the domain runs; answered with DOMAIN_OFF when it does
not and no wake is asked for. -/
def State.heldRelease (s : State) (dom : Nat) : State :=
  let l := s.heldFor dom
  let toRun : Bool := (s.domSt dom PWR_DOM_STATUS_BUSY != 0 && s.domSt dom PWR_DOM_STATUS_PROG == 0) ||
    (s.domSt dom PWR_DOM_STATUS_PEND != 0 && s.domSt dom PWR_DOM_STATUS_PTGT == 0)
  if l = [] then s
  else if s.domSt dom PWR_DOM_STATUS_STATE = 0 then l.foldl (fun (s : State) p => s.handOver dom p) (s.setHeld dom [])
  else if toRun then s
  else l.foldl (fun (s : State) p => s.offAnswer dom p) (s.setHeld dom [])

/-- R527: the change in progress of a domain completes and its pending request is served. -/
def State.domComplete (s : State) (dom : Nat) : State :=
  if (domCls dom).isNone ∨ s.domSt dom PWR_DOM_STATUS_BUSY = 0 then s
  else
    let t := s.domSt dom PWR_DOM_STATUS_PROG
    match s.domEffect dom t with
    | (false, s) => s
    | (true, s) =>
      let s := s.domReach dom t
      let s := if s.domSt dom PWR_DOM_STATUS_PEND ≠ 0 then
          (s.setDomSt dom PWR_DOM_STATUS_PEND 0).powerReq dom (s.domSt dom PWR_DOM_STATUS_PTGT)
        else s
      s.heldRelease dom

/-! ## Register writes -/

/-- R505: an Open change of a Walled-held domain reported. -/
def State.powerVeto (s : State) (w : CtlWho) (dom : Nat) : State :=
  let s := s.setFld 15 2 WW_STATUS [] WW_STATUS_POWER_VETO 1
  let s := s.addFld 15 2 WW_VIOL [] WW_VIOL_POWER 1
  s.monPush 0x82 0 dom (w.kind % 16 + w.num % 2 ^ 16 * 16)

/-- A write to PWR_DOM_CTL (R505, R525, R526, R529). -/
def State.domCtlWrite (s : State) (w : CtlWho) (dom : Nat) (v : BitVec 64) : State :=
  match domCls dom with
  | none => s
  | some c =>
    let t := field v 0 3
    let pol := field v 4 2
    let low := field v 8 3
    let us := field v 12 17
    let eff := if s.domSt dom PWR_DOM_STATUS_BUSY ≠ 0 then s.domSt dom PWR_DOM_STATUS_PROG else s.domSt dom PWR_DOM_STATUS_STATE
    let polCh := pol ≠ s.domCtl dom PWR_DOM_CTL_POLICY ∨ low ≠ s.domCtl dom PWR_DOM_CTL_LOWSTATE ∨
      us ≠ s.domCtl dom PWR_DOM_CTL_TIMER_US
    if s.wHeld dom ∧ !w.walled ∧ (t > eff ∨ polCh) then s.powerVeto w dom
    else
      let set := fun (s : State) f x => s.setDomF dom PWR_DOM_CTL PWR_DOM_CTL_I f x
      let s := set (set s PWR_DOM_CTL_POLICY pol) PWR_DOM_CTL_WAKE (field v 11 1)
      let s := if lowOk c low then set s PWR_DOM_CTL_LOWSTATE low else s
      let s := if within 1 us 100000 then set s PWR_DOM_CTL_TIMER_US us else s
      s.domRequest dom t

/-- A write to PWR_DOM_VOTE (R505, R529). The first Walled vote displaces what an Open request has begun or left pending (R506). -/
def State.domVoteWrite (s : State) (w : CtlWho) (dom : Nat) (v : BitVec 64) : State :=
  if (domCls dom).isNone then s
  else
    let open0 := s.domVote dom PWR_DOM_VOTE_OPEN
    let wal0 := s.domVote dom PWR_DOM_VOTE_WALLED
    let wal := if s.part = .x1 then 0 else field v 24 8
    if !w.walled ∧ s.part = .a1 ∧ wal ≠ wal0 then s.powerVeto w dom
    else
      let s := (s.setDomF dom PWR_DOM_VOTE PWR_DOM_VOTE_I PWR_DOM_VOTE_OPEN (field v 0 24)).setDomF dom PWR_DOM_VOTE PWR_DOM_VOTE_I
        PWR_DOM_VOTE_WALLED wal
      let s := s.setDomSt dom PWR_DOM_STATUS_WHELD (if wal = 0 then 0 else 1)
      let before := open0 ≠ 0 ∨ wal0 ≠ 0
      let after := field v 0 24 ≠ 0 ∨ wal ≠ 0
      let rising : Bool := field v 0 24 &&& (0xFFFFFF ^^^ open0) != 0 || wal &&& (0xFF ^^^ wal0) != 0
      let pol := s.domCtl dom PWR_DOM_CTL_POLICY
      let st := if s.domSt dom PWR_DOM_STATUS_BUSY ≠ 0 then s.domSt dom PWR_DOM_STATUS_PROG else s.domSt dom PWR_DOM_STATUS_STATE
      let claim := wal0 = 0 ∧ wal ≠ 0 ∧ (s.domSt dom PWR_DOM_STATUS_BUSY ≠ 0 ∨ s.domSt dom PWR_DOM_STATUS_PEND ≠ 0)
      if claim then s.domRequest dom 0
      else if pol < 2 then s
      else if rising ∧ (st ≠ 0 ∨ s.domSt dom PWR_DOM_STATUS_PEND ≠ 0) then s.domRequest dom 0
      else if pol = 2 ∧ before ∧ ¬ after then s.domRequest dom (s.domCtl dom PWR_DOM_CTL_LOWSTATE)
      else s

/-- R529: a domain has been idle for TIMER_US. -/
def State.idleExpiry (s : State) (dom : Nat) : State :=
  let pol := s.domCtl dom PWR_DOM_CTL_POLICY
  let votes : Bool := s.domVote dom PWR_DOM_VOTE_OPEN != 0 || s.domVote dom PWR_DOM_VOTE_WALLED != 0
  let low := s.domCtl dom PWR_DOM_CTL_LOWSTATE
  let idle : Bool := if domCls dom = some .tile then s.tileIdle (domTile dom) else true
  if (domCls dom).isSome ∧ (pol = 1 ∨ (pol = 3 ∧ !votes)) ∧ idle ∧ s.domSt dom PWR_DOM_STATUS_STATE < low then s.domRequest dom low
  else s

/-! ## Performance levels -/

/-- The level slots of a tile. -/
def State.lvl (s : State) (lt : Nat) : LevelSt := tget s.pwr.lvl LevelSt.reset lt
/-- The level slots of a tile written. -/
def State.setLvl (s : State) (lt : Nat) (l : LevelSt) : State :=
  { s with pwr := { s.pwr with lvl := tset s.pwr.lvl LevelSt.reset lt l } }

/-- R526: a level request of a tile. -/
def State.levelReq (s : State) (lt g : Nat) : State :=
  let l := s.lvl lt
  match l.prog with
  | none => if l.cur = g then s else s.setLvl lt { l with prog := some g }
  | some p => s.setLvl lt { l with pend := if p = g then none else some g }

/-- R522: the level change of a tile completes and its pending one is served. -/
def State.levelDone (s : State) (lt : Nat) : State :=
  let l := s.lvl lt
  match l.prog with
  | none => s
  | some p =>
    let s := s.setLvl lt { cur := p, prog := none, pend := none }
    match l.pend with
    | some g => s.levelReq lt g
    | none => s

/-- A field of PWR_TILE_PERF. -/
def State.perf (s : State) (lt : Nat) (f : RField) : Nat := s.fld (ltDie lt) 0x050 PWR_TILE_PERF [ltIdx lt] f

/-- The Groundskeeper node of a tile. -/
def gkDie (lt : Nat) : Nat := 8 + lt / 128

/-- The wear cap of a tile: P3 while it acts (R600). -/
def State.wearCap (s : State) (lt : Nat) : Nat :=
  if s.flag (gkDie lt) 0x03A GK_WEAR_CTL [] GK_WEAR_CTL_EN && s.flag (gkDie lt) 0x03A GK_WEAR [lt % 128] GK_WEAR_CAPPED then 3 else 0

/-- R520: the slowest of the four limits of a tile and the code of the one that decides. -/
def State.lvlLimit (s : State) (lt : Nat) : Nat × Nat :=
  let req := s.perf lt PWR_TILE_PERF_REQ
  let cap := s.fld 15 5 PWR_PKG_STATUS [] PWR_PKG_STATUS_CAP
  let th := tget s.pwr.tcap 0 lt
  let wear := s.wearCap lt
  let m := max (max req cap) (max th wear)
  (m, if req = m then 0 else if cap = m then 2 else if th = m then 3 else 4)

/-- Tiles that hold P0. -/
def State.p0Tiles (s : State) : List Nat := (List.range 256).filter (fun lt => s.perf lt PWR_TILE_PERF_GRANT == 0)

/-- A grant shown and asked for. -/
def State.setGrant (s : State) (lt g lim : Nat) : State :=
  let s := s.setFld (ltDie lt) 0x050 PWR_TILE_PERF [ltIdx lt] PWR_TILE_PERF_GRANT g
  let s := s.setFld (ltDie lt) 0x050 PWR_TILE_PERF [ltIdx lt] PWR_TILE_PERF_LIMIT lim
  (s.setFld 15 5 PWR_PKG_STATUS [] PWR_PKG_STATUS_P0_TILES s.p0Tiles.length).levelReq lt g

/-- R520: the granted level of a tile computed anew, with the count of P0. -/
def State.regrant1 (s : State) (lt : Nat) : State :=
  let (m, lim) := s.lvlLimit lt
  let q := s.pwr.p0q
  if m ≠ 0 then ({ s with pwr := { s.pwr with p0q := q.filter (fun x => x != lt) } }).setGrant lt m lim
  else if s.perf lt PWR_TILE_PERF_GRANT = 0 then s.setGrant lt 0 lim
  else if s.p0Tiles.length < 64 then ({ s with pwr := { s.pwr with p0q := q.filter (fun x => x != lt) } }).setGrant lt 0 lim
  else ({ s with pwr := { s.pwr with p0q := if q.contains lt then q else q ++ [lt] } }).setGrant lt 1 1

/-- R520: tiles that waited for P0 are granted it while holders leave room. -/
def State.serveP0 (s : State) (fuel : Nat) : State :=
  match fuel with
  | 0 => s
  | f + 1 =>
    match s.pwr.p0q with
    | [] => s
    | lt :: _ => if s.p0Tiles.length < 64 then (s.regrant1 lt).serveP0 f else s

/-- R520: the grant of a tile, and of those that waited for it. -/
def State.regrant (s : State) (lt : Nat) : State := (s.regrant1 lt).serveP0 64

/-- A write to PWR_TILE_PERF (R520): 12 to 15 are discarded. -/
def State.perfWrite (s : State) (lt : Nat) (v : BitVec 64) : State :=
  if field v 0 4 > 11 ∨ lt ≥ 256 then s
  else (s.setFld (ltDie lt) 0x050 PWR_TILE_PERF [ltIdx lt] PWR_TILE_PERF_REQ (field v 0 4)).regrant lt

/-! ## Governor and caps -/

/-- R515: the target of the governor. Voltages in mV, power in mW, SLEW in A/µs, IMAX in A. -/
def govTarget (vin v5 pin demand slew imax : Nat) : Nat :=
  let pmax := vin * imax
  let g := (min demand pmax - pin) + (demand - pmax) * 10
  let ok := fun (x : Nat) => decide (375 * g * g ≤ 4 * x * (v5 * v5 - 17640000) * vin * slew)
  if v5 ≤ 4200 then 3 else if ok 85 then 0 else if ok 100 then 1 else if ok 125 then 2 else 3

/-- R515 to R517: one tick of the governor with the measured voltages (mV), input current (0.1 A), delivered power and demand
(mW). -/
def State.govTick (s : State) (vin v5 iin pin demand : Nat) : State :=
  let set := fun (s : State) f x => s.setFld 15 5 PWR_RAIL_STATUS [] f x
  let margin : Bool := !within 10800 vin 13200 && within 10500 vin 13500
  let s := set (set (set (set s PWR_RAIL_STATUS_VIN_MV (min vin 65535)) PWR_RAIL_STATUS_V5_MV (min v5 65535)) PWR_RAIL_STATUS_IIN
    (min iin 32767)) PWR_RAIL_STATUS_VIN_MARGIN margin.toNat
  let slew := s.fld 10 1 PWR_VIN_CTL [] PWR_VIN_CTL_SLEW
  let t := govTarget vin v5 pin demand slew (s.fld 10 1 PWR_VIN_CTL [] PWR_VIN_CTL_IMAX)
  let gs := fun (s : State) f x => s.setFld 15 5 PWR_GOV_STATUS [] f x
  let l := s.fld 15 5 PWR_GOV_STATUS [] PWR_GOV_STATUS_LEVEL
  let low := fun (s : State) n => ({ s with pwr := { s.pwr with govLow := n } } : State)
  let s :=
    if t > l then
      let s := if l = 0 then s.addFld 15 5 PWR_GOV_STATUS [] PWR_GOV_STATUS_EPISODES 1 else s
      low (gs s PWR_GOV_STATUS_LEVEL t) 0
    else if t < l then
      if s.pwr.govLow + 1 ≥ 100 then low (gs s PWR_GOV_STATUS_LEVEL (l - 1)) 0 else low s (s.pwr.govLow + 1)
    else low s 0
  let s := if v5 < 4350 then gs s PWR_GOV_STATUS_HARD 1 else s
  if v5 < 4100 ∧ !s.pwr.vstop then
    let s := gs { s with pwr := { s.pwr with vstop := true } } PWR_GOV_STATUS_VSTOP 1
    (s.addFld 15 5 PWR_GOV_STATUS [] PWR_GOV_STATUS_VSTOP_CNT 1).err 15 5 (ErrRec.mk1 1 0x0C 0 0)
  else if v5 ≥ 4400 then { s with pwr := { s.pwr with vstop := false } }
  else s

/-- R516, R517: the throttle level that applies to a tile. -/
def State.tileThrottle (s : State) (lt : Nat) : Nat :=
  if s.fld 15 5 PWR_RAIL_STATUS [] PWR_RAIL_STATUS_V5_MV < 4350 then 3
  else if natBit (s.fld 15 5 PWR_GOV_EXEMPT [lt / 64] PWR_GOV_EXEMPT_TILES) (lt % 64) then 0
  else s.fld 15 5 PWR_GOV_STATUS [] PWR_GOV_STATUS_LEVEL

/-- R246: the throttle level takes effect in the cores of a tile in T0. -/
def State.throttle (s : State) (lt : Nat) : State :=
  if s.tileSt lt = 0 ∧ lt < 256 then { s with pwr := { s.pwr with throttle := tset s.pwr.throttle 0 lt (s.tileThrottle lt) } } else s

/-- R521: the package cap's millisecond, with its average input power in W. -/
def State.pkgCapTick (s : State) (avg : Nat) : State :=
  let s := s.setFld 15 5 PWR_PKG_STATUS [] PWR_PKG_STATUS_AVG_W (min avg 2047)
  let tdp := s.fld 15 5 PWR_PKG_CTL [] PWR_PKG_CTL_TDP_W
  let cap := s.fld 15 5 PWR_PKG_STATUS [] PWR_PKG_STATUS_CAP
  let good := fun (s : State) n => ({ s with pwr := { s.pwr with capGood := n } } : State)
  let move := fun (s : State) c =>
    if c = cap then s else foldN 256 (fun (s : State) lt => s.regrant lt) (s.setFld 15 5 PWR_PKG_STATUS [] PWR_PKG_STATUS_CAP c)
  if avg > tdp then move (good s 0) (min (cap + 1) 11)
  else if 100 * avg < 95 * tdp then
    if s.pwr.capGood + 1 ≥ 10 then move (good s 0) (cap - 1) else good s (s.pwr.capGood + 1)
  else good s 0

/-- R521: a tick of a tile's thermal cap with its junction temperature in °C. -/
def State.thermalTick (s : State) (lt tj : Nat) : State :=
  if lt ≥ 256 then s
  else
    let c := tget s.pwr.tcap 0 lt
    let c' := if tj ≥ 100 then min (c + 1) 11 else if tj ≤ 95 then c - 1 else c
    ({ s with pwr := { s.pwr with tcap := tset s.pwr.tcap 0 lt c' } }).regrant lt

/-! ## Package sleep -/

/-- Domain of memory channel ch, x16 port p (5 × I/O die + port), package Footbridge link l (3 × I/O die + link). -/
def chanDom (ch : Nat) : Nat := 0x200 + 0x40 * (ch / 8) + ch % 8
/-- Domain of an x16 port. -/
def portDom (p : Nat) : Nat := 0x200 + 0x40 * (p / 5) + 8 + p % 5
/-- Domain of a Footbridge link. -/
def fbDom (l : Nat) : Nat := 0x200 + 0x40 * (l / 3) + 13 + l % 3

/-- A domain moved by the package mode, its state before the sleep kept for the exit. -/
def State.sleepDom (s : State) (dom t : Nat) : State :=
  let st := s.domSt dom PWR_DOM_STATUS_STATE
  if st ≥ t then s
  else
    match s.domEffect dom t with
    | (false, s) => s
    | (true, s) =>
      let l := s.pwr.sleep
      ({ s with pwr := { s.pwr with sleep := if l.any (fun (p : Nat × Nat) => p.1 == dom) then l else l ++ [(dom, st)] } }).domReach dom t

/-- Every domain that the package mode moved returns to its state before the entry. -/
def State.sleepRestore (s : State) : State :=
  let l := s.pwr.sleep
  let s := l.foldl (fun (s : State) p => (s.domReach p.1 p.2).heldRelease p.1) s
  { s with pwr := { s.pwr with sleep := [] } }

/-- R534: entry into M6 when every active tile is in T2 or deeper, M6 is enabled and no contract is admitted. -/
def State.m6Entry (s : State) : State :=
  let asleep := (List.range 256).all (fun lt =>
    decide (s.domSt (tileDom lt) PWR_DOM_STATUS_STATE ≥ 2) && s.domSt (tileDom lt) PWR_DOM_STATUS_BUSY == 0)
  if s.mode = .m5 ∧ asleep ∧ s.flag 15 5 PWR_PKG_CTL [] PWR_PKG_CTL_M6_EN ∧ !s.contracts then
    let s := foldN 16 (fun (s : State) ch => s.sleepDom (chanDom ch) 1) s
    foldN 10 (fun (s : State) die => s.slotRestart die) { s with mode := .m6 }
  else s

/-- R534: a wake event returns the device from M6. The fabric clocks change with either mode, and with them the slots restart (R386). -/
def State.m6Exit (s : State) : State :=
  if s.mode = .m6 then foldN 10 (fun (s : State) die => s.slotRestart die) { s.sleepRestore with mode := .m5 } else s

/-- The lowest-numbered Walled-held domain. -/
def State.heldDomain (s : State) : Option Nat := (List.range 0x280).find? (fun d => (domCls d).isSome && s.wHeld d)

/-- R535: why an M7 request is refused, but for idleness: 2 kiosk enabled, 3 contract admitted, 4 Walled-held domain. -/
def State.m7Bar (s : State) : Option Nat :=
  if (List.range 256).any s.kEn then some 2
  else if s.contracts then some 3
  else if s.heldDomain.isSome then some 4
  else none

/-- An M7 request refused with its reason. -/
def State.m7Refuse (s : State) (r : Nat) : State :=
  let s := s.setFld 15 5 PWR_PKG_CTL [] PWR_PKG_CTL_M7_REQ 0
  (s.setFld 15 5 PWR_PKG_STATUS [] PWR_PKG_STATUS_M7_REFUSED 1).setFld 15 5 PWR_PKG_STATUS [] PWR_PKG_STATUS_M7_REASON r

/-- R578: a request refused in GH_STATUS with its reason: 1 MODE, 2 SOURCE, 3 AUTH, 4 BUSY. -/
def State.ghRefuse (s : State) (r : Nat) : State :=
  (s.setFld 15 1 GH_STATUS [] GH_STATUS_REFUSED 1).setFld 15 1 GH_STATUS [] GH_STATUS_RREASON r

/-- The modes from which Table 1-5 lets the device go to M7. -/
def Mode.m7From (m : Mode) : Bool := m == .m5 || m == .m6

/-- R535, R505: a write of 1 to PWR_PKG_CTL.M7_REQ. In a mode from which Table 1-5 has no such transition, the Gatehouse refuses it (R25). -/
def State.m7Req (s : State) (w : CtlWho) : State :=
  let s := match s.heldDomain with
    | some d => if w.walled then s else s.powerVeto w d
    | none => s
  if !s.mode.m7From then if s.outranked 0 then s else s.ghRefuse 1
  else match s.m7Bar with
    | some r => s.m7Refuse r
    | none => s.setFld 15 5 PWR_PKG_CTL [] PWR_PKG_CTL_M7_REQ 1

/-- A write to PWR_PKG_CTL. -/
def State.pkgCtlWrite (s : State) (w : CtlWho) (v : BitVec 64) : State :=
  let s := if within 900 (field v 0 11) 1600 then s.setFld 15 5 PWR_PKG_CTL [] PWR_PKG_CTL_TDP_W (field v 0 11) else s
  let s := s.setFld 15 5 PWR_PKG_CTL [] PWR_PKG_CTL_M6_EN (field v 16 1)
  if bitOf v 17 then s.m7Req w else s

/-- Whether every logical core is idle (R528, R535). -/
def State.allIdle (s : State) : Bool := (List.range 256).all s.tileIdle

/-- R535: a waiting M7 request meets what it waits for: entry into M7, or a refusal. -/
def State.m7Entry (s : State) : State :=
  if !s.mode.m7From ∨ !s.flag 15 5 PWR_PKG_CTL [] PWR_PKG_CTL_M7_REQ then s
  else match s.m7Bar with
    | some r => s.m7Refuse r
    | none =>
      if !s.allIdle then s
      else
        let s0 := s
        let s := foldN 256 (fun (s : State) lt => if s.tileSt lt = 4 then s else s.sleepDom (tileDom lt) 3) s
        if !(List.range 256).all (fun lt => decide (s.tileSt lt ≥ 3)) then s0
        else
        let s := foldN 16 (fun (s : State) ch => s.sleepDom (chanDom ch) 2) s
        let s := foldN 10 (fun (s : State) p => s.sleepDom (portDom p) 1) s
        let s := foldN 6 (fun (s : State) l => s.sleepDom (fbDom l) 1) s
        { s.setFld 15 5 PWR_PKG_CTL [] PWR_PKG_CTL_M7_REQ 0 with mode := .m7 }

/-- R535: a waiting M7 request is refused once a kiosk is enabled, a contract is admitted, or a domain is Walled-held. -/
def State.m7Poll (s : State) : State :=
  if s.flag 15 5 PWR_PKG_CTL [] PWR_PKG_CTL_M7_REQ then
    match s.m7Bar with
    | some r => s.m7Refuse r
    | none => s
  else s

/-- R535: 10 ms have passed since the write of M7_REQ. -/
def State.m7Timeout (s : State) : State :=
  if s.flag 15 5 PWR_PKG_CTL [] PWR_PKG_CTL_M7_REQ && !s.allIdle then s.m7Refuse 1 else s

/-- R535: a wake event returns the device from M7; tiles return to T0. -/
def State.m7Exit (s : State) : State :=
  if s.mode = .m7 then
    let s := { s with pwr := { s.pwr with sleep := s.pwr.sleep.map (fun (p : Nat × Nat) => if p.1 < 0x200 then (p.1, 0) else p) } }
    let low := (List.range 256).filter (fun (lt : Nat) => within 1 (s.tileSt lt) 3 && !s.pwr.sleep.any (fun (p : Nat × Nat) => p.1 == tileDom lt))
    let s := low.foldl (fun (s : State) lt => (s.domReach (tileDom lt) 0).heldRelease (tileDom lt)) s.sleepRestore
    { s with mode := .m5 }
  else s

/-- Any wake event of R534 at a sleeping package, unless an event of a higher rank goes before it (R26). -/
def State.pkgWake (s : State) : State :=
  if (s.mode = .m6 ∨ s.mode = .m7) ∧ !s.outranked 1 then ((s.noteEvent 1).m6Exit).m7Exit else s

/-! ## Wakes and held packets -/

/-- R531: a wake request for a domain: its running state is requested. -/
def State.wakeReq (s : State) (dom : Nat) : State :=
  if s.domSt dom PWR_DOM_STATUS_STATE = 0 ∧ s.domSt dom PWR_DOM_STATUS_BUSY = 0 ∧ s.domSt dom PWR_DOM_STATUS_PEND = 0 then s
  else s.domRequest dom 0

/-- R531, R534: a wake event for a domain: it ends a sleep of the package, and the domain's running state is requested. A wake of the same
Trellis cycle as an event of a higher rank is discarded (R26). -/
def State.wakeEvent (s : State) (dom : Nat) : State := if s.outranked 1 then s else s.pkgWake.wakeReq dom

/-- R531: what a tile's stop does when a queue answer or a state message arrives for it. -/
def State.wakeTile (s : State) (lt : Nat) : State := if s.tileOpen lt then s else s.wakeEvent (tileDom lt)

/-- R531: the stop of a domain meets a packet: a snoop is never held; a queue answer is held and always raises a wake; any other
packet is held while fewer than 16 are, raising a wake with WAKE = 1, or is answered with DOMAIN_OFF. Memory channels and
Footbridge links always wake. -/
def State.heldPacket (s : State) (dom : Nat) (p : List Flit) (snoop answer : Bool) : State :=
  match domCls dom with
  | none => s
  | some c =>
    let st := s.domSt dom PWR_DOM_STATUS_STATE
    if snoop ∨ (st = 0 ∧ s.domSt dom PWR_DOM_STATUS_BUSY = 0) then s.handOver dom p
    else
      let always := c == .chan || c == .fb
      let wake := always || answer || s.domCtl dom PWR_DOM_CTL_WAKE != 0
      if (!wake ∨ (s.heldFor dom).length ≥ 16) ∧ !always ∧ !answer then s.offAnswer dom p
      else
        let s := s.setHeld dom (s.heldFor dom ++ [p])
        s.wakeEvent dom

end Sys2Proof.Machine
end

