-- ==== Sys2Proof/Machine/Arbour.lean ====
section
/-! DEFINITION. Arbours (08_arbour_lockstep.md): mismatches and their recovery (R262 to R266), the fatal path (R267, R268), the
quarantine of a tile, the split by external debug (R269), and the corruptions of R624 that a safe-mode arbour finds. -/
set_option autoImplicit false
namespace Sys2Proof.Machine

/-- R602: a tile proposed for retirement, with its reason; `inj` says that an injected corruption led to it (R596). -/
def State.propose (s : State) (lt reason : Nat) (inj : Bool := false) : State :=
  if s.fld (gkDie lt) 0x03A GK_TILE [lt % 128] GK_TILE_PROPOSE = reason then s
  else (s.setFld (gkDie lt) 0x03A GK_TILE [lt % 128] GK_TILE_PROPOSE reason).err (gkDie lt) 0x03A { ErrRec.mk1 1 0x18 (lt % 128) 0 with inj := inj }

/-- Steps 3 and 5 of R267, and R338: the kiosk of a tile stops, the tile goes to T4 as quarantined, the Gatehouse sets its FATAL
flag, and its logical cores are absent. What the tile held is gone, but for the writebacks and requests that a fatal path leaves on their
way; a tile marked dead loses its presence bits as well (R309). -/
def State.quarantine (s : State) (lt : Nat) (inj : Bool := false) : State :=
  let s := s.kQuarantine lt
  let stop := fun (s : State) lc =>
    s.setCore lc { s.core lc with started := false, wait := none, sb := [], shelf := [], l1i := [], l1iTree := [], l1d := [], l1dMru := [],
                                  irqPending := false }
  let s := stop (stop s (2 * lt)) (2 * lt + 1)
  let s := s.rbDiscard lt true
  let t := s.tile lt
  let s := s.setTile lt (if t.dead then { TileCache.reset with dead := true } else { TileCache.reset with wb := t.wb, miss := t.miss })
  let s := if t.dead then s.presClear lt else s
  let dom := tileDom lt
  let s := if s.domSt dom PWR_DOM_STATUS_BUSY = 0 then s else s.domReach dom (s.domSt dom PWR_DOM_STATUS_PROG)
  let s := s.levelDone lt
  let s := ((s.setDomSt dom PWR_DOM_STATUS_STATE 4).setDomSt dom PWR_DOM_STATUS_BUSY 0).setDomSt dom PWR_DOM_STATUS_PEND 0
  let f := s.fld 15 1 GH_TILE_FATAL [lt / 64] GH_TILE_FATAL_FATAL
  let s := s.setFld 15 1 GH_TILE_FATAL [lt / 64] GH_TILE_FATAL_FATAL (f ||| 2 ^ (lt % 64))
  let s := (s.coreAbsent (2 * lt)).coreAbsent (2 * lt + 1)
  (s.heldRelease dom).propose lt 3 inj

/-- The L2 lines of a tile poisoned and written back (R267 step 2): M and E lines as poison 0x04, S lines reported with EvC. -/
def State.l2Poison (s : State) (lt : Nat) : State :=
  let s := (s.tile lt).l2.foldl (fun (s : State) p =>
    if p.2.st = .s then s else s.l2Put lt p.1 { p.2 with st := .m, data := poisonLine 0x04, bad := [] }) s
  s.l2FlushAll lt

/-- Ownership asked for every line that a core's store buffer has yet to write (R267 step 1): what is granted after the path goes back as
poison. -/
def State.sbClaim (s : State) (lc : Nat) : State :=
  ((s.core lc).sb.flatMap SbEntry.parts).foldl (fun (s : State) x => (s.l2Own (lcTile lc) (x.pa / 128) x.walled x.pl3 true).2) s

/-- R267: the fatal path of an arbour with its cause (Table 8-5); `inj` says that an injected corruption led to it (R596). A flush in
progress is carried to its end first, so that the L2 takes requests. -/
def State.fatalPath (s : State) (lt cause : Nat) (inj : Bool := false) : State :=
  let a := 2 * lt
  let s := ((s.domComplete (tileDom lt)).rbDiscard lt true).l2FlushDone lt
  let s := (s.shelfClear a (s.core a).walled).shelfClear (a + 1) (s.core (a + 1)).walled
  let s := ((s.sbEmpty a).2.sbEmpty (a + 1)).2.settle
  let s := (s.sbClaim a).sbClaim (a + 1)
  let s := s.l2Poison lt
  let s := s.kQuarantine lt
  let d := ltDie lt
  let s := s.errPlace d 0x050 { ErrRec.mk1 4 (0x10 + cause) (ltIdx lt) 0 with inj := inj, misc := (s.reg d (ltIdx lt) ARB_LAST_PC []).toNat }
    (s.reg d (ltIdx lt) ARB_LAST_TIME []).toNat (some (2 * lt))
  { (s.quarantine lt inj).lifeEvent cause with lifeDue := true }

/-- Whether a mismatch is found: bad parity always, a disagreement unless its comparator is stuck at agree (R273). -/
def Arbour.sees (a : Arbour) (m : Mismatch) (parity : Bool) : Bool :=
  parity || m.both || m.resync != 0 || !m.lines.isEmpty || !(if m.pair then a.stuckPair else a.stuckSig)

/-- L1 lines with bad parity in a split-mode arbour (R289): dropped, to be read again from the L2, and each counted in the ERB. -/
def State.l1Parity (s : State) (lt : Nat) (lines : List Nat) : State :=
  lines.foldl (fun (s : State) line => (s.l1Drop lt line).errCorrected (ltDie lt) (ltIdx lt) 0 (line * 128)) s

/-- R263 to R265: a mismatch of a safe-mode arbour: recovered, or the fatal path. The point of re-execution is the PC of its logical
core. `inj` says that an injected corruption is the mismatch (R596). The records are replaced before the register parity check, so the
fatal path with cause REG_PARITY writes the new ones; a mismatch whose re-execution ends in cause REPLAY has been recovered before, and
counts (DESIGN CHOICE, entry 43). -/
def State.mismatch (s : State) (lt : Nat) (m : Mismatch) (inj : Bool := false) : State :=
  if !s.safeArb lt then s.l1Parity lt m.lines
  else if !s.coreExists (2 * lt) then s
  else
    let d := ltDie lt; let u := ltIdx lt
    let pc := (s.core (2 * lt)).pc
    let last := s.reg d u ARB_LAST_PC []
    let lastT := (s.reg d u ARB_LAST_TIME []).toNat
    let c := s.core (2 * lt)
    let bad := c.flips.filter (fun f => decide (f.key < 2048) && !f.dbl)
    let both := m.both || bad.any (fun f => !f.b && bad.any (fun g => g.b && g.key == f.key))
    if !(s.arbour lt).sees m (inj && !bad.isEmpty) then s
    else
    let s := if m.pair then s.addFld d u ARB_MISMATCH [] ARB_MISMATCH_PAIR 1 else s
    if bitOf last 0 ∧ field last 2 56 * 4 = pc ∧ s.time < lastT + 1000000 then s.fatalPath lt 1 inj
    else
      let s := (s.setReg d u ARB_LAST_PC [] (v64 (pc + 1))).setReg d u ARB_LAST_TIME [] (v64 s.time)
      if both then s.fatalPath lt 2 (inj || !m.both)
      else
        let s := (s.rbDiscard lt false).setCore (2 * lt) { c with flips := c.flips.filter (fun f => !bad.contains f) }
        let s := (s.addFld d u ARB_MISMATCH [] ARB_MISMATCH_REG_RESYNC (m.resync + bad.length)).addFld d u ARB_MISMATCH [] ARB_MISMATCH_RECOVERED 1
        let s := s.addFld (gkDie lt) 0x03A GK_TILE [lt % 128] GK_TILE_RECOV 1
        let s := m.lines.foldl (fun (s : State) line => s.l1Drop lt line) s
        let s := s.shelfDiscard (2 * lt) (s.core (2 * lt)).walled
        let s := s.coreEv (2 * lt) 0x016
        if m.replay then s.fatalPath lt 3 inj else s

/-! ## The replay log -/

/-- The replay-log entry of the instruction at an address freed (R261). -/
def State.logFree (s : State) (lt pc : Nat) : State :=
  let a := s.arbour lt
  if a.log.isEmpty then s else s.putArbour lt { a with log := a.log.filter (fun x => x.pc != pc) }

/-- An access that R133 performs as the oldest instruction (R261): its request passes the release buffer and is logged, once, until the
instruction's group commits or raises its exception. An instruction met again goes on with the access that it has begun; a different
request takes the fatal path with cause REPLAY; a full log makes it wait. Without comparison there is no log (R252, R269). -/
def State.logDo {α : Type} (s : State) (lc : Nat) (req : RbEnt) (f : State → MRes α) : MRes α :=
  let lt := lcTile lc
  let a := s.arbour lt
  let pc := (s.core lc).pc
  let run := fun (s : State) =>
    match f s with
    | (.error .stall, s) => (.error .stall, s)
    | (.error (.exc e), s) => (.error (.exc e), s.logFree lt pc)
    | (.ok x, s) => (.ok x, s.logFree lt pc)
  if !s.safeMode lt then f s
  else match a.log.find? (fun x => x.pc == pc) with
  | some x => if x.req = req then run s else (.error .stall, s.fatalPath lt 3)
  | none =>
    if s.safeArb lt && decide (a.log.length ≥ 4) then (.error .stall, s)
    else
      match s.rbPass lt req with
      | (false, s) => (.error .stall, s)
      | (true, s) =>
        if s.safeArb lt then run (s.putArbour lt { s.arbour lt with log := (s.arbour lt).log ++ [⟨pc, req⟩] }) else f s

/-- A word register of a core by its key (CoreFlip). -/
def Core.regWord (c : Core) (key : Nat) : Word :=
  if key < 256 then tget c.g Word.zero key
  else if key < 1024 then tget c.v Word.zero (key - 256)
  else ⟨(tget c.p 0 (key - 1024)).setWidth 64, 0⟩

/-- A register of a core by its key written. -/
def Core.setRegWord (c : Core) (key : Nat) (w : Word) : Core :=
  if key < 256 then { c with g := tset c.g Word.zero key w }
  else if key < 1024 then { c with v := tset c.v Word.zero (key - 256) w }
  else { c with p := tset c.p 0 (key - 1024) (w.val.setWidth 8) }

/-- What becomes of a corruption when comparison ends (R269): core A goes on with what it holds, a line with bad parity stays to be found
(R289), and what core B holds is gone with it. -/
def Core.unlock (c : Core) (f : CoreFlip) : Core :=
  let c := { c with flips := c.flips.erase f }
  if f.b then c
  else if f.key < 2048 then c.setRegWord f.key (flipWord (c.regWord f.key) f.bits)
  else if f.dbl then { c with l1bad := tput c.l1bad (f.key - 2048) f.bits }
  else { c with flips := c.flips ++ [f] }

/-- R269, R270: a debug request in M10 splits a safe-mode arbour: core B is held, and core A goes on without comparison and log. -/
def State.debugSplit (s : State) (lt : Nat) : State :=
  if s.mode ≠ .m10 ∨ s.part ≠ .x1 ∨ !s.safeArb lt then s
  else
    let c := s.core (2 * lt)
    let s := s.setCore (2 * lt) (c.flips.foldl Core.unlock c)
    let s := s.logClear lt
    let d := ltDie lt; let u := ltIdx lt
    let s := (s.setFld d u ARB_STATUS [] ARB_STATUS_HELD 1).setFld d u ARB_STATUS [] ARB_STATUS_LOCKSTEP_BROKEN 1
    let f := s.fld 15 1 GH_TILE_LSB [lt / 64] GH_TILE_LSB_LSB
    s.setFld 15 1 GH_TILE_LSB [lt / 64] GH_TILE_LSB_LSB (f ||| 2 ^ (lt % 64))

/-! ## Injected corruptions -/

/-- The core that holds a corruption as it would read it. -/
def Core.corrupt (c : Core) (f : CoreFlip) : Core :=
  if f.key ≥ 2048 then { c with l1bad := tput c.l1bad (f.key - 2048) f.bits } else c.setRegWord f.key (flipWord (c.regWord f.key) f.bits)

/-- The core with the register of a corruption poisoned instead, which every instruction that reads the register shows. -/
def Core.spoil (c : Core) (f : CoreFlip) : Core :=
  if f.key ≥ 2048 then c
  else if f.key ≥ 1024 then { c with pz := tset c.pz 0 (f.key - 1024) 7 }
  else c.setRegWord f.key (Word.poison 0x3F)

/-- The core after an instruction of the changed core, with the change taken out again where it is still untouched. -/
def Core.unchange (c : Core) (f : CoreFlip) (changed clean : Core) : Core :=
  if f.key ≥ 2048 then { c with l1bad := clean.l1bad }
  else if f.key ≥ 1024 then
    let n := f.key - 1024
    if tget c.p 0 n = tget changed.p 0 n ∧ tget c.pz 0 n = tget changed.pz 0 n then
      { c with p := tset c.p 0 n (tget clean.p 0 n), pz := tset c.pz 0 n (tget clean.pz 0 n) }
    else c
  else if c.regWord f.key = changed.regWord f.key then c.setRegWord f.key (clean.regWord f.key) else c

/-- What the signature of an instruction covers (R258): every register and predicate written with value and tag byte, every store's
address, data and tag bytes, every system register written; and how the instruction ends. -/
def groupEffects (pre post : Core) (r : Except MFail Bool) : List Nat :=
  let word := fun (k : Nat) => let w := post.regWord k; [k, w.val.toNat, w.tag.toNat]
  let regs := post.wrote.flatMap (fun k => if within 256 k 1023 then (List.range 8).flatMap (fun i => word (k + i)) else
    word k ++ (if k ≥ 1024 then [(tget post.pz 0 (k - 1024)).toNat] else []))
  let stores := (post.sb.filter (fun e => !pre.sb.contains e)).flatMap (fun e =>
    [e.pa, e.size, e.word.val.toNat, e.word.tag.toNat] ++ e.tags.map BitVec.toNat)
  let sys := (post.sys.filter (fun p => pre.sysr p.1 != p.2)).flatMap (fun p => [p.1, p.2.toNat])
  let stop := match r with
    | .ok _ => [0, post.pc]
    | .error .stall => [1]
    | .error (.exc e) => [2, e.cause.toNat, e.addr.toNat]
  regs ++ stores ++ sys ++ stop

/-- Which comparator an instruction meets that runs on a core changed in the register of a corruption: the pair comparison where it sends
something else (R257), the signatures where their values differ (R258). -/
structure Differs where
  pair : Bool
  sig : Bool
  /-- Whether anything at all is different. -/
  any : Bool
  deriving DecidableEq, Repr

/-- An instruction run beside itself on a changed core. -/
def State.differs (s : State) (lc : Nat) (body : State → MRes Bool) (f : CoreFlip) (changed : Core) : Differs :=
  let (ra, sa) := body s
  let (rb, sb) := body (s.setCore lc changed)
  let sb := sb.setCore lc ((sb.core lc).unchange f changed (sa.core lc))
  let ea := groupEffects (s.core lc) (sa.core lc) ra
  let eb := groupEffects (s.core lc) (sb.core lc) rb
  { pair := decide (sa.setCore lc Core.reset ≠ sb.setCore lc Core.reset), sig := ea != eb && Config.signature ea != Config.signature eb,
    any := ea != eb || decide (sa ≠ sb) }

/-- R624: whether an instruction reads a word with bad parity. -/
def State.reads (s : State) (lc : Nat) (body : State → MRes Bool) (f : CoreFlip) : Bool :=
  (s.differs lc body f ((s.core lc).corrupt f)).any || (s.differs lc body f ((s.core lc).spoil f)).any

/-- A corruption with good parity that no comparator reports (R273, Table 8-4): the results of core A are those of its own register, and
what it holds differs from core B's from then on. -/
def Core.escape (c : Core) (f : CoreFlip) : Core :=
  if f.b then c else { c.corrupt f with flips := c.flips.erase f ++ [{ f with b := true }] }

/-- A corruption with good parity met by an instruction whose outcome on the changed core differs as `x` says: every re-execution disagrees
again, which is the fatal path (R265, R273), unless no comparator sees it. -/
def State.meetDouble (s : State) (lc : Nat) (f : CoreFlip) (x : Differs) : State :=
  let lt := lcTile lc
  let c := s.core lc
  let a := s.arbour lt
  let m : Mismatch := { pair := x.pair && !a.stuckPair, resync := 0, both := false, lines := [], replay := false }
  if (x.pair && !a.stuckPair) || (x.sig && !a.stuckSig) then
    ((s.setCore lc { c with flips := c.flips.erase f }).mismatch lt m true).mismatch lt m true
  else if x.any then s.setCore lc (c.escape f)
  else s

/-- R289, R262, R624: the corruptions that an instruction meets. In safe mode a FLIP1 is recovered from and a FLIP2 ends in the
fatal path; in split mode an L1D line with bad parity is dropped and counted. -/
def State.findFlips (s : State) (lc : Nat) (body : State → MRes Bool) : State :=
  let lt := lcTile lc
  (s.core lc).flips.foldl (fun (s : State) f =>
    let c := s.core lc
    let gone := { c with flips := c.flips.erase f }
    let lines := if f.key ≥ 2048 then [f.key - 2048] else []
    if !c.flips.contains f then s
    else if f.dbl then s.meetDouble lc f (s.differs lc body f (c.corrupt f))
    else if !s.reads lc body f then s
    else
      (s.setCore lc (if f.key ≥ 2048 then gone else c)).mismatch lt
        { pair := false, resync := 0, both := false, lines := lines, replay := false } true) s

/-- R624: the register writes of an instruction that retires on a safe-mode arbour meet the injection of its tile; an overwritten
register no longer holds a corruption. -/
def State.regInject (s : State) (lc : Nat) (pre : Core) : State :=
  let lt := lcTile lc
  let d := ltDie lt; let u := ltIdx lt
  let c := s.core lc
  if c.flips = [] ∧ (!s.safeArb lt ∨ s.fld d u ERB_INJ_STATUS [] ERB_INJ_STATUS_REMAIN = 0) then s
  else
    let s := s.setCore lc { c with flips := c.flips.filter (fun f => !c.wrote.contains f.key) }
    if !s.safeArb lt then s
    else c.wrote.foldl (fun (s : State) k =>
      [1, 2].foldl (fun (s : State) t =>
        match s.inject d u t pre.walled with
        | (some a, s) =>
          let c := s.core lc
          s.setCore lc { c with flips := c.flips.filter (fun f => f.key != k) ++ [⟨k, s.flipBits d u (a == 2), a == 2, t == 2⟩] }
        | (none, s) => s) s) s

end Sys2Proof.Machine
end

