-- ==== Sys2Proof/Machine/Timed.lean ====
section
/-! DEFINITION. The timed service (R417 to R427): paths of contracts, placement and admission; the start of a mesh flip, which must
leave the paths of admitted contracts as they are (R391). -/
set_option autoImplicit false
namespace Sys2Proof.Machine

/-- Fabric frequency of a die in units of 0.1 GHz (Table 17-5). -/
def State.fabF10 (s : State) (die : Nat) : Nat :=
  4 + 4 * (if die < 8 then s.fld die 0x050 CLK_CD [] CLK_CD_FAB else s.fld die 0x03C CLK_IOD [] CLK_IOD_FAB)

/-- One segment of a path (R421): its die, its output ports as stop, port and hop count from the first, the hop count of the whole
segment, and whether it ends on a link. -/
structure Segment where
  die : Nat
  ports : List (Nat × Nat × Nat)
  h : Nat
  link : Bool
  deriving DecidableEq, Repr

/-- The output ports from a stop towards a stop of the same die, each with its hop count (R387), and the stop and hop count at the
end; `last` is the port taken at the target. -/
def segPorts (st target last t fuel : Nat) (prev : Option Nat) : List (Nat × Nat × Nat) :=
  match fuel with
  | 0 => []
  | f + 1 =>
    let port := (portTo st target).getD last
    let t := match prev with
      | none => 0
      | some p => if p = port then t + 2 else t + 3
    if st = target then [(st, port, t)]
    else (st, port, t) :: segPorts (neighbour st port).1 target last t f (some port)

/-- The segments of a route from a stop of a die to a stop of a die, by a bank (R372). -/
def State.routeSegs (s : State) (bank die st ddie dstop fuel : Nat) : List Segment :=
  match fuel with
  | 0 => []
  | f + 1 =>
    let (target, last) := if die = ddie then (dstop, 4) else s.exitOf bank die ddie
    let ports := segPorts st target last 0 16 none
    let h := (ports.getLast?.map (fun p => p.2.2)).getD 0
    let seg : Segment := { die := die, ports := ports, h := h, link := die != ddie }
    if die = ddie then [seg]
    else
      let (die', st', _) := linkPeer die target last
      seg :: s.routeSegs bank die' st' ddie dstop f

/-- Where an agent named by kind and number (TSV_REQ0) injects: its die and stop. -/
def State.agentStop (s : State) (bank kind num : Nat) : Nat × Nat :=
  match kind with
  | 0 => (ltDie (lcTile num), s.tileStop bank (lcTile num))
  | 1 => (ltDie num, s.tileStop bank num)
  | 2 => (8 + num / 128, if num / 16 % 8 < 4 then 17 else 18)
  | _ => (8 + num / 8 % 2, match num % 8 with
    | 0 | 1 => 24
    | 2 => 25
    | 3 => 26
    | _ => 27)

/-- The destination of a queue's contract (Table 13-6): kind and number as TSV_REQ0 names them. -/
def State.contractDest (s : State) (q : Nat) : Option (Nat × Nat) :=
  if s.qf q URN_QCFG URN_QCFG_IBEN ≠ 0 then
    let lc := s.qf q URN_QBASE URN_QBASE_ITARGET
    if qHalf (iqNum lc) = qHalf q then some (0, lc) else none
  else if s.qf q URN_QCFG URN_QCFG_CONS = 2 then
    let k := s.qf q URN_QCFG URN_QCFG_OWNID
    if k < 256 then some (1, k) else if k < 512 then some (2, k - 256) else none
  else none

/-- A request for admission. -/
structure TsvReq where
  skind : Nat
  sid : Nat
  rid : Nat
  queue : Nat
  /-- Words of the largest entry. -/
  size : Nat
  rate : Nat
  /-- In units of 50 ns. -/
  bound : Nat
  deriving DecidableEq, Repr

/-- The push segments of a source and queue (R421). -/
def State.pushSegs (s : State) (bank skind sid q : Nat) : List Segment :=
  let (d, st) := s.agentStop bank skind sid
  s.routeSegs bank d st (8 + qHalf q) 10 4

/-- The notification segments of a queue. -/
def State.noteSegs (s : State) (bank q : Nat) : List Segment :=
  match s.contractDest q with
  | none => []
  | some (k, n) =>
    let (d, st) := s.agentStop bank k n
    s.routeSegs bank (8 + qHalf q) 10 d st 4

/-- Slots of a run (R423). -/
def runSlots (s0 t m l : Nat) : List Nat :=
  (List.range m).flatMap (fun j => (List.range l).map (fun i => (s0 + t + 128 * j / m + i) % 128))

/-- A segment placed for a contract at the lowest offset that fits (R423). -/
def State.placeSeg (s : State) (con : Nat) (g : Segment) (m l : Nat) : Option State :=
  let fits := fun (s0 : Nat) => g.ports.all (fun p =>
    (runSlots s0 p.2.2 m l).all (fun k => !s.slotUsed g.die p.1 p.2.1 k) &&
      decide ((List.range 128).countP (fun k => !s.slotUsed g.die p.1 p.2.1 k) ≥ 32 + m * l))
  match (List.range (128 / m)).find? fits with
  | none => none
  | some s0 => some (g.ports.foldl (fun (s : State) p =>
      (runSlots s0 p.2.2 m l).foldl (fun (s : State) k => s.slotTake g.die p.1 p.2.1 k con) s) s)

/-- The Urn service schedule of a half placed in the same way, one slot an entry. -/
def State.placeUrn (s : State) (con half m : Nat) : Option State :=
  let used := fun (k : Nat) => (tfind s.urnSched (128 * half + k)).isSome
  let fits := fun (s0 : Nat) => (runSlots s0 0 m 1).all (fun k => !used k) &&
    decide ((List.range 128).countP (fun k => !used k) ≥ 32 + m)
  match (List.range (128 / m)).find? fits with
  | none => none
  | some s0 => some { s with urnSched := (runSlots s0 0 m 1).foldl (fun t k => tput t (128 * half + k) con) s.urnSched }

/-- Every segment of a list placed. -/
def State.placeAll (s : State) (con m l : Nat) (gs : List Segment) : Option State :=
  gs.foldl (fun (o : Option State) g => o.bind (fun (s : State) => s.placeSeg con g m l)) (some s)

/-- Cycles of a clock in units of 1/55440 ns. -/
def cycUnits (c f10 : Nat) : Nat := c * (554400 / f10)

/-- The worst case of a placement (R422), in ns. -/
def State.worstCase (s : State) (r : TsvReq) (m l : Nat) (push note : List Segment) : Nat :=
  let iod := 8 + qHalf r.queue
  let fi := s.fabF10 iod
  let segs := fun (gs : List Segment) => gs.foldl (fun (acc : Nat × Nat) g =>
      let t := acc.1 + cycUnits (128 / m + g.h) (s.fabF10 g.die) + (if acc.2 = 1 then cycUnits 6 (s.fabF10 g.die) else 0)
      (t, g.link.toNat)) (0, 0)
  let hub := match s.contractDest r.queue with
    | some (2, n) =>
      let d := 8 + n / 128
      let c := n / 16 % 8
      cycUnits (4 * s.fld d (0x020 + c) KSK_CL_CTL [] KSK_CL_CTL_SLICE + 8) (10 + 2 * s.fld d 0x03C CLK_IOD [] (CLK_IOD_HKSK c))
    | _ => 0
  let t := (segs push).1 + (segs note).1 + cycUnits (l - 1) fi + cycUnits (128 / m + 24) fi + hub +
    (if r.skind = 3 then 1600 * 55440 else 0)
  ceilDiv t 55440

/-- The loop of R422: the placement at the first m that meets the bound; otherwise whether any was placed. -/
def State.admitLoop (s : State) (con : Nat) (r : TsvReq) (l : Nat) (push note : List Segment) (m fuel : Nat) (any : Bool) :
    Except Bool (Nat × Nat × State) :=
  match fuel with
  | 0 => .error any
  | f + 1 =>
    if m * l > 128 then .error any
    else
      match ((s.placeAll con m l push).bind (fun (s : State) => s.placeUrn con (qHalf r.queue) m)).bind
          (fun (s : State) => s.placeAll con m 1 note) with
      | none => s.admitLoop con r l push note (2 * m) f any
      | some s' =>
        let wc := s.worstCase r m l push note
        if wc ≤ 50 * r.bound then .ok (m, wc, s') else s.admitLoop con r l push note (2 * m) f true

/-- Whether the source of a request is there (Table 13-8, BAD_SOURCE). -/
def State.sourceOk (s : State) (r : TsvReq) : Bool :=
  let notT4 := fun (lt : Nat) => s.fld (ltDie lt) 0x050 PWR_DOM_STATUS [ltIdx lt] PWR_DOM_STATUS_STATE != 4
  match r.skind with
  | 0 => s.coreExists r.sid && notT4 (lcTile r.sid)
  | 1 => decide (r.sid < 256) && notT4 r.sid
  | 2 => decide (r.sid < 256)
  | 3 => s.rpExists (20 * (r.sid / 8 % 2) + 4 * (r.sid % 8) + r.sid / 16 % 4) && decide (r.sid % 8 < 5)
  | _ => false

/-- The world of a source: a core's or kiosk's own, a function's by its device entry. -/
def State.sourceWorld (s : State) (r : TsvReq) : Bool × State :=
  match r.skind with
  | 0 => ((s.core r.sid).walled, s)
  | 1 => (s.kWalled r.sid, s)
  | 2 => (s.kWalled (256 + r.sid), s)
  | _ =>
    let i := r.sid / 8 % 2
    match iomDevice i r.rid (s, []) with
    | (.ok (e0, _), p) => (bitOf e0 3 && p.1.dtWalled i && p.1.part == .a1, p.1)
    | (.error _, p) => (false, p.1)

/-- The checks of Table 13-8 before the placement: the code of the first that fails, and the state after the reading of a device
entry. -/
def State.admitCheck (s : State) (r : TsvReq) (walled pl3 : Bool) : Nat × State :=
  let q := r.queue
  let bit := match r.skind with
    | 0 => 0
    | 3 => 2
    | _ => 1
  if (List.range 64).all (fun n => s.cf n TSV_CCFG TSV_CCFG_VALID != 0) then (1, s)
  else if s.fld 8 0x03B MESH_FLIP_STATUS [] MESH_FLIP_STATUS_BUSY ≠ 0 then (2, s)
  else if !s.sourceOk r then (3, s)
  else if !s.qEn q || qSystem q || decide (s.qWords q < r.size) || !natBit (s.qf q URN_QCFG URN_QCFG_PROD) bit then (4, s)
  else
    let (sw, s) := s.sourceWorld r
    let qw := s.qf q URN_QCFG URN_QCFG_WORLD != 0
    if !pl3 && (sw != walled || qw != walled) then (5, s)
    else if (s.qContract q).isSome then (6, s)
    else match s.contractDest q with
      | none => (7, s)
      | some (dk, dn) =>
        let bank := s.epoch % 2
        let floor := if r.skind = 3 then 2500
          else if (s.agentStop bank r.skind r.sid).1 = (s.agentStop bank dk dn).1 then 400 else 900
        if 50 * r.bound < floor then (8, s)
        else if r.rate = 0 then (9, s)
        else (0, s)

/-- The request that TSV_REQ0 and TSV_REQ1 hold. -/
def State.tsvReq (s : State) : TsvReq :=
  let r0 := s.reg 8 0x031 TSV_REQ0 []
  let r1 := s.reg 8 0x031 TSV_REQ1 []
  { skind := field r0 0 3, sid := field r0 8 10, rid := field r0 32 16, queue := field r1 0 16, size := field r1 16 3 + 1,
    rate := field r1 24 16, bound := field r1 40 16 }

/-- An admission ended with its reason. -/
def State.tsvEnd (s : State) (reason : Nat) : State :=
  (s.setFld 8 0x031 TSV_STATUS [] TSV_STATUS_REASON reason).setFld 8 0x031 TSV_STATUS [] TSV_STATUS_DONE 1

/-- R422: an admission for a requester in a world, at PL3 or not. -/
def State.admitContract (s : State) (walled pl3 : Bool) : State :=
  let r := s.tsvReq
  match s.admitCheck r walled pl3 with
  | (0, s) =>
    let bank := s.epoch % 2
    let push := s.pushSegs bank r.skind r.sid r.queue
    let note := s.noteSegs bank r.queue
    let l := 1 + ceilDiv r.size 4
    let fmin := (push ++ note).foldl (fun (a : Nat) g => min a (s.fabF10 g.die)) (s.fabF10 (8 + qHalf r.queue))
    let m0 := ((List.range 20).map (fun k => 2 ^ k)).find? (fun m => decide (r.rate ≤ m * 200 * fmin))
    let con := ((List.range 64).find? (fun n => s.cf n TSV_CCFG TSV_CCFG_VALID == 0)).getD 0
    match s.admitLoop con r l push note (m0.getD 256) 8 false with
    | .error any =>
      if r.rate * l > 128 * 200 * fmin then s.tsvEnd 9 else s.tsvEnd (if any then 11 else 10)
    | .ok (m, wc, s) =>
      let v := v64 (1 + r.skind * 2 + r.sid * 2 ^ 4 + r.queue * 2 ^ 14 + (r.size - 1) * 2 ^ 30 + m * 2 ^ 33 + r.bound * 2 ^ 40 +
        s.cf con TSV_CCFG TSV_CCFG_WREASON * 2 ^ 56)
      let s := s.setReg 8 0x031 TSV_CCFG [con] v
      let s := s.setReg 8 0x031 TSV_CLIM [con] (v64 (r.rate + min wc 65535 * 2 ^ 16 + r.rid * 2 ^ 32))
      let s := (s.setQf r.queue URN_QSTAT URN_QSTAT_TCON con).setQf r.queue URN_QSTAT URN_QSTAT_TVALID 1
      let st := fun (s : State) f x => s.setFld 8 0x031 TSV_STATUS [] f x
      let s := st (st (st s TSV_STATUS_NUM con) TSV_STATUS_M m) TSV_STATUS_WC (min wc 65535)
      let s := st s TSV_STATUS_COUNT (s.fld 8 0x031 TSV_STATUS [] TSV_STATUS_COUNT + 1)
      ({ s with tsvLast := terase s.tsvLast con }).tsvEnd 0
  | (code, s) => s.tsvEnd code

/-- R427: TSV_CMD.WITHDRAW of contract n by software. -/
def State.tsvWithdraw (s : State) (n : Nat) : State :=
  let s := s.setFld 8 0x031 TSV_CMD [] TSV_CMD_NUM n
  if s.cf (n % 64) TSV_CCFG TSV_CCFG_VALID = 0 then s
  else (s.withdraw (n % 64) 1).setFld 8 0x031 TSV_STATUS [] TSV_STATUS_DONE 1

/-- The path of contract n by a bank. -/
def State.contractPath (s : State) (bank n : Nat) : List Segment :=
  let q := s.cf n TSV_CCFG TSV_CCFG_QUEUE
  s.pushSegs bank (s.cf n TSV_CCFG TSV_CCFG_SKIND) (s.cf n TSV_CCFG TSV_CCFG_SID) q ++ s.noteSegs bank q

/-- The admitted contracts. -/
def State.admitted (s : State) : List Nat := (List.range 64).filter (fun n => s.cf n TSV_CCFG TSV_CCFG_VALID != 0)

/-- R391: a write of 1 to MESH_FLIP_CTL.GO. -/
def State.flipGo (s : State) : State :=
  if s.fld 8 0x03B MESH_FLIP_STATUS [] MESH_FLIP_STATUS_BUSY ≠ 0 then s
  else if s.mode ≠ .m4 ∧ s.mode ≠ .m5 ∧ s.mode ≠ .m8 then s.setFlip MESH_FLIP_STATUS_REFUSED 1
  else if s.admitted.any (fun n => s.contractPath 0 n != s.contractPath 1 n) then s.setFlip MESH_FLIP_STATUS_CONTRACT 1
  else { s.setFlip MESH_FLIP_STATUS_BUSY 1 with flip := .hold }

/-! ## Clock changes -/

/-- Whether an admitted contract's path crosses a die's fabric (R425, R537). -/
def State.fabricBound (s : State) (die : Nat) : Bool :=
  s.admitted.any (fun n => (s.contractPath (s.epoch % 2) n).any (fun g => g.die == die))

/-- Whether an admitted contract names a kiosk of a range as source or destination. -/
def State.kioskBound (s : State) (kind lo hi : Nat) : Bool :=
  s.admitted.any (fun n =>
    (s.cf n TSV_CCFG TSV_CCFG_SKIND == kind && within lo (s.cf n TSV_CCFG TSV_CCFG_SID) hi) ||
    (match s.contractDest (s.cf n TSV_CCFG TSV_CCFG_QUEUE) with
     | some (k, i) => k == kind && within lo i hi
     | none => false))

/-- R537: a write to CLK_CD of die 0 to 7 or CLK_IOD of die 8 and 9. -/
def State.clockWrite (s : State) (die : Nat) (v : BitVec 64) : State :=
  let cd := decide (die < 8)
  let r := if cd then CLK_CD else CLK_IOD
  let unit := if cd then 0x050 else 0x03C
  let (busyAt, refAt, width) := if cd then (8, 9, 8) else (36, 37, 36)
  let cur := s.reg die unit r []
  let cur := if bitOf v refAt then setBit cur refAt false else cur
  let s := s.setReg die unit r [] cur
  let now := field cur 0 width
  let tgt := match tfind s.pwr.clk die with
    | some t => t.toNat
    | none => now
  let clean := fun (x : Nat) => foldN (width / 4) (fun (a : Nat) k => a + x / 2 ^ (4 * k) % 8 * 2 ^ (4 * k)) 0
  let new := clean (field v 0 width)
  let codeOk := within 1 (new % 8) (if cd then 5 else 4)
  let bound : Bool :=
    (new % 8 != now % 8 && s.fabricBound die) ||
    (if cd then new / 16 % 8 != now / 16 % 8 && s.kioskBound 1 (32 * die) (32 * die + 31)
     else (List.range 8).any (fun c => new / 2 ^ (4 * c + 4) % 8 != now / 2 ^ (4 * c + 4) % 8 &&
       s.kioskBound 2 (128 * (die - 8) + 16 * c) (128 * (die - 8) + 16 * c + 15)))
  if !codeOk ∨ bound then s.setReg die unit r [] (setBit cur refAt true)
  else if new = tgt then s
  else { s.setReg die unit r [] (setBit cur busyAt true) with pwr := { s.pwr with clk := tput s.pwr.clk die (v64 new) } }

/-- R537: the clock of a die restarts at its new frequency, and with its fabric clock the die's slots (R386). -/
def State.clockDone (s : State) (die : Nat) : State :=
  match tfind s.pwr.clk die with
  | none => s
  | some t =>
    let cd := decide (die < 8)
    let r := if cd then CLK_CD else CLK_IOD
    let unit := if cd then 0x050 else 0x03C
    let cur := s.reg die unit r []
    let s := if field cur 0 3 = t.toNat % 8 then s else s.slotRestart die
    let cur := setBit (setField cur 0 (if cd then 8 else 36) t.toNat) (if cd then 8 else 36) false
    { s.setReg die unit r [] cur with pwr := { s.pwr with clk := terase s.pwr.clk die } }

end Sys2Proof.Machine
end

