-- ==== Sys2Proof/Machine/MemEvents.lean ====
section
/-! DEFINITION. What the channels and the Groundskeeper do to memory by themselves (11_memory_ecc.md): background fill writes,
granule initialisation, patrol reads, calibration; and the writes of MEM_MARK, MEM_RANGE and the GK_ registers. -/
set_option autoImplicit false
namespace Sys2Proof.Machine

/-- The modes in which memory has been brought up (Table 1-4: M4 to M8, M10). -/
def Mode.up (m : Mode) : Bool :=
  match m with
  | .m4 | .m5 | .m6 | .m7 | .m8 | .m10 => true
  | .m0 | .m1 | .m2 | .m3 | .m9 | .m11 => false

/-- Whether a channel is trained and in service. -/
def State.chTrained (s : State) (ch : Nat) : Bool := s.mf ch MEM_CFG MEM_CFG_TRAINED != 0

/-- Whether a channel's domain runs: not in power-down or self-refresh (R359). -/
def State.chAwake (s : State) (ch : Nat) : Bool :=
  s.fld (8 + ch / 8) 0x03C PWR_DOM_STATUS_I [ch % 8] PWR_DOM_STATUS_STATE == 0

/-- The lowest line of a granule whose done bit is clear, from a line on. -/
def fillNext (map n fuel : Nat) : Option Nat :=
  match fuel with
  | 0 => none
  | f + 1 => if n ≥ 512 then none else if natBit map n then fillNext map (n + 1) f else some n

/-- R358: the controller writes the next zero line of a FILLING granule; fill writes pause in power-down (R359). -/
def State.fillWrite (s : State) (ch g : Nat) : State :=
  match (s.chan ch).fillMap g with
  | none => s
  | some map =>
    match fillNext map 0 513 with
    | none => s
    | some n => if s.chAwake ch then (s.chanStore ch (512 * g + n) zeroLine 0 false).chanDrain ch 64 else s

/-- R360: the Groundskeeper moves the next INVALID granule of a channel to FILLING while at least 8 entries are free, or finds
none left. -/
def State.granuleInit (s : State) (ch : Nat) : State :=
  let c := s.chan ch
  let g := c.nextInvalid c.initPos (c.valid.length + c.fill.length + 1)
  if !s.mode.up then s
  else if !s.chTrained ch ∨ 512 * g ≥ s.chanLines ch then s.initDone ch
  else if c.fill.length + 8 > 64 then s
  else (s.setChan ch { c with initPos := g + 1 }).fillStart ch g

/-- The line that a patrol reads next: its position when its granule is VALID, else the first line of the next VALID granule. -/
def Chan.patrolNext (c : Chan) : Option Nat :=
  if tget c.valid false (granOf c.patrolPos) then some c.patrolPos
  else (c.valid.find? (fun p => decide (p.1 > granOf c.patrolPos) && p.2)).map (fun p => 512 * p.1)

/-- Whether a channel is the one whose passes its die counts: the lowest in service. -/
def State.patrolLead (s : State) (ch : Nat) : Bool :=
  (List.range 8).find? (fun k => s.chTrained (8 * (ch / 8) + k)) == some (ch % 8)

/-- R361: a patrol read of the next VALID line of a channel, or the end of its pass; `bad` are the devices that a probe would find
failing, `late` says that the pass has outlasted its period. -/
def State.patrol (s : State) (ch : Nat) (bad : List Nat) (late : Bool) : State :=
  let gk := fun (s : State) f x => s.setFld (chDie ch) gkUnit GK_SCRUB_STATUS [] f x
  if !s.flag (chDie ch) gkUnit GK_SCRUB_CTL [] GK_SCRUB_CTL_EN ∨ !s.mode.up ∨ !s.chTrained ch then s
  else
    let s := if late then gk s GK_SCRUB_STATUS_BEHIND 1 else s
    match (s.chan ch).patrolNext with
    | some line =>
      let s := (s.dramRead ch line bad true false).2
      let s := s.count (chDie ch) (chUnit ch) cntMem 0x04 1 false
      gk (s.setChan ch { s.chan ch with patrolPos := line + 1 }) GK_SCRUB_STATUS_POS (granOf line)
    | none =>
      let s := gk (s.setChan ch { s.chan ch with patrolPos := 0 }) GK_SCRUB_STATUS_POS 0
      if s.patrolLead ch then s.addFld (chDie ch) gkUnit GK_SCRUB_STATUS [] GK_SCRUB_STATUS_PASSES 1 else s

/-- R362: a ZQ calibration of a rank, or an oscillator read: the time of the action is kept. -/
def State.calibrate (s : State) (ch rank : Nat) (zq : Bool) : State :=
  let c := s.chan ch
  if !s.chTrained ch ∨ rank > s.mf ch MEM_CFG MEM_CFG_RANKS then s
  else s.setChan ch (if zq then { c with lastZq := tset c.lastZq 0 rank s.time } else { c with lastOsc := tset c.lastOsc 0 rank s.time })

/-- R363: the temperature of a DIMM in tenths of a °C: above 85 °C its ranks' refresh rate doubles, below 82 °C it returns. -/
def State.dimmTemp (s : State) (ch dimm t10 : Nat) : State :=
  let c := s.chan ch
  let was := c.fastRefresh.getD dimm false
  let now : Bool := if t10 > 850 then true else if t10 < 820 then false else was
  if !s.chTrained ch ∨ dimm > 1 then s else s.setChan ch { c with fastRefresh := lset c.fastRefresh dimm now }

/-- R346: a write to MEM_MARK. -/
def State.markWrite (s : State) (ch : Nat) (v : BitVec 64) : State :=
  let limit := if s.chX8 ch then 10 else 20
  let bad := (List.range 8).any (fun q => bitOf v (8 * q + 7) && decide (field v (8 * q) 5 ≥ limit))
  if bad then s.setMf ch MEM_STATUS MEM_STATUS_MARK_REFUSED 1
  else s.setReg (chDie ch) (chUnit ch) MEM_MARK [] (v &&& 0xDFDFDFDFDFDFDFDF)

/-- Channels of a range register value. -/
def rangeChans (r : BitVec 64) : List Nat :=
  match field r 44 2 with
  | 0 => []
  | 1 => List.range 16
  | w => (List.range 8).map (fun k => 8 * (w - 2) + k)

/-- The span of a range in each of its channels, in 64 MiB units: first, and one past the last. -/
def rangeSpan (r : BitVec 64) : Nat × Nat :=
  let gib := field r 22 22 + 1 - field r 0 22
  (field r 46 13, field r 46 13 + gib * (if field r 44 2 = 1 then 1 else 2))

/-- R353: whether a value may be written to MEM_RANGEn. -/
def State.rangeOk (s : State) (n : Nat) (v : BitVec 64) : Bool :=
  let base := field v 0 22
  let limit := field v 22 22
  let sp := rangeSpan v
  let chans := rangeChans v
  (s.mode == .m4 || s.mode == .m8) &&
    (field v 44 2 == 0 ||
      (decide (base ≤ limit) && decide ((limit + 1) * 2 ^ 30 ≤ 0x000FFFF000000000) &&
        (List.range 4).all (fun k =>
          let r := s.memRange k
          k == n || field r 44 2 == 0 ||
            ((decide (limit < field r 0 22) || decide (field r 22 22 < base)) &&
              (!(chans.any (fun c => (rangeChans r).contains c)) || decide (sp.2 ≤ (rangeSpan r).1) ||
                decide ((rangeSpan r).2 ≤ sp.1)))) &&
        chans.all (fun c =>
          decide (sp.2 ≤ s.mf c MEM_CFG MEM_CFG_CAP) && s.mf c MEM_STATUS MEM_STATUS_TRAIN_FAIL == 0)))

/-- R353: a write to MEM_RANGEn in channel 0 of IOD0. -/
def State.memRangeWrite (s : State) (n : Nat) (v : BitVec 64) : State :=
  if s.rangeOk n v then s.setReg 8 0 MEM_RANGE [n] (v &&& 0x07FFFFFFFFFFFFFF) else s.setMf 0 MEM_STATUS MEM_STATUS_MAP_REFUSED 1

/-- R367: a write to GK_CAL_CTL, discarded as a whole with a field outside its range. -/
def State.calCtlWrite (s : State) (die : Nat) (v : BitVec 64) : State :=
  if within 16 (field v 0 10) 1000 ∧ within 1 (field v 16 7) 64 then
    s.setReg die gkUnit GK_CAL_CTL [] (v &&& 0x7F03FF)
  else s

/-- A write to GK_SCRUB_CTL (R361). -/
def State.scrubCtlWrite (s : State) (die : Nat) (v : BitVec 64) : State :=
  let s := s.setFld die gkUnit GK_SCRUB_CTL [] GK_SCRUB_CTL_EN (field v 0 1)
  if within 1 (field v 8 8) 168 then s.setFld die gkUnit GK_SCRUB_CTL [] GK_SCRUB_CTL_PERIOD (field v 8 8) else s

end Sys2Proof.Machine
end

