-- ==== Sys2Proof/Machine/Walled.lean ====
section
/-! DEFINITION. The Walled world's registers (16_walled_world.md): Walled ranges (R497), the core of the monitor queue (R504), the
Walled watchdog (R508), and the scrub of Walled memory (R509). -/
set_option autoImplicit false
namespace Sys2Proof.Machine

/-- A field of a register of the WW_ node. -/
def State.ww (s : State) (r : RegDef) (f : RField) : Nat := s.fld 15 2 r [] f
/-- A field of a register of the WW_ node written. -/
def State.setWw (s : State) (r : RegDef) (f : RField) (x : Nat) : State := s.setFld 15 2 r [] f x

/-- A WW_ write discarded (R497, R504). -/
def State.wwRefuse (s : State) : State := s.setWw WW_STATUS WW_STATUS_REFUSED 1

/-- R497: whether a span of 32 MiB units, from base to limit, lies wholly in one enabled MEM_RANGE. -/
def State.wwSpanOk (s : State) (base limit : Nat) : Bool :=
  decide (base ≤ limit) &&
    (List.range 4).any (fun n =>
      let r := s.memRange n
      field r 44 2 != 0 && decide (field r 0 22 ≤ base / 32) && decide (limit / 32 ≤ field r 22 22))

/-- R497: a Walled write to WW_RANGEn. -/
def State.wwRangeWrite (s : State) (n : Nat) (v : BitVec 64) : State :=
  if bitOf v 54 ∧ !s.wwSpanOk (field v 0 27) (field v 27 27) then s.wwRefuse
  else s.setReg 15 2 WW_RANGE [n] (v &&& 0x7FFFFFFFFFFFFF)

/-- The queue number of the monitor queue (R502). -/
def monQueue : Nat := 0x7F00

/-- R502, R504: a Walled write to WW_CTL binds the monitor queue to a core that exists. -/
def State.wwCtlWrite (s : State) (v : BitVec 64) : State :=
  let lc := field v 0 10
  if !s.coreExists lc then s.wwRefuse
  else
    let s := s.setWw WW_CTL WW_CTL_MONCORE lc
    if s.qEn monQueue then
      (s.setQf monQueue URN_QBASE URN_QBASE_ITARGET lc).setQf monQueue URN_QCFG URN_QCFG_IBEN 1
    else s

/-! ## The watchdog -/

/-- The watchdog has been started (R508). -/
def State.wdogOn (s : State) : Bool := s.part == .a1 && s.ww WW_WDOG_CTL WW_WDOG_CTL_EN != 0
/-- The modes in which the watchdog counts (R508). -/
def Mode.wdogRuns (m : Mode) : Bool :=
  match m with
  | .m4 | .m5 | .m6 | .m7 | .m8 => true
  | .m0 | .m1 | .m2 | .m3 | .m9 | .m10 | .m11 => false
/-- The time remaining, in ns. -/
def State.wdogLeft (s : State) : Nat := s.ww WW_WDOG_CTL WW_WDOG_CTL_PERIOD_MS * 1000000 - s.wdog

/-- R508: the warning, once after each start or restart, when the time remaining is WARN_MS or less. -/
def State.wdogWarn (s : State) : State :=
  let warn := s.ww WW_WDOG_CTL WW_WDOG_CTL_WARN_MS
  if s.wdogOn ∧ !s.wdogWarned ∧ warn ≠ 0 ∧ s.wdogLeft ≤ warn * 1000000 then
    let s := { s.setWw WW_STATUS WW_STATUS_WARNED 1 with wdogWarned := true }
    s.monPush 0x84 0 0 (s.wdogLeft / 1000000)
  else s

/-- The count starts again from 0. -/
def State.wdogRestart (s : State) : State := ({ s with wdog := 0, wdogWarned := false }).wdogWarn

/-- R508: a Walled write to WW_WDOG_CTL. PERIOD_MS is written first, so that WARN_MS is compared with it. -/
def State.wdogCtlWrite (s : State) (v : BitVec 64) : State :=
  let on := s.ww WW_WDOG_CTL WW_WDOG_CTL_EN != 0
  let period := field v 8 16
  let s := if !on && within 1 period 60000 then s.setWw WW_WDOG_CTL WW_WDOG_CTL_PERIOD_MS period else s
  let s := if field v 32 16 < s.ww WW_WDOG_CTL WW_WDOG_CTL_PERIOD_MS then s.setWw WW_WDOG_CTL WW_WDOG_CTL_WARN_MS (field v 32 16) else s
  if bitOf v 0 && !on then ((s.setWw WW_WDOG_CTL WW_WDOG_CTL_EN 1).setWw WW_WDOG_STATUS WW_WDOG_STATUS_KICKS 0).wdogRestart else s

/-- R508: a committed kick. -/
def State.wdogKick (s : State) : State :=
  if s.wdogOn then (s.addFld 15 2 WW_WDOG_STATUS [] WW_WDOG_STATUS_KICKS 1).wdogRestart else s

/-- Whether the count has reached PERIOD_MS. -/
def State.wdogDue (s : State) : Bool := s.wdogOn && s.mode.wdogRuns && s.wdogLeft == 0

/-! ## The scrub -/

/-- The line number in a range of a channel line of a channel, the inverse of R352. -/
def rangeLine (r : BitVec 64) (ch chline : Nat) : Nat :=
  let ways := field r 44 2
  let up := chline - field r 46 13 * 2 ^ 19
  if ways = 1 then up * 16 + (ch ^^^ foldSel 4 up 12) % 16 else up * 8 + (ch % 8 ^^^ foldSel 3 up 16) % 8

/-- Whether a channel line holds Walled memory (R352, R497). -/
def State.walledLine (s : State) (ch chline : Nat) : Bool :=
  (List.range 4).any (fun n =>
    let r := s.memRange n
    let pa := field r 0 22 * 2 ^ 30 + rangeLine r ch chline * 128
    rangeHas r pa && rangeMap r pa == (ch, chline) && s.walledMem pa)

/-- R509 step 3: every line of every enabled Walled range is written as zero words with tag 0x00. What DRAM holds of such a
line is no longer listed, and no symbol error stands in it. -/
def State.walledScrub (s : State) : State :=
  let s := { s with mem := s.mem.filter (fun c => !s.walledLine (c.1 / 2 ^ 39) (c.1 % 2 ^ 39 / 128)),
                    memTags := s.memTags.filter (fun c => !s.walledLine (c.1 / 2 ^ 36) (c.1 % 2 ^ 36 / 16)) }
  foldN 16 (fun (s : State) ch =>
    let c := s.chan ch
    s.setChan ch { c with raw := c.raw.filter (fun p => !s.walledLine ch p.1) }) s

end Sys2Proof.Machine
end

