-- ==== Sys2Proof/Machine/Life.lean ====
section
/-! DEFINITION. The life of the part (20_errors_ras_life.md): retained records (R586), ageing, guardbands and wear (R598 to R600), QUIET
and proposals (R601, R602), retirement (R603) and the lifetime record (R604). -/
set_option autoImplicit false
namespace Sys2Proof.Machine

/-! ## Retained records -/

/-- Every valid record of the package, by 8 × node ID + slot, with its four words. -/
def State.validRecords (s : State) : Tbl (List (BitVec 64)) :=
  s.regs.foldl (fun (t : Tbl (List (BitVec 64))) p =>
    let off := p.1 % 2 ^ 22
    if within 0x3F0100 off 0x3F01FF ∧ off % 0x20 = 0 ∧ bitOf p.2 63 then
      let node := p.1 / 2 ^ 22
      tput t (8 * node + (off - 0x3F0100) / 0x20) (s.erbWords (node / 2 ^ 10) (node % 2 ^ 10) ((off - 0x3F0100) / 0x20))
    else t) []

/-- Whether a record goes before another (R586): the higher class, then the earlier TIME, then the lower node and slot. -/
def recBefore (a b : Nat × List (BitVec 64)) : Bool :=
  let cls := fun (x : Nat × List (BitVec 64)) => field (x.2.getD 0 0) 0 3
  let time := fun (x : Nat × List (BitVec 64)) => (x.2.getD 3 0).toNat
  decide (cls a > cls b) || (cls a == cls b && (decide (time a < time b) || (time a == time b && decide (a.1 < b.1))))

/-- A record put in its place in a list ordered by R586. -/
def recInsert (l : List (Nat × List (BitVec 64))) (x : Nat × List (BitVec 64)) : List (Nat × List (BitVec 64)) :=
  match l with
  | [] => [x]
  | y :: r => if recBefore x y then x :: y :: r else y :: recInsert r x

/-- R586: up to 256 valid records copied into the always-on island, beside those it holds already. -/
def State.keepRecords (s : State) : State :=
  let all := s.validRecords.foldl (fun (t : Tbl (List (BitVec 64))) p => tput t p.1 p.2) s.boot.retained
  let best := (all.foldl recInsert []).take 256
  { s with boot := { s.boot with retained := best.foldl (fun (t : Tbl (List (BitVec 64))) p => tput t p.1 p.2) [] } }

/-- R586: the copies of some nodes restored into their slots. -/
def State.restoreRecords (s : State) (node : Nat → Bool) : State :=
  let mine := s.boot.retained.filter (fun p => node (p.1 / 8))
  let s := mine.foldl (fun (s : State) p => s.erbWrite (p.1 / 8 / 2 ^ 10) (p.1 / 8 % 2 ^ 10) (p.1 % 8) p.2) s
  { s with boot := { s.boot with retained := s.boot.retained.filter (fun p => !node (p.1 / 8)) } }

/-- The node whose power domain a domain is (Tables 2-3, 17-2). -/
def domNode (dom : Nat) : Option Nat :=
  let d := 8 + (dom - 0x200) / 0x40
  let k := dom % 0x40
  match domCls dom with
  | some .tile => some (nodeId (dom / 0x40) k)
  | some .chan => some (nodeId d k)
  | some .port => some (nodeId d (0x010 + (k - 8)))
  | some .fb => some (nodeId d (0x018 + (k - 13)))
  | some .cluster => some (nodeId d (0x020 + (k - 16)))
  | some .fixed | none => none

/-- R527, R586: a domain's change completes; when the domain has risen, the retained records of its node are restored. -/
def State.domChangeDone (s : State) (dom : Nat) : State :=
  let s := s.domComplete dom
  if s.domSt dom PWR_DOM_STATUS_STATE = 0 then s.restoreRecords (fun n => domNode dom == some n) else s

/-! ## Guardbands -/

/-- A field of GK_TILE. -/
def State.gkTile (s : State) (lt : Nat) (f : RField) : Nat := s.fld (gkDie lt) 0x03A GK_TILE [lt % 128] f
/-- A field of GK_TILE written. -/
def State.setGkTile (s : State) (lt : Nat) (f : RField) (x : Nat) : State := s.setFld (gkDie lt) 0x03A GK_TILE [lt % 128] f x
/-- A field of GK_WEAR. -/
def State.gkWear (s : State) (lt : Nat) (f : RField) : Nat := s.fld (gkDie lt) 0x03A GK_WEAR [lt % 128] f
/-- A field of GK_WEAR written. -/
def State.setGkWear (s : State) (lt : Nat) (f : RField) (x : Nat) : State := s.setFld (gkDie lt) 0x03A GK_WEAR [lt % 128] f x

/-- R599: a guardband in 5-mV steps for a slowdown and ten times the multiplier of a band, before its limit of 12. -/
def guardSteps (slow m10 : Nat) : Nat := ceilDiv (slow * m10) 50

/-- R599: the guardbands of a tile after its SLOW has changed; a guardband never falls. -/
def State.guardbandUpdate (s : State) (lt : Nat) : State :=
  let slow := s.gkTile lt GK_TILE_SLOW
  let band := fun (s : State) (f : RField) m10 => s.setGkTile lt f (max (s.gkTile lt f) (min 12 (guardSteps slow m10)))
  let beyond := [15, 20, 25].any (fun (m : Nat) => decide (guardSteps slow m > 12))
  let s := band (band (band s GK_TILE_GB0 15) GK_TILE_GB1 20) GK_TILE_GB2 25
  let s := { s with lifeDue := true }
  if beyond then (s.setGkTile lt GK_TILE_AGE_LIMIT 1).propose lt 1 else s

/-- R599: the present guardbands take effect at a tile. -/
def State.guardbandApply (s : State) (lt : Nat) : State :=
  { s with pwr := { s.pwr with gb := tset s.pwr.gb 0 lt (field (s.reg (gkDie lt) 0x03A GK_TILE [lt % 128]) 8 12) } }

/-- R522, R599: a level change completes, at the tile's present guardband. -/
def State.levelComplete (s : State) (lt : Nat) : State := if (s.lvl lt).prog.isSome then (s.levelDone lt).guardbandApply lt else s

/-- R599: 1 s has passed without a level change. -/
def State.guardbandRamp (s : State) (lt : Nat) : State := s.guardbandApply lt

/-! ## Ageing -/

/-- Power-on hours: those of the record and those since M2 (Table 20-5). -/
def State.poh (s : State) : Nat := s.life.poh + s.time / 3600000000000

/-- A number put in its place in a rising list. -/
def insertNat (l : List Nat) (x : Nat) : List Nat :=
  match l with
  | [] => [x]
  | y :: r => if x ≤ y then x :: y :: r else y :: insertNat r x

/-- Twice the median of a list. -/
def median2 (l : List Nat) : Nat :=
  let o := l.foldl insertNat []
  o.getD ((o.length - 1) / 2) 0 + o.getD (o.length / 2) 0

/-- R601: QUIET of a safe-mode arbour. -/
def State.quietCheck (s : State) (lt : Nat) : State :=
  let others := (List.range 32).map (fun i => 32 * ltDie lt + i) |>.filter (fun (x : Nat) => x != lt && s.safeArb x)
  if s.safeArb lt ∧ s.gkTile lt GK_TILE_RECOV = 0 ∧ s.poh ≥ tget s.life.since 0 lt + 8760 ∧ others ≠ [] ∧
      median2 (others.map (fun x => s.gkTile x GK_TILE_RECOV)) ≥ 8 then s.setGkTile lt GK_TILE_QUIET 1
  else s

/-- R598: a measurement of a tile's oscillators, with the raw slowdown in 0.1 %. -/
def State.ageMeasure (s : State) (lt raw : Nat) : State :=
  if !s.flag (gkDie lt) 0x03A GK_AGE_CTL [] GK_AGE_CTL_EN ∨ s.tileSt lt > 1 then s
  else
    let (off, s) := match tfind s.life.offset lt with
      | some o => (o, s)
      | none => (raw, { s with life := { s.life with offset := tput s.life.offset lt raw }, lifeDue := true })
    let slow := raw - off
    let runs := tget s.life.runs [] lt
    let low := min slow (min (runs.getD 0 0) (runs.getD 1 0))
    let s := { s with life := { s.life with runs := tset s.life.runs [] lt (slow :: runs.take 1) } }
    let s := if low > s.gkTile lt GK_TILE_SLOW ∧ s.gkTile lt GK_TILE_SLOW < 255 then
        (s.setGkTile lt GK_TILE_SLOW (min low 255)).guardbandUpdate lt
      else s
    s.quietCheck lt

/-! ## Wear -/

/-- What a second at a level takes from the wear balance (R600). -/
def wearOf (level : Nat) : Nat := if level = 0 then 4 else if level = 1 then 2 else if level = 2 then 1 else 0

/-- R600: one second of a tile with its junction temperature in °C, at the end of an hour with its hourly gain. -/
def State.wearUpdate (s : State) (lt tj : Nat) (hour : Bool) : State :=
  let lv := (s.lvl lt).cur
  let runs := decide (s.tileSt lt = 0)
  let cost := if runs then wearOf lv * (if tj > 95 then 2 else 1) else 0
  let rate := s.fld (gkDie lt) 0x03A GK_WEAR_CTL [] GK_WEAR_CTL_RATE
  let b := s.gkWear lt GK_WEAR_BALANCE
  let b' := b - cost
  let b' := if hour then min (b' + rate) (max b' (168 * rate)) else b'
  let capped := s.gkWear lt GK_WEAR_CAPPED
  let capped' := if b - cost = 0 ∧ b' < 3600 then 1 else if b' ≥ 3600 then 0 else capped
  let s := (s.setGkWear lt GK_WEAR_BALANCE b').setGkWear lt GK_WEAR_CAPPED capped'
  let hot := tget s.life.hotSec 0 lt + (if runs && decide (lv ≤ 2) then 1 else 0)
  let s := { s with life := { s.life with hotSec := tset s.life.hotSec 0 lt (hot % 3600) } }
  let s := if hot = 3600 then s.setGkWear lt GK_WEAR_HOT_HOURS (satAdd (s.gkWear lt GK_WEAR_HOT_HOURS) 1 32) else s
  if capped' = capped then s else s.regrant lt

/-! ## The lifetime record -/

/-- Number of the physical tile that carries a logical tile. -/
def State.stopNum (s : State) (lt : Nat) : Nat := 34 * ltDie lt + s.scanOf lt

/-- What the lifetime record holds of the tile that carries lt. -/
def State.tileLife (s : State) (lt : Nat) : TileLife :=
  { tile := s.reg (gkDie lt) 0x03A GK_TILE [lt % 128], wear := s.reg (gkDie lt) 0x03A GK_WEAR [lt % 128],
    offset := tfind s.life.offset lt, l2 := s.fld (ltDie lt) (ltIdx lt) L2_WAY_DIS [] L2_WAY_DIS_HWDIS,
    llc := s.fld (ltDie lt) (llcUnit lt) LLC_WAY_DIS [] LLC_WAY_DIS_HWDIS, since := tget s.life.since 0 lt }

/-- A physical tile's record taken up for the logical tile that it carries now. -/
def State.loadTile (s : State) (lt : Nat) (t : TileLife) : State :=
  let s := (s.setReg (gkDie lt) 0x03A GK_TILE [lt % 128] t.tile).setReg (gkDie lt) 0x03A GK_WEAR [lt % 128] t.wear
  let s := (s.setFld (ltDie lt) (ltIdx lt) L2_WAY_DIS [] L2_WAY_DIS_HWDIS t.l2).setFld (ltDie lt) (llcUnit lt) LLC_WAY_DIS []
    LLC_WAY_DIS_HWDIS t.llc
  let off := match t.offset with
    | some o => tput s.life.offset lt o
    | none => terase s.life.offset lt
  { s with life := { s.life with offset := off, since := tset s.life.since 0 lt t.since, runs := tset s.life.runs [] lt [] } }

/-- A new tile's record: the full wear balance at the present rate, in use from now on (R600). -/
def State.newTile (s : State) (lt : Nat) : TileLife :=
  { TileLife.reset with wear := v64 (168 * s.fld (gkDie lt) 0x03A GK_WEAR_CTL [] GK_WEAR_CTL_RATE), since := s.poh }

/-- A logical tile is carried by no stop from now on: the record of the tile that carried it is put aside. -/
def State.leaveTile (s : State) (lt : Nat) : State :=
  let s := if s.noStop lt then s else { s with life := { s.life with tiles := tput s.life.tiles (s.stopNum lt) (s.tileLife lt) } }
  { s with stops := tput s.stops lt noScan }

/-- A logical tile is carried by the stop with a scan index of its die from now on: that tile's record is taken up. -/
def State.takeTile (s : State) (lt scan : Nat) : State :=
  let s := { s with stops := tput s.stops lt scan }
  let new := match tfind s.life.tiles (s.stopNum lt) with
    | some t => t
    | none => s.newTile lt
  let s := s.loadTile lt new
  { s with life := { s.life with tiles := terase s.life.tiles (s.stopNum lt) } }

/-- A logical tile moved to another stop: the former tile's record is put aside, the new one's is taken up. -/
def State.moveTile (s : State) (lt scan : Nat) : State := (s.leaveTile lt).takeTile lt scan

/-- The map of a die: the scan index of each die index. -/
def State.dieMap (s : State) (d : Nat) : List Nat := (List.range 32).map (fun i => s.scanOf (32 * d + i))

/-- Stops of a die that hold no die index and are not quarantined, in scan order. -/
def State.spares (s : State) (d : Nat) : List Nat :=
  (List.range 34).filter (fun (n : Nat) => !(s.dieMap d).contains n && !s.life.quar.contains (34 * d + n))

/-- The DIMM of a rank of a channel (R351): the lower half of the ranks are those of DIMM 0 (DESIGN CHOICE, entry 97). -/
def State.rankDimm (s : State) (ch rank : Nat) : Nat :=
  if s.mf ch MEM_CFG MEM_CFG_DPC = 0 then 0 else rank / max 1 ((s.mf ch MEM_CFG MEM_CFG_RANKS + 1) / 2)

/-- R351: the marks that stand now, with the serial numbers of their DIMMs; those of channels without a trained channel are kept as
saved. -/
def State.marksNow (s : State) : List Mark :=
  s.life.marks.filter (fun m => s.mf m.chan MEM_CFG MEM_CFG_TRAINED == 0) ++
    (List.range 16).flatMap (fun ch =>
      let r := s.reg (chDie ch) (chUnit ch) MEM_MARK []
      if s.mf ch MEM_CFG MEM_CFG_TRAINED = 0 then []
      else ((List.range 8).filter (fun (q : Nat) => bitOf r (8 * q + 7))).map (fun q =>
        ({ chan := ch, rank := q, dev := field r (8 * q) 5, serial := (s.chan ch).serial.getD (s.rankDimm ch q) 0 } : Mark)))

/-- The lifetime record as the Gatehouse would write it now (Table 20-5). -/
def State.lifeRec (s : State) : LifeRec :=
  let live := foldN 8 (fun (t : Tbl TileLife) d =>
    if (tfind s.life.maps d).isSome then foldN 32 (fun (t : Tbl TileLife) i =>
      if s.noStop (32 * d + i) then t else tput t (s.stopNum (32 * d + i)) (s.tileLife (32 * d + i))) t
    else t) s.life.tiles
  { maps := s.life.maps, quar := s.life.quar, tiles := live, marks := s.marksNow, events := s.life.events, retired := s.life.retired,
    poh := s.poh }

/-- A field of GK_LIFE_STATUS of both dies written. -/
def State.setLifeStat (s : State) (f : RField) (x : Nat) : State :=
  (s.setFld 8 0x03A GK_LIFE_STATUS [] f x).setFld 9 0x03A GK_LIFE_STATUS [] f x

/-- R604: whether copy B is the one that a write replaces: the copy that is not valid, or that with the lower SEQ. -/
def State.lifeTarget (s : State) : Bool :=
  if !s.boot.lifeA.ok then false else if !s.boot.lifeB.ok then true else decide (s.boot.lifeB.seq < s.boot.lifeA.seq)

/-- R604: the lifetime record is written, or the write fails and leaves its copy not valid. -/
def State.lifeWrite (s : State) (ok : Bool) : State :=
  let b := s.lifeTarget
  let top := max (if s.boot.lifeA.ok then s.boot.lifeA.seq else 0) (if s.boot.lifeB.ok then s.boot.lifeB.seq else 0)
  let old := if b then s.boot.lifeB else s.boot.lifeA
  let new : LifeCopy := if ok then { seq := (top + 1) % 2 ^ 32, ok := true, content := s.lifeRec } else { old with ok := false }
  let s := { s with boot := if b then { s.boot with lifeB := new } else { s.boot with lifeA := new } }
  if ok then { (s.setLifeStat GK_LIFE_STATUS_SEQ new.seq).setLifeStat GK_LIFE_STATUS_COPY b.toNat with lifeDue := false }
  else (s.setLifeStat GK_LIFE_STATUS_FAIL 1).err 8 0x03A (ErrRec.mk1 2 0x19 0 0)

/-- R605: the lifetime record read in M2: the valid copy with the higher SEQ, or none. -/
def State.lifeRead (s : State) : State :=
  let a := s.boot.lifeA
  let b := s.boot.lifeB
  let use : Option (Bool × LifeCopy) :=
    if a.ok ∧ (!b.ok ∨ a.seq ≥ b.seq) then some (false, a) else if b.ok then some (true, b) else none
  match use with
  | none =>
    let s := { s with life := { LifeState.reset with events := s.life.events } }
    (s.setLifeStat GK_LIFE_STATUS_LOST 1).err 8 0x03A (ErrRec.mk1 4 0x19 0 0)
  | some (isB, c) =>
    let r := c.content
    let ev := s.life.events.foldl (fun (t : Tbl Nat) p => tset t 0 p.1 (max p.2 (tget t 0 p.1))) r.events
    let s := { s with life := { LifeState.reset with maps := r.maps, quar := r.quar, tiles := r.tiles, marks := r.marks, events := ev,
                                                     retired := r.retired, poh := r.poh } }
    let s := (s.setLifeStat GK_LIFE_STATUS_SEQ c.seq).setLifeStat GK_LIFE_STATUS_COPY isB.toNat
    foldN 8 (fun (s : State) d =>
      match tfind r.maps d with
      | none => s
      | some m => foldN 32 (fun (s : State) i =>
          if m.getD i i = noScan then { s with stops := tput s.stops (32 * d + i) noScan } else s.takeTile (32 * d + i) (m.getD i i)) s) s

/-! ## Retirement -/

/-- A retirement entered in the record, of which the last 64 are kept. -/
def State.retiredLog (s : State) (d old new reason : Nat) : State :=
  let l := s.life.retired ++ [{ poh := s.poh, die := d, old := old, new := new, reason := reason }]
  { s with life := { s.life with retired := l.drop (l.length - 64) } }

/-- R603, R390, R392: every die's map and route written to the inactive banks, and the flip to them. -/
def State.flipMap (s : State) : State :=
  let from_ := s.epoch % 2
  let to_ := 1 - from_
  let s := foldN 8 (fun (s : State) d =>
    let s := s.setReg d 0x040 MESH_ROUTE [to_] (s.reg d 0x040 MESH_ROUTE [from_])
    foldN 32 (fun (s : State) i => s.setFld d 0x040 MESH_TILEMAP [to_, i / 8] (MESH_TILEMAP_STOP (i % 8)) (scanStop (s.scanOf (32 * d + i))))
      s) s
  let s := (s.setFlip MESH_FLIP_STATUS_EPOCH ((s.epoch + 1) % 4)).setFlip MESH_FLIP_STATUS_DONE 1
  s.setFlip MESH_FLIP_STATUS_FLIPS (s.fld 8 0x03B MESH_FLIP_STATUS [] MESH_FLIP_STATUS_FLIPS + 1)

/-- R17, R603: the die index of lt moves to a spare; the retired tile goes to T4 as quarantined, and the logical tile is whole again. -/
def State.retireTo (s : State) (lt scan : Nat) : State :=
  let d := ltDie lt
  let old := s.scanOf lt
  let reason := s.gkTile lt GK_TILE_PROPOSE
  let s := (s.l2FlushAll lt).llcFlushAll lt
  let s := (s.moveTile lt scan).retiredLog d old scan reason
  let s := { s with life := { s.life with quar := s.life.quar ++ [34 * d + old] }, lifeDue := true }
  let s := { s with life := { s.life with maps := tput s.life.maps d (s.dieMap d) } }
  let s := (s.setTile lt TileCache.reset).setKsk lt Kiosk.reset
  let f := s.fld 15 1 GH_TILE_FATAL [lt / 64] GH_TILE_FATAL_FATAL
  let s := if natBit f (lt % 64) then
      (s.setFld 15 1 GH_TILE_FATAL [lt / 64] GH_TILE_FATAL_FATAL (f - 2 ^ (lt % 64))).domReach (tileDom lt) 0
    else s
  s.flipMap

/-- R603: the spares of a die tested in scan order until one passes; the failing ones are quarantined. -/
def State.retireTry (s : State) (lt : Nat) (sp : List Nat) (results : List Bool) (tried : Nat) : Nat × Nat × State :=
  match sp with
  | [] => (1, tried, s)
  | n :: r =>
    if results.getD 0 false then (0, tried + 1, s.retireTo lt n)
    else State.retireTry { s with life := { s.life with quar := s.life.quar ++ [34 * ltDie lt + n] }, lifeDue := true } lt r
      (results.drop 1) (tried + 1)

/-- A write of GK_RETIRE_CMD: GO starts a command unless one is in progress. -/
def State.retireWrite (s : State) (v : BitVec 64) : State :=
  let set := fun (s : State) f x => s.setFld 8 0x03A GK_RETIRE_CMD [] f x
  if s.flag 8 0x03A GK_RETIRE_CMD [] GK_RETIRE_CMD_GO then s
  else set (set (set s GK_RETIRE_CMD_TILE (field v 0 8)) GK_RETIRE_CMD_GO (field v 8 1)) GK_RETIRE_CMD_EXTEST (field v 9 1)

/-- R603: the retirement command in progress runs to its end, with the results of its extended tests in order; a changed map is written to the
lifetime record at once (R17). -/
def State.retireRun (s : State) (results : List Bool) : State :=
  if !s.flag 8 0x03A GK_RETIRE_CMD [] GK_RETIRE_CMD_GO then s
  else
    let lt := s.fld 8 0x03A GK_RETIRE_CMD [] GK_RETIRE_CMD_TILE
    let (result, tried, s) :=
      if s.mode ≠ .m8 then (2, 0, s)
      else if s.flag 8 0x03A GK_RETIRE_CMD [] GK_RETIRE_CMD_EXTEST then
        if results.getD 0 false then (0, 0, s) else (3, 0, s.propose lt 4)
      else s.retireTry lt (s.spares (ltDie lt)) results 0
    let set := fun (s : State) f x => s.setFld 8 0x03A GK_RETIRE_STATUS [] f x
    let s := if s.lifeDue then s.lifeWrite true else s
    let st := scanStop (s.scanOf lt)
    let s := set (set (set s GK_RETIRE_STATUS_DONE 1) GK_RETIRE_STATUS_RESULT result) GK_RETIRE_STATUS_TRIED tried
    let s := set (set (set s GK_RETIRE_STATUS_CD (ltDie lt)) GK_RETIRE_STATUS_X (st % 8)) GK_RETIRE_STATUS_Y (st / 8)
    s.setFld 8 0x03A GK_RETIRE_CMD [] GK_RETIRE_CMD_GO 0

/-- R513: the rail has reached 5.4 V and the input fall limit is suspended. -/
def State.fallOvr (s : State) : State := s.setFld 15 5 PWR_GOV_STATUS [] PWR_GOV_STATUS_FALL_OVR 1

end Sys2Proof.Machine
end

