-- ==== Sys2Proof/Machine/Sha.lean ====
section
/-! DEFINITION. The hashes and the signature of the spec: SHA-256 (R443), SHA-384 (R563 to R567) and ECDSA over P-384 (R564), over
lists of byte values. -/
set_option autoImplicit false
namespace Sys2Proof.Machine

/-- The largest number whose k-th power is at most x, by its bits below the n-th, the highest first. -/
def rootBits (k x n a : Nat) : Nat :=
  match n with
  | 0 => a
  | b + 1 => rootBits k x b (if (a + 2 ^ b) ^ k ≤ x then a + 2 ^ b else a)

/-- The first 64 bits of the fraction of the k-th root of a small number. -/
def rootFraction (k p : Nat) : Nat := rootBits k (p * 2 ^ (64 * k)) 69 0 % 2 ^ 64

/-- The primes below 410, of which there are 80. -/
def shaPrimes : List Nat := (List.range 410).filter (fun n => 2 ≤ n && (List.range 19).all (fun d => n % (d + 2) != 0 || n == d + 2))

/-- The round constants of SHA-384: fractions of the cube roots of the first 80 primes; those of SHA-256 are the upper halves of the first 64. -/
def shaK : List Nat := shaPrimes.map (rootFraction 3)

/-- Initial hash value of SHA-384: fractions of the square roots of the ninth to the sixteenth prime. -/
def sha384Init : List Nat := ((shaPrimes.drop 8).take 8).map (rootFraction 2)

/-- Initial hash value of SHA-256: the upper halves of the fractions of the square roots of the first eight primes. -/
def sha256Init : List Nat := (shaPrimes.take 8).map (fun p => rootFraction 2 p / 2 ^ 32)

/-- One of the two hashes: word width, rounds, and the rotations and shifts of its six functions. -/
structure ShaKind where
  w : Nat
  rounds : Nat
  big0 : Nat × Nat × Nat
  big1 : Nat × Nat × Nat
  small0 : Nat × Nat × Nat
  small1 : Nat × Nat × Nat
  deriving DecidableEq, Repr

/-- SHA-256. -/
def sha256Kind : ShaKind := ⟨32, 64, (2, 13, 22), (6, 11, 25), (7, 18, 3), (17, 19, 10)⟩
/-- SHA-384. -/
def sha384Kind : ShaKind := ⟨64, 80, (28, 34, 39), (14, 18, 41), (1, 8, 7), (19, 61, 6)⟩

/-- A word of w bits rotated right. -/
def shaRotr (w x n : Nat) : Nat := (x / 2 ^ n) ||| (x * 2 ^ (w - n) % 2 ^ w)
/-- Three rotations exclusive-ored. -/
def shaBig (w : Nat) (r : Nat × Nat × Nat) (x : Nat) : Nat := shaRotr w x r.1 ^^^ shaRotr w x r.2.1 ^^^ shaRotr w x r.2.2
/-- Two rotations and a shift exclusive-ored. -/
def shaSmall (w : Nat) (r : Nat × Nat × Nat) (x : Nat) : Nat := shaRotr w x r.1 ^^^ shaRotr w x r.2.1 ^^^ x / 2 ^ r.2.2

/-- The eight working variables and the last sixteen words of the message schedule. -/
structure ShaSt where
  v : List Nat
  ws : List Nat
  deriving DecidableEq, Repr

/-- One round with a round constant; the schedule moves on by one word. -/
def shaRound (k : ShaKind) (s : ShaSt) (kt : Nat) : ShaSt :=
  let x := fun i => s.v.getD i 0
  let wd := fun i => s.ws.getD i 0
  let m := 2 ^ k.w
  let ch := (x 4 &&& x 5) ^^^ ((m - 1 - x 4) &&& x 6)
  let maj := (x 0 &&& x 1) ^^^ (x 0 &&& x 2) ^^^ (x 1 &&& x 2)
  let t1 := x 7 + shaBig k.w k.big1 (x 4) + ch + kt + wd 0
  let t2 := shaBig k.w k.big0 (x 0) + maj
  let next := (shaSmall k.w k.small1 (wd 14) + wd 9 + shaSmall k.w k.small0 (wd 1) + wd 0) % m
  { v := [(t1 + t2) % m, x 0, x 1, x 2, (x 3 + t1) % m, x 4, x 5, x 6], ws := s.ws.drop 1 ++ [next] }

/-- The round constants of a hash. -/
def shaConsts (k : ShaKind) : List Nat := (shaK.take k.rounds).map (fun c => c / 2 ^ (64 - k.w))

/-- A block of sixteen words compressed into the hash value. -/
def shaBlock (k : ShaKind) (h ws : List Nat) : List Nat :=
  let r := (shaConsts k).foldl (shaRound k) { v := h, ws := ws }
  (List.range 8).map (fun i => (h.getD i 0 + r.v.getD i 0) % 2 ^ k.w)

/-- The number that bytes spell, the first most significant. -/
def beNat (bs : List Nat) : Nat := bs.foldl (fun a b => a * 256 + b % 256) 0
/-- The n bytes of a number, the most significant first. -/
def beBytes (n x : Nat) : List Nat := (List.range n).map (fun i => x / 2 ^ (8 * (n - 1 - i)) % 256)

/-- Bytes in pieces of n, by fuel. -/
def chunks (n : Nat) (bs : List Nat) (fuel : Nat) : List (List Nat) :=
  match fuel with
  | 0 => []
  | f + 1 => if bs.isEmpty then [] else bs.take n :: chunks n (bs.drop n) f

/-- A message with its padding: the bit 1, zeros, and the length in bits in the last two words of the last block. -/
def shaPad (k : ShaKind) (bs : List Nat) : List Nat :=
  let blk := 2 * k.w
  let lenB := k.w / 4
  let z := (blk - (bs.length + 1 + lenB) % blk) % blk
  bs ++ [0x80] ++ List.replicate z 0 ++ beBytes lenB (8 * bs.length)

/-- The hash of a message as its eight words. -/
def shaRun (k : ShaKind) (init bs : List Nat) : List Nat :=
  let p := shaPad k bs
  (chunks (2 * k.w) p p.length).foldl
    (fun h b => shaBlock k h ((chunks (k.w / 8) b 16).map beNat)) init

/-- SHA-256: 32 bytes. -/
def sha256 (bs : List Nat) : List Nat := (shaRun sha256Kind sha256Init bs).flatMap (beBytes 4)
/-- SHA-384: 48 bytes. -/
def sha384 (bs : List Nat) : List Nat := ((shaRun sha384Kind sha384Init bs).take 6).flatMap (beBytes 8)

/-! ## P-384 -/

/-- The field prime of P-384. -/
def p384P : Nat := 2 ^ 384 - 2 ^ 128 - 2 ^ 96 + 2 ^ 32 - 1
/-- The coefficient b of P-384; a is −3. -/
def p384B : Nat := 0xb3312fa7e23ee7e4988e056be3f82d19181d9c6efe8141120314088f5013875ac656398d8a2ed19d2a85c8edd3ec2aef
/-- The order of the base point. -/
def p384N : Nat := 0xffffffffffffffffffffffffffffffffffffffffffffffffc7634d81f4372ddf581a0db248b0a77aecec196accc52973
/-- The base point. -/
def p384G : Nat × Nat × Nat :=
  (0xaa87ca22be8b05378eb1c71ef320ad746e1d3b628ba79b9859f741e082542a385502f25dbf55296c3a545e3872760ab7,
   0x3617de4a96262c6f5d9e98bf9292dc29f8f41dbd289a147ce9da3113b5f0b8c00a60b1ce1d7e819d7a431d7c90ea0e5f, 1)

/-- A power modulo m, by the bits of the exponent. -/
def powMod (m b e fuel : Nat) : Nat :=
  match fuel with
  | 0 => 1 % m
  | f + 1 =>
    let h := powMod m b (e / 2) f
    if e = 0 then 1 % m else if e % 2 = 1 then h * h % m * b % m else h * h % m

/-- The difference of two residues. -/
def subMod (m a b : Nat) : Nat := (a + (m - b % m)) % m

/-- A point of the curve in Jacobian coordinates doubled; Z = 0 is the point at infinity. -/
def p384Double (q : Nat × Nat × Nat) : Nat × Nat × Nat :=
  let p := p384P
  let x := q.1
  let y := q.2.1
  let z := q.2.2
  let zz := z * z % p
  let m := 3 * subMod p x zz * (x + zz) % p
  let yy := y * y % p
  let t := 4 * x * yy % p
  let x' := subMod p (m * m) (2 * t)
  (x', subMod p (m * subMod p t x') (8 * yy * yy), 2 * y * z % p)

/-- Two points of the curve added. -/
def p384Add (q r : Nat × Nat × Nat) : Nat × Nat × Nat :=
  let p := p384P
  if q.2.2 = 0 then r
  else if r.2.2 = 0 then q
  else
    let zq := q.2.2 * q.2.2 % p
    let zr := r.2.2 * r.2.2 % p
    let u1 := q.1 * zr % p
    let u2 := r.1 * zq % p
    let s1 := q.2.1 * r.2.2 % p * zr % p
    let s2 := r.2.1 * q.2.2 % p * zq % p
    if u1 = u2 then (if s1 = s2 then p384Double q else (1, 1, 0))
    else
      let h := subMod p u2 u1
      let d := subMod p s2 s1
      let hh := h * h % p
      let v := u1 * hh % p
      let x' := subMod p (d * d) (hh * h + 2 * v)
      (x', subMod p (d * subMod p v x') (s1 * hh % p * h), h * q.2.2 % p * r.2.2 % p)

/-- A point multiplied by a number. -/
def p384Mul (k : Nat) (q : Nat × Nat × Nat) (fuel : Nat) : Nat × Nat × Nat :=
  match fuel with
  | 0 => (1, 1, 0)
  | f + 1 =>
    if k = 0 then (1, 1, 0)
    else
      let h := p384Double (p384Mul (k / 2) q f)
      if k % 2 = 1 then p384Add h q else h

/-- The point of a 97-byte uncompressed public key, when it lies on the curve. -/
def p384Key (key : List Nat) : Option (Nat × Nat × Nat) :=
  let x := beNat ((key.drop 1).take 48)
  let y := beNat (key.drop 49)
  if key.length = 97 ∧ key.getD 0 0 = 4 ∧ x < p384P ∧ y < p384P ∧ y * y % p384P = (x * x * x + (p384P - 3) * x + p384B) % p384P then
    some (x, y, 1)
  else none

/-- ECDSA P-384 verification of a signature (r, s) over the SHA-384 of a message. -/
def ecdsaOk (key msg : List Nat) (r s : Nat) : Bool :=
  match p384Key key with
  | none => false
  | some q =>
    if r = 0 ∨ r ≥ p384N ∨ s = 0 ∨ s ≥ p384N then false
    else
      let e := beNat (sha384 msg)
      let w := powMod p384N s (p384N - 2) 384
      let pt := p384Add (p384Mul (e * w % p384N) p384G 384) (p384Mul (r * w % p384N) q 384)
      if pt.2.2 = 0 then false
      else
        let zi := powMod p384P pt.2.2 (p384P - 2) 384
        pt.1 * zi % p384P * zi % p384P % p384N == r

end Sys2Proof.Machine
end

