-- ==== Sys2Proof/Machine/Boot.lean ====
section
/-! DEFINITION. Power-up, boot and self-test (19_boot_selftest.md), the mode transitions of Table 1-5 with their resets, the socket ID
chain and the other sideband pins (21_package_electrical.md), and attestation (R567, R568). -/
set_option autoImplicit false
namespace Sys2Proof.Machine

/-- The FATAL flag of a logical tile (R14). -/
def State.fatalTile (s : State) (lt : Nat) : Bool := natBit (s.fld 15 1 GH_TILE_FATAL [lt / 64] GH_TILE_FATAL_FATAL) (lt % 64)

/-! ## FAULT -/

/-- A field of a Gatehouse register. -/
def State.gh (s : State) (r : RegDef) (f : RField) : Nat := s.fld 15 1 r [] f
/-- A field of a Gatehouse register written. -/
def State.setGh (s : State) (r : RegDef) (f : RField) (x : Nat) : State := s.setFld 15 1 r [] f x

/-- R577: FAULT asserted with its reason; an in-band interrupt when it was not asserted before (R620). -/
def State.assertFault (s : State) (reason node die : Nat) : State :=
  let was := s.gh GH_STATUS GH_STATUS_FAULT
  let set := fun (s : State) f x => s.setGh GH_FAULT f x
  let s := set (set (set (set s GH_FAULT_REASON reason) GH_FAULT_NODE node) GH_FAULT_DIE die) GH_FAULT_VALID 1
  if was = 0 then (s.setGh GH_STATUS GH_STATUS_FAULT 1).emit .inBand else s

/-- The device held in its mode with FAULT asserted (R577). -/
def State.hold (s : State) (reason node die : Nat) : State :=
  let s := s.assertFault reason node die
  { s with boot := { s.boot with held := true } }

/-! ## Resets -/

/-- The Gatehouse's state that a reset of either kind leaves: fuses, flash, pins, the ID, and what standby holds. -/
def BootState.afterReset (b : BootState) : BootState :=
  { BootState.reset with fuses := b.fuses, svn := b.svn, flashA := b.flashA, flashB := b.flashB, lifeA := b.lifeA, lifeB := b.lifeB,
                         resetLow := b.resetLow, vinValid := b.vinValid, idHeld := b.idHeld, chainLast := b.chainLast,
                         thermtrip := b.thermtrip, gpioPins := b.gpioPins }

/-- A package with everything at reset but the queue of commands, what has been sent, and the part. -/
def State.bare (s : State) (m : Mode) : State :=
  { State.reset with pending := s.pending, free := s.free, part := s.part, out := s.out, mode := m }

/-- The FATAL records of an error of this Trellis cycle. -/
def State.fatalNow (s : State) : Tbl (List (BitVec 64)) :=
  if s.boot.event = some (s.trellisCycle, 3) then
    s.validRecords.filter (fun p => field (p.2.getD 0 0) 0 3 == 5 && (p.2.getD 3 0).toNat * 2 / 5 == s.trellisCycle)
  else []

/-- R604: the lifetime record written on entry to M9 has been written before the device leaves M9; no M9 was entered by a fatal error that a cold
reset of the same Trellis cycle outranks (R26; DEDUCED, entry 103). -/
def State.m9Written (s : State) : State :=
  if s.mode = .m9 ∧ s.lifeDue ∧ s.boot.event ≠ some (s.trellisCycle, 3) then s.lifeWrite true else s

/-- R27: the device enters M1 with VIN removed from the internal rails: only fuses, flash and the socket ID are kept, and the record of a
fatal error of the same Trellis cycle (R26). -/
def State.toM1 (s : State) : State :=
  let s := s.m9Written
  { (s.bare .m1).setGh GH_STATUS GH_STATUS_SOCKET s.socketId with
    boot := { s.boot.afterReset with retained := s.fatalNow, event := some (0, 4) } }

/-- R612: standby is lost: M0, where the ID is lost too (R27). -/
def State.toM0 (s : State) : State :=
  let b := s.boot.afterReset
  { s.bare .m0 with boot := { b with idHeld := false, chainLast := none, thermtrip := false } }

/-- R561: the device leaves M1 once power-on is requested, VIN is valid and an ID is held; AUTO_ON does not act while THERMTRIP_N is
asserted (R615). The timebase starts at 0 (R539). -/
def State.tryPowerUp (s : State) : State :=
  if s.mode = .m1 ∧ s.boot.idHeld ∧ s.boot.vinValid ∧ !s.boot.held ∧ (s.boot.powerOn ∨ (s.boot.fuses.autoOn ∧ !s.boot.thermtrip)) then
    { s with mode := .m2, time := 0, boot := { s.boot with powerOn := false, step := 1 } }
  else s

/-- Registers that a warm reset keeps (R27, R270, R267, R509), for the state before it. -/
def State.keepRegs (old s : State) : State :=
  let s := s.setReg 15 1 GH_FAULT [] (old.reg 15 1 GH_FAULT [])
  let s := foldN 4 (fun (s : State) n => (s.setReg 15 1 GH_TILE_LSB [n] (old.reg 15 1 GH_TILE_LSB [n])).setReg 15 1 GH_TILE_FATAL [n]
    (old.reg 15 1 GH_TILE_FATAL [n])) s
  let s := s.setFld 15 2 WW_WDOG_STATUS [] WW_WDOG_STATUS_EXPIRED (old.fld 15 2 WW_WDOG_STATUS [] WW_WDOG_STATUS_EXPIRED)
  s.setGh GH_STATUS GH_STATUS_SOCKET old.socketId

/-- R509 steps 4 and 5: the end of a warm reset: key slots clear, everything returns to its reset value but what a warm reset keeps (R27), a tile
with its FATAL flag stays in T4 (R14, R268), and the device enters M2 with step 1 of Table 19-1. The events counted for the lifetime record are kept by the Gatehouse. -/
def State.warmEnd (s : State) : State :=
  let n := { s.bare .m2 with mem := s.mem, memTags := s.memTags }
  let n := foldN 16 (fun (n : State) ch => n.setChan ch { Chan.reset with raw := (s.chan ch).raw }) n
  let n := s.keepRegs n
  let n := foldN 256 (fun (n : State) lt => if s.fatalTile lt then n.setDomSt (tileDom lt) PWR_DOM_STATUS_STATE 4 else n) n
  { n with boot := { s.boot.afterReset with step := 1, retained := s.boot.retained, i3c := s.boot.i3c, tap := s.boot.tap },
           life := { LifeState.reset with events := s.life.events } }

/-- Whether any Walled range is enabled. -/
def State.anyWalled (s : State) : Bool := (List.range 16).any (fun n => bitOf (s.reg 15 2 WW_RANGE [n]) 54)

/-- R509 steps 2 and 3: a warm reset: valid records are copied (R586), and every core, kiosk and root port stops for the scrub of Walled
memory, whose ranges are those enabled now. Where no range is enabled there is nothing to scrub. -/
def State.warmReset (s : State) : State :=
  if s.boot.scrub ∨ s.outranked 2 then s
  else if s.anyWalled then
    let t := (s.m9Written.noteEvent 2).keepRecords.walledScrub
    { t with boot := { t.boot with scrub := true } }
  else
    let t := s.m9Written.keepRecords.warmEnd
    { t with boot := { t.boot with event := some (0, 2) } }
/-- R509: the scrub of Walled memory has ended. -/
def State.scrubDone (s : State) : State := if s.boot.scrub then s.warmEnd else s

/-- Modes that a warm reset leaves (Table 1-5). -/
def Mode.warmOk (m : Mode) : Bool :=
  match m with
  | .m2 | .m3 | .m4 | .m5 | .m6 | .m7 | .m8 | .m9 | .m10 => true
  | .m0 | .m1 | .m11 => false
/-- Modes that a cold reset leaves: M2 to M11. -/
def Mode.coldOk (m : Mode) : Bool := m.warmOk || m == .m11

/-- R619: a filtered falling edge of RESET_N. -/
def State.resetFall (s : State) : State :=
  let s := { s with boot := { s.boot with resetLow := true } }
  if s.mode.warmOk then s.warmReset else s
/-- RESET_N rises. -/
def State.resetRise (s : State) : State := { s with boot := { s.boot with resetLow := false } }

/-- R508, R509: the watchdog expires. -/
def State.wdogExpire (s : State) : State :=
  if s.wdogDue && !s.boot.scrub && !s.outranked 2 then ((s.setWw WW_WDOG_STATUS WW_WDOG_STATUS_EXPIRED 1).lifeEvent 32).warmReset else s

/-- R514: VIN is out of range. -/
def State.vinOut (s : State) : State :=
  let s := { s with boot := { s.boot with vinValid := false } }
  if s.mode.coldOk then s.toM1 else s
/-- R561: VIN has been valid for 10 ms. -/
def State.vinOk (s : State) : State := ({ s with boot := { s.boot with vinValid := true } }).tryPowerUp

/-- R614: a thermal trip acts as a cold reset and asserts THERMTRIP_N. -/
def State.trip (s : State) : State :=
  if s.mode.coldOk then ({ s with boot := { s.boot with thermtrip := true } }.toM1).tryPowerUp else s

/-- R590: an internal rail has been more than 10 % from its set point for 10 µs in M4 to M10. -/
def State.railOut (s : State) : State :=
  match s.mode with
  | .m4 | .m5 | .m6 | .m7 | .m8 | .m9 | .m10 => s.fatal 10 1 0x8 0 0
  | .m0 | .m1 | .m2 | .m3 | .m11 => s
/-- R590: an uncorrectable error is detected in Gatehouse state. -/
def State.ghStateError (s : State) : State := if s.mode = .m0 then s else s.fatal 15 1 0x9 0 0

/-- R560: standby rises. -/
def State.standbyRise (s : State) : State := if s.mode = .m0 then { s with mode := .m1 } else s

/-! ## Measurement -/

/-- The 48 bytes of measurement slot n. -/
def State.measSlot (s : State) (n : Nat) : List Nat :=
  (List.range 48).map (fun i => field (s.reg 15 1 GH_MEAS [n, i / 8]) (8 * (i % 8)) 8)

/-- R567: slot n extended with a digest: m := sha384(m ‖ d). -/
def State.measExtend (s : State) (n : Nat) (d : List Nat) : State :=
  let m := sha384 (s.measSlot n ++ d)
  foldN 6 (fun (s : State) w =>
    s.setReg 15 1 GH_MEAS [n, w] (v64 (foldN 8 (fun a i => a + m.getD (8 * w + i) 0 * 2 ^ (8 * i)) 0))) s

/-- 256 bits, one per logical tile. -/
def tileBits (f : Nat → Bool) : Nat := foldN 256 (fun a lt => if f lt then a + 2 ^ lt else a) 0

/-- The bytes of the state record (Table 19-4): its LSB and FATAL fields as they stand, the others as M3 found them (R568). -/
def State.stateRecord (s : State) : List Nat :=
  Sys2Proof.Config.stateRecord
    [(s.part == .x1).toNat, s.debugFuse.toNat, s.boot.svn, s.gh GH_STATUS GH_STATUS_COPY,
     tileBits (fun lt => s.arb lt ARB_STATUS ARB_STATUS_MODE != 0),
     tileBits (fun lt => natBit (s.fld 15 1 GH_TILE_LSB [lt / 64] GH_TILE_LSB_LSB) (lt % 64)),
     tileBits (fun lt => natBit (s.fld 15 1 GH_TILE_FATAL [lt / 64] GH_TILE_FATAL_FATAL) (lt % 64)),
     s.boot.expiredAt.getD (s.ww WW_WDOG_STATUS WW_WDOG_STATUS_EXPIRED)]

/-! ## Authentication -/

/-- Table 19-3: the code of the first check that a bundle copy fails, by the fuses as read; 0 when it passes. -/
def bundleCheck (f : Fuses) (svn : Nat) (b : Bundle) : Nat :=
  let kh := f.keyHash.getD b.slot []
  if !(b.format && decide (b.slot < 4) && decide (b.parts.length = 3) && b.lengths == b.parts.map List.length &&
      decide (b.digests.length = 3)) then 5
  else if kh.all (fun x => x == 0) ∨ kh ≠ sha384 b.key ∨ natBit f.revoke b.slot then 1
  else if b.svn < svn then 2
  else if !ecdsaOk b.key b.header b.r b.s then 3
  else if b.parts.map sha384 ≠ b.digests then 4
  else 0

/-- R569: whether every field of a boot configuration is in its range, for the length of the boot image. -/
def BootCfg.ok (c : BootCfg) (image : Nat) : Bool :=
  decide (c.safeTiles < 2 ^ 256) && within 6 c.iqLog2n 12 && decide (c.iqBase % 2 ^ 16 = 0) && decide (c.iqBase < 2 ^ 52) &&
    decide (c.sysqBase % 2 ^ 21 = 0) && decide (c.sysqBase < 2 ^ 52) && decide (c.memRange.length = 4) &&
    c.memRange.all (fun r => field r 59 5 == 0 && (field r 44 2 == 0 || decide (field r 0 22 ≤ field r 22 22))) &&
    decide (c.fbSrange.length = 8) && decide (c.ports.length = 10) &&
    c.ports.all (fun p => decide (p.option ≤ 4) && decide (p.cxl < 16) && decide (p.hp < 16) && decide (p.ssc < 16) &&
      p.power.all (fun x => decide (x < 256)) && p.slot.all (fun x => decide (x < 8192))) &&
    decide (c.subsysVendor < 2 ^ 16) && decide (c.subsysId < 2 ^ 16) && decide (c.tsDelay < 2 ^ 16) &&
    decide (c.loadPa % 2 ^ 14 = 0) && decide (c.loadPa < 2 ^ 52) && decide (c.entryPa % 4 = 0) && decide (c.loadPa ≤ c.entryPa) &&
    decide (c.entryPa < c.loadPa + image)

/-- The accepted bundle. -/
def State.bundle (s : State) : Bundle := if s.boot.accepted = some true then s.boot.flashB else s.boot.flashA

/-- R564, R567, R569: firmware authentication: copy A, then copy B; the accepted bundle measured and its configuration checked. -/
def State.authenticate (s : State) : State :=
  let a := bundleCheck s.boot.fuses s.boot.svn s.boot.flashA
  let b := if a = 0 then 0 else bundleCheck s.boot.fuses s.boot.svn s.boot.flashB
  let fl := fun (s : State) f x => s.setFld 10 0 GH_FLASH_STATUS [] f x
  let s := fl (fl s GH_FLASH_STATUS_A_VALID (a == 0).toNat) GH_FLASH_STATUS_B_VALID (a != 0 && b == 0).toNat
  let s := fl (fl s GH_FLASH_STATUS_A_SVN s.boot.flashA.svn) GH_FLASH_STATUS_B_SVN s.boot.flashB.svn
  let s := (s.setGh GH_FAULT GH_FAULT_AUTH_A a).setGh GH_FAULT GH_FAULT_AUTH_B b
  if a ≠ 0 ∧ b ≠ 0 then s.hold 3 0 0
  else
    let s := { s with boot := { s.boot with accepted := some (a != 0) } }
    let s := s.setGh GH_STATUS GH_STATUS_COPY (a != 0).toNat
    let bd := s.bundle
    let s := foldN 3 (fun (s : State) n => s.measExtend n (bd.digests.getD n [])) s
    if !bd.conf.ok ((bd.parts.getD 2 []).length) then s.hold 4 0 0
    else { s with bootCfg := bd.conf, boot := { s.boot with step := 5 } }

/-! ## Power-up -/

/-- R562, Table 19-1: the power-up step in progress has ended and the next one starts. RESET_N low keeps the device at the start of
M2 with only step 1 complete (R619). -/
def State.stepDone (s : State) : State :=
  let next := fun (s : State) (n : Nat) => ({ s with boot := { s.boot with step := n, event := none } } : State)
  if s.boot.held ∨ (s.mode ≠ .m2 ∧ s.mode ≠ .m3) then s
  else match s.boot.step with
    | 1 => next s 2
    | 2 => if s.boot.resetLow then s else (next s 3).restoreRecords (fun n => decide (n / 2 ^ 10 = 15 ∨ n / 2 ^ 10 = 10))
    | 3 => next { s with boot := { s.boot with svn := s.boot.fuses.svn } } 4
    | 4 => s.authenticate
    | 5 => (next (s.restoreRecords (fun n => within 8 (n / 2 ^ 10) 9)) 6).lifeRead
    | 6 => { next (s.restoreRecords (fun n => decide (n / 2 ^ 10 < 8 ∧ n % 2 ^ 10 ≥ 0x020))) 7 with mode := .m3 }
    | 7 =>
      let fatal := fun (n : Nat) =>
        natBit (s.fld 15 1 GH_TILE_FATAL [(32 * (n / 2 ^ 10) + n % 2 ^ 10) / 64] GH_TILE_FATAL_FATAL) ((32 * (n / 2 ^ 10) + n % 2 ^ 10) % 64)
      let s := next (s.restoreRecords (fun n => decide (n / 2 ^ 10 < 8 ∧ n % 2 ^ 10 < 0x020) && !fatal n)) 8
      { s with boot := { s.boot with keysZero := true, stage := 2 } }
    | _ => s

/-- R562: a power-up step has not ended within 10 ms. -/
def State.stepTimeout (s : State) : State :=
  if s.mode = .m2 ∧ !s.boot.held ∧ within 1 s.boot.step 6 ∧ ¬ (s.boot.step = 2 ∧ s.boot.resetLow) then s.hold 2 0 0 else s

/-! ## Self-test -/

/-- R570: a self-test requested, with its three conditions. -/
def State.selfTest (s : State) (cond : Bool) : State :=
  if s.mode ≠ .m3 ∨ s.boot.held ∨ !within 2 s.boot.stage 4 ∨ s.boot.testing then s
  else { s with boot := { s.boot with testing := cond, waiting := !cond } }
/-- R570: the request repeated after 1 ms. -/
def State.selfTestRetry (s : State) (cond : Bool) : State := if s.boot.waiting then s.selfTest cond else s
/-- R570: 100 ms without a start. -/
def State.selfTestTimeout (s : State) : State :=
  if s.mode = .m3 ∧ !s.boot.held ∧ s.boot.waiting then ({ s with boot := { s.boot with waiting := false } }).hold 5 0 0 else s

/-- Stops of a die whose tiles have failed in this M3. -/
def State.badOf (s : State) (d n : Nat) : Bool := s.boot.badStops.contains (34 * d + n)

/-- A stop quarantined. -/
def State.quarStop (s : State) (d n : Nat) : State :=
  if s.life.quar.contains (34 * d + n) then s
  else { s with life := { s.life with quar := s.life.quar ++ [34 * d + n] }, lifeDue := true }

/-- R15: a first map of a die: die indices in scan order to the tiles that passed, the failing ones quarantined. Answers whether
tiles are short (R18): the die indices for which there is no tile are then held by none. -/
def State.buildMap (s : State) (d : Nat) : Bool × State :=
  let good := (List.range 34).filter (fun (n : Nat) => !s.badOf d n && !s.life.quar.contains (34 * d + n))
  let s := foldN 34 (fun (s : State) n => if s.badOf d n then s.quarStop d n else s) s
  let s := foldN 32 (fun (s : State) i =>
    match good[i]? with
    | none => { s with stops := tput s.stops (32 * d + i) noScan }
    | some n => s.takeTile (32 * d + i) n) s
  let s := { s with life := { s.life with maps := tput s.life.maps d (s.dieMap d) }, lifeDue := true }
  (decide (good.length < 32), s)

/-- R16, R17: the map of a die applied: each failing tile with a die index, in scan order, passes it to the passing spare with the
lowest scan index; a tile with its FATAL flag keeps it (R14). A die index that no tile stop holds takes a spare that is left. Answers
whether a spare is missing (R18): a failing tile's die index is then held by none. -/
def State.applyMap (s : State) (d : Nat) : Bool × State :=
  let sp := (s.spares d).filter (fun n => !s.badOf d n)
  let bad := (List.range 34).filter (fun (n : Nat) => s.badOf d n)
  let (sp, s) := bad.foldl (fun (p : List Nat × State) n =>
    let s := p.2
    match (List.range 32).find? (fun i => s.scanOf (32 * d + i) == n) with
    | none => (p.1, s.quarStop d n)
    | some i =>
      if s.fatalTile (32 * d + i) then p
      else match p.1 with
        | [] => ([], (s.leaveTile (32 * d + i)).quarStop d n)
        | k :: rest => (rest, ((s.moveTile (32 * d + i) k).retiredLog d n k 4).quarStop d n)) (sp, s)
  let (_, s) := ((List.range 32).filter (fun i => s.noStop (32 * d + i))).foldl (fun (p : List Nat × State) i =>
    match p.1 with
    | [] => p
    | k :: rest => (rest, { p.2.takeTile (32 * d + i) k with lifeDue := true })) (sp, s)
  let short := (List.range 32).any (fun i => s.noStop (32 * d + i))
  let s := { s with life := { s.life with maps := tput s.life.maps d (s.dieMap d) } }
  (short, s)

/-- Steps 5 and 6 of Table 19-6 and the end of M3: tile maps, HWDIS, arbour modes, slot 3; then M4, or a hold (R573). A changed map is
written to the lifetime record before the device leaves M3 (R17). -/
def State.selfTestEnd (s : State) : State :=
  let (short, s) := foldN 8 (fun (p : Option Nat × State) d =>
    let (miss, s) := if (tfind p.2.life.maps d).isSome then p.2.applyMap d else p.2.buildMap d
    (if p.1.isNone && miss then some d else p.1, s)) (none, s)
  let s := foldN 256 (fun (s : State) lt =>
    let d := ltDie lt
    let u := ltIdx lt
    let s := s.setFld d u ARB_STATUS [] ARB_STATUS_MODE (natBit s.bootCfg.safeTiles lt).toNat
    let s := s.setFld d u ARB_STATUS [] ARB_STATUS_LOCKSTEP_BROKEN
      (natBit (s.fld 15 1 GH_TILE_LSB [lt / 64] GH_TILE_LSB_LSB) (lt % 64)).toNat
    if s.fatalTile lt then s.setDomSt (tileDom lt) PWR_DOM_STATUS_STATE 4 else s) s
  let s := { s with boot := { s.boot with expiredAt := some (s.ww WW_WDOG_STATUS WW_WDOG_STATUS_EXPIRED) } }
  let s := s.measExtend 3 (sha384 s.stateRecord)
  let pass := s.boot.uncore.isNone && short.isNone
  let s := (s.setGh GH_BIST GH_BIST_DONE 1).setGh GH_BIST GH_BIST_PASS pass.toNat
  let s := { s with boot := { s.boot with stage := 7, testing := false } }
  let s := if s.lifeDue then s.lifeWrite true else s
  match s.boot.uncore, short with
  | some n, _ => s.hold 7 n 0
  | none, some d => s.hold 8 0 d
  | none, none => { s with mode := .m4 }

/-- R573: a test has failed; a tile that was quarantined before this M3 counts no further. -/
def State.testFail (s : State) (u : TestUnit) : State :=
  match u with
  | .tile n =>
    if s.boot.badStops.contains n then s
    else
      let s := { s with boot := { s.boot with badStops := s.boot.badStops ++ [n] } }
      if s.life.quar.contains n then s else s.addFld 15 1 GH_BIST [] GH_BIST_QUARANTINED 1
  | .node n => if s.boot.uncore.isSome then s else { s with boot := { s.boot with uncore := some n } }

/-- R14: the tiles that M3 does not test: those that keep their die index with their FATAL flag set. -/
def State.untested (s : State) (u : TestUnit) : Bool :=
  match u with
  | .tile n =>
    let d := n / 34
    (tfind s.life.maps d).isSome && (List.range 32).any (fun i => s.scanOf (32 * d + i) == n % 34 && s.fatalTile (32 * d + i))
  | .node _ => false

/-- R571 to R573: a test has ended with its completion flag and whether its pattern count and signature are as expected. `last` says that
it is the last test of its step of Table 19-6, `zero` that every key slot reads zero at the end of step 2. -/
def State.testResult (s : State) (u : TestUnit) (flag count sig last zero : Bool) : State :=
  if s.mode ≠ .m3 ∨ s.boot.held ∨ !s.boot.testing ∨ s.untested u then s
  else
    let s := s.addFld 15 1 GH_BIST [] GH_BIST_RUN 1
    let accepted := flag && count
    let again := s.boot.rejected.contains u
    let s := if accepted then s else s.addFld 15 1 GH_BIST [] GH_BIST_REJECTED 1
    let rest := s.boot.rejected.filter (fun x => x != u)
    let s := { s with boot := { s.boot with rejected := if !accepted && !again then rest ++ [u] else rest, testing := flag } }
    if !accepted && !again then s
    else
      let fail := (accepted && !sig) || !accepted
      let s := if fail then s.testFail u else s
      let s := match u with
        | .node n => if s.boot.stage = 4 ∧ !fail ∧ within 8 (n / 2 ^ 10) 9 ∧ n % 2 ^ 10 < 8 then
            s.setFld (n / 2 ^ 10) (n % 2 ^ 10) MEM_STATUS [] MEM_STATUS_ECC_PASS 1 else s
        | .tile _ => s
      if !last then s
      else match s.boot.stage with
        | 2 =>
          let s := { s with boot := { s.boot with keysZero := zero, keysRead := some zero } }
          if zero then { s with boot := { s.boot with stage := 3 } } else s.hold 6 0 0
        | 3 => { s with boot := { s.boot with stage := 4 } }
        | 4 => s.selfTestEnd
        | _ => s

/-! ## Training and bring-up -/

/-- The code of MEM_CFG.RATE of the highest rate of Table 11-1 that a module's speed grade and the DIMM count allow. -/
def rateCode (kind dimms rate : Nat) : Option Nat :=
  let of := fun (l : List (Nat × Nat)) => (l.find? (fun (p : Nat × Nat) => decide (p.1 ≤ rate))).map (fun (p : Nat × Nat) => p.2)
  if kind = 1 then of ((if dimms = 1 then [(7200, 3)] else []) ++ [(6400, 2), (5600, 1), (4800, 0)])
  else if kind = 2 ∧ dimms = 1 then of [(12800, 5), (8800, 4)]
  else none

/-- R339, R340: the rate code of a channel whose modules Table 11-1 supports. -/
def trainRate (dimms : List Spd) : Option Nat :=
  match dimms with
  | [] => none
  | d :: r =>
    let n := dimms.length
    let same := r.all (fun e => e.kind == d.kind && e.x8 == d.x8 && e.gb == d.gb && e.ranks == d.ranks && e.rate == d.rate)
    let ranks := n * d.ranks
    let okRanks := if d.kind = 1 then within n ranks 8 else within 2 ranks 4 && !d.x8
    if n > 2 ∨ !same ∨ !dimms.all (fun e => e.ecc) ∨ !(d.gb == 16 || d.gb == 32 || d.gb == 64) ∨ !okRanks ∨ d.ranks = 0 then none
    else rateCode d.kind n d.rate

/-- R351: the saved marks of a channel whose DIMM is the same restored. Whether hardware had set a mark is not saved: HW is a free
value. -/
def State.marksRestore (s : State) (ch : Nat) : State :=
  s.life.marks.foldl (fun (s : State) (m : Mark) =>
    if m.chan = ch ∧ m.rank ≤ s.mf ch MEM_CFG MEM_CFG_RANKS ∧ (s.chan ch).serial.getD (s.rankDimm ch m.rank) 0 = m.serial then
      let (n, s) := s.takeFree
      let hw := (Sys2Proof.Config.freeValue n).toNat % 2
      s.setReg (chDie ch) (chUnit ch) MEM_MARK []
        (setField (s.reg (chDie ch) (chUnit ch) MEM_MARK []) (8 * m.rank) 8 (m.dev % 32 + 64 * hw + 128))
    else s) s

/-- R340: the training of a channel has ended: its modules by their SPDs, and whether the training itself succeeded. A channel out of
service has no granule to initialise (R360). -/
def State.trainDone (s : State) (ch : Nat) (dimms : List Spd) (ok : Bool) : State :=
  if s.mode ≠ .m4 then s
  else
    let s := { s with boot := { s.boot with trained := s.boot.trained ||| 2 ^ ch } }
    let off := fun (s : State) => (s.setDomSt (chanDom ch) PWR_DOM_STATUS_STATE 3).initDone ch
    match dimms, trainRate dimms, ok with
    | [], _, _ => off s
    | d :: _, some rate, true =>
      let n := dimms.length
      let ranks := n * d.ranks
      let cap := min 8192 ((if d.x8 then 16 else 32) * d.gb * ranks)
      let set := fun (s : State) f x => s.setMf ch MEM_CFG f x
      let s := set (set (set (set s MEM_CFG_TYPE d.kind) MEM_CFG_WIDTH d.x8.toNat) MEM_CFG_DPC (n - 1)) MEM_CFG_RANKS (ranks - 1)
      let s := set (set s MEM_CFG_RATE rate) MEM_CFG_ROWS (if d.gb = 16 then 0 else if d.gb = 32 then 1 else 2)
      let s := set (set s MEM_CFG_CAP cap) MEM_CFG_TRAINED 1
      let s := s.setChan ch { s.chan ch with serial := [d.serial, (dimms.getD 1 d).serial] }
      s.marksRestore ch
    | _, _, _ => off (s.setMf ch MEM_STATUS MEM_STATUS_TRAIN_FAIL 1)

/-- Whether a span of memory lies in one enabled MEM_RANGE. -/
def State.spanIn (s : State) (pa n : Nat) : Bool :=
  (List.range 4).any (fun k => rangeHas (s.memRange k) pa && rangeHas (s.memRange k) (pa + n - 1))

/-- R565: bytes written to memory from an address that begins a line, as data words. -/
def State.imageWrite (s : State) (pa : Nat) (bytes : List Nat) : State :=
  (chunks 128 bytes bytes.length).zipIdx.foldl (fun (s : State) p =>
    let ws := (List.range 16).map (fun w => Word.data (v64 (foldN 8 (fun a i => a + p.1.getD (8 * w + i) 0 % 256 * 2 ^ (8 * i)) 0)))
    let line := pa / 128 + p.2
    s.homeMerge { mkMsg .wrInv (.nca 0) (.home (s.homeOf line)) line false with mask := 2 ^ p.1.length - 1, data := ws } zeroLine false) s

/-- A system queue's descriptor written by the Gatehouse. -/
def State.gateQueue (s : State) (q : Nat) (cfg base : BitVec 64) : State :=
  let s := (s.setReg (8 + qHalf q) 0x030 URN_QBASE [qIdx q] base).setReg (8 + qHalf q) 0x030 URN_QCFG [qIdx q] cfg
  (s.setQf q URN_QPTR URN_QPTR_HEAD 0).setQf q URN_QPTR URN_QPTR_TAIL 0

/-- Step 6 of R575: the interrupt queues (R412), the monitor queue on PM-8512-A1 (R502) and the error log queue (R588). -/
def State.enableQueues (s : State) : State :=
  let c := s.bootCfg
  let s := foldN 512 (fun (s : State) lc =>
    if s.coreExists lc then
      s.gateQueue (iqNum lc) (v64 (1 + 2 ^ 3 + c.iqLog2n * 2 ^ 5 + 2 ^ 18 + lc * 2 ^ 48)) (v64 (c.iqBase + lc * 2 ^ c.iqLog2n * 16))
    else s) s
  let mon := s.ww WW_CTL WW_CTL_MONCORE
  let s := if s.part = .a1 then
      s.gateQueue monQueue (v64 (1 + 2 + 2 ^ 3 + 8 * 2 ^ 5 + 2 ^ 16 + (s.coreExists mon).toNat * 2 ^ 23))
        (v64 (c.sysqBase + mon * 2 ^ 52))
    else s
  s.gateQueue 0x7F01 (v64 (1 + 2 + 4 + 2 * 2 ^ 3 + 10 * 2 ^ 5)) (v64 (c.sysqBase + 0x8000))

/-- The end of M4: the device enters M5 and every logical core is due to start (R576). -/
def State.enterM5 (s : State) : State := { s with mode := .m5, boot := { s.boot with coresDue := true, bringWait := false } }

/-- Whether the bring-up's rings and boot image lie in the ranges that were written (R575). -/
def State.bringSpans (s : State) : Bool :=
  let c := s.bootCfg
  let len := (s.bundle.parts.getD 2 []).length
  (len == 0 || s.spanIn c.loadPa len) && s.spanIn c.sysqBase (2 ^ 21) &&
    (List.range 512).all (fun lc => !s.coreExists lc || s.spanIn (c.iqBase + lc * 2 ^ c.iqLog2n * 16) (2 ^ c.iqLog2n * 16))

/-- R575: bring-up, once the training of every channel has ended. `errs` are bytes of the boot image that the flash now reads
otherwise, with what they are exclusive-ored by; `meshOk` is what the check of R393 finds. -/
def State.bringUp (s : State) (errs : List (Nat × Nat)) (meshOk : Bool) : State :=
  if s.mode ≠ .m4 ∨ s.boot.trained % 2 ^ 16 ≠ 0xFFFF ∨ s.boot.bringWait then s
  else
    let c := s.bootCfg
    let s := foldN 4 (fun (s : State) n => s.memRangeWrite n (c.memRange.getD n 0)) s
    let image := errs.foldl (fun (l : List Nat) e => lset l e.1 ((l.getD e.1 0) ^^^ e.2)) (s.bundle.parts.getD 2 [])
    if !s.bringSpans then s.fatal 15 1 0x7 0 0
    else
      let s := s.imageWrite c.loadPa image
      if sha384 image ≠ s.bundle.digests.getD 2 [] then s.fatal 15 1 0x7 0 0
      else
        let s := foldN 8 (fun (s : State) d => foldN 32 (fun (s : State) i =>
          s.setFld d 0x040 MESH_TILEMAP [0, i / 8] (MESH_TILEMAP_STOP (i % 8)) (scanStop (s.scanOf (32 * d + i)))) s) s
        if !meshOk then s.fatal 15 1 0x6 0 0
        else
          let s := foldN 10 (fun (s : State) die => s.slotRestart die) { s with injEn := true }
          let s := foldN 8 (fun (s : State) n => s.setReg 8 0x018 FB_SRANGE [n] (c.fbSrange.getD n 0))
            (s.setReg 8 0x018 FB_ROUTE [] c.fbRoute)
          let s := foldN 6 (fun (s : State) l => s.setFld (8 + l / 3) (0x018 + l % 3) FB_STATUS [] FB_STATUS_STATE 1) s
          let s := foldN 10 (fun (s : State) p =>
            let pc := c.ports.getD p PortCfg.none
            foldN 4 (fun (s : State) r =>
              if s.rpExists (4 * p + r) then
                let v := s.reg (8 + p / 5) 0x03C CLK_REFOUT []
                let v := setBit (setBit v (4 * (p % 5) + r) true) (20 + 4 * (p % 5) + r) (natBit pc.ssc r)
                (s.setReg (8 + p / 5) 0x03C CLK_REFOUT [] v).refApply (4 * p + r)
              else s) s) s
          let s := s.setFld 15 3 CLK_TS_CTL [] CLK_TS_CTL_DELAY_NS c.tsDelay
          let s := s.enableQueues
          if s.socketId = 0 ∨ s.flag 15 3 CLK_TS_STATUS [] CLK_TS_STATUS_LOCKED then s.enterM5
          else { s with boot := { s.boot with bringWait := true } }

/-- R576, R98, R176: every logical core starts at ENTRY_PA. -/
def State.coreStart (s : State) : State :=
  if s.mode ≠ .m5 ∨ !s.boot.coresDue then s
  else
    let s := foldN 512 (fun (s : State) lc =>
      if s.coreExists lc then s.setCore lc { Core.atReset s.part with pc := s.bootCfg.entryPa, started := true } else s) s
    { s with boot := { s.boot with coresDue := false } }

/-! ## TIMESYNC -/

/-- A TIMESYNC error record (Table 20-2). -/
def State.tsRecord (s : State) : State := s.err 15 3 (ErrRec.mk1 2 0x0E 0 0)

/-- Whether the run pins work: from step 2 of Table 19-1 onwards (R616). -/
def State.runPins (s : State) : Bool := s.mode.coldOk && !(s.mode == .m2 && decide (s.boot.step < 2))

/-- R540, R541: a TIMESYNC pulse of socket 0 for the multiple k of 2^20 ns. -/
def State.timesync (s : State) (k : Nat) : State :=
  if s.socketId = 0 ∨ !s.runPins then s
  else
    let set := fun (s : State) f x => s.setFld 15 3 CLK_TS_STATUS [] f x
    let now := k * 2 ^ 20 + s.fld 15 3 CLK_TS_CTL [] CLK_TS_CTL_DELAY_NS
    let pulses := s.fld 15 3 CLK_TS_STATUS [] CLK_TS_STATUS_PULSES
    let s := s.addFld 15 3 CLK_TS_STATUS [] CLK_TS_STATUS_PULSES 1
    if pulses = 0 then { s with time := now % 2 ^ 64 }
    else
      let err : Int := Int.ofNat s.time - Int.ofNat now
      let mag := err.natAbs
      let code : Int := if err > 32767 then 32767 else if err < -32767 then -32767 else err
      let s := set s CLK_TS_STATUS_ERR_NS (code % 65536).toNat
      let s := s.setReg 15 3 CLK_TS_OFFSET [] (BitVec.ofInt 64 err)
      let s :=
        if mag > 2 ^ 19 ∨ s.flag 15 3 CLK_TS_STATUS [] CLK_TS_STATUS_RESTART then
          if s.flag 15 3 CLK_TS_STATUS [] CLK_TS_STATUS_RESTART then s
          else (set (set s CLK_TS_STATUS_LOCKED 0) CLK_TS_STATUS_RESTART 1).tsRecord
        else
          let s := set s CLK_TS_STATUS_LOCKED (decide (mag ≤ 20)).toNat
          if mag > 1000 ∧ s.mode = .m5 then s.tsRecord else s
      if !s.boot.bringWait ∨ s.mode ≠ .m4 then s
      else if s.flag 15 3 CLK_TS_STATUS [] CLK_TS_STATUS_LOCKED then s.enterM5
      else if pulses + 1 ≥ 128 then s.tsRecord.enterM5
      else s

/-- R540: socket 0 drives a pulse. -/
def State.timesyncDrive (s : State) : State :=
  if s.socketId = 0 ∧ s.boot.idHeld ∧ s.runPins then
    (s.addFld 15 3 CLK_TS_STATUS [] CLK_TS_STATUS_PULSES 1).emit .timesync
  else s

/-! ## Socket ID chain -/

/-- A socket takes its ID (R491, R617), and a standing power-on request may proceed. -/
def State.takeId (s : State) (id : Nat) : State :=
  let s := s.setGh GH_STATUS GH_STATUS_SOCKET id
  ({ s with boot := { s.boot with idHeld := true } }).tryPowerUp

/-- R617: a frame on CHAIN_IN. -/
def State.chainFrame (s : State) (id : Nat) (parityOk : Bool) : State :=
  if s.mode = .m0 ∨ s.boot.idHeld ∨ s.boot.held ∨ !parityOk then s
  else if s.boot.chainLast ≠ some (id % 8) then { s with boot := { s.boot with chainLast := some (id % 8) } }
  else if id % 8 = 7 then s.hold 1 0 0
  else s.takeId (id % 8 + 1)

/-- R617: CHAIN_IN has stayed low for 50 µs. -/
def State.chainLow (s : State) : State := if s.mode = .m0 ∨ s.boot.idHeld ∨ s.boot.held then s else s.takeId 0

/-- R617: the socket's own frame. -/
def State.chainOut (s : State) : State := if s.mode ≠ .m0 ∧ s.boot.idHeld then s.emit (.chainFrame s.socketId) else s

/-! ## Commands -/

/-- R574: an accepted command ends the authorisation held. -/
def State.ghAccept (s : State) : State := s.setGh GH_STATUS GH_STATUS_AUTH_OK 0

/-- The reason for which a command of Table 19-8 is refused, if any: MODE, SOURCE, AUTH, BUSY in this order. `who` is the source of
a control-space write; none is the management port. -/
def State.ghBar (s : State) (who : Option CtlWho) (code : Nat) : Option Nat :=
  let auth := s.gh GH_STATUS GH_STATUS_AUTH_OK != 0
  let mgmt := who.isNone
  let walled := match who with
    | some w => w.walled
    | none => false
  let first := fun (modeOk srcOk authOk : Bool) =>
    if !modeOk then some 1 else if !srcOk then some 2 else if !authOk then some 3 else if s.boot.powerOn || s.boot.scrub then some 4 else none
  match code with
  | 0x01 => first (s.mode == .m1) mgmt true
  | 0x02 => first s.mode.warmOk true true
  | 0x03 => first s.mode.coldOk true true
  | 0x04 => first (s.mode == .m5) (!mgmt && (walled || s.heldDomain.isNone)) true
  | 0x05 => first (s.mode == .m8) (!mgmt) true
  | 0x06 => first (s.mode == .m3 && s.boot.keysRead == some true) mgmt auth
  | 0x07 => first (s.mode == .m5 && s.part == .x1) mgmt auth
  | 0x08 => first (s.mode == .m10) mgmt true
  | 0x09 => first (s.mode == .m5) (s.part == .x1 || walled) true
  | _ => some 1

/-- Every core's external halt ends. -/
def State.unhalt (s : State) : State := foldN 512 (fun (s : State) lc => s.setCore lc { s.core lc with halted := false }) s

/-- R574: entry into M11 leaves any hold of M3. -/
def State.toM11 (s : State) : State :=
  let s := s.setGh GH_STATUS GH_STATUS_FAULT 0
  { s with mode := .m11, boot := { s.boot with held := false, testing := false, waiting := false } }

/-- What an accepted command does (Table 19-8). -/
def State.ghRun (s : State) (code : Nat) : State :=
  match code with
  | 0x01 => ({ s with boot := { s.boot with powerOn := true, thermtrip := false } }).tryPowerUp
  | 0x02 => s.warmReset
  | 0x03 => s.toM1.tryPowerUp
  | 0x04 => { s with mode := .m8 }
  | 0x05 => (if s.lifeDue then s.lifeWrite true else s).warmReset
  | 0x06 => s.toM11
  | 0x07 => { s with mode := .m10 }
  | 0x08 => { s.unhalt with mode := .m5 }
  | 0x09 => { s with boot := { s.boot with fuses := { s.boot.fuses with svn := max s.boot.fuses.svn (min 64 s.bundle.svn) } } }
  | _ => s

/-- The rank of R26 of a command that selects a transition; none for one that selects none. -/
def ghRank (code : Nat) : Option Nat :=
  match code with
  | 0x02 => some 2
  | 0x03 => some 4
  | 0x01 | 0x04 | 0x05 | 0x06 | 0x07 | 0x08 => some 0
  | _ => none

/-- Whether an event of a higher rank of this Trellis cycle has a command discarded (R26). -/
def State.ghLost (s : State) (code : Nat) : Bool :=
  match ghRank code with
  | some k => s.outranked k
  | none => false

/-- R578: a write of GH_CMD.CODE. A command of the management port is a wake event of M6 and M7 (R534). An Open MAINT while a domain is
Walled-held is also reported (R505). In M0 nothing answers. -/
def State.ghCmd (s : State) (who : Option CtlWho) (code : Nat) : State :=
  if s.mode = .m0 then s
  else
    let s := if who.isNone then s.pkgWake else s
    let s := match who, s.heldDomain with
      | some w, some d => if code = 0x04 ∧ s.mode = Mode.m5 ∧ !w.walled then s.powerVeto w d else s
      | _, _ => s
    if s.ghLost code then s
    else
      match s.ghBar who code with
      | some r => s.ghRefuse r
      | none => s.ghAccept.ghRun code

/-! ## SPDM -/

/-- Whether the Gatehouse answers SPDM (R568): a copy has been accepted. -/
def State.spdmOn (s : State) : Bool := s.boot.accepted.isSome

/-- The answer to an SPDM request: ERROR Busy before a copy is accepted and in M1 (R568); in M0 nothing answers. -/
def State.spdmAnswer (s : State) (f : State → State) : State :=
  if s.mode = .m0 then s else if s.spdmOn then f s.pkgWake else s.emit (.spdmError 3)

/-- The certificate chain of slot 0. -/
def State.aliasChain (s : State) : List Nat := Sys2Proof.Config.aliasChain s.boot.fuses.seed (s.measSlot 0)
/-- A signature by the alias key. -/
def State.aliasSign (s : State) (msg : List Nat) : List Nat × State :=
  let (n, s) := s.takeFree
  (Sys2Proof.Config.aliasSign s.boot.fuses.seed (s.measSlot 0) msg n, s)

/-- GET_VERSION: 1.2. -/
def State.spdmVersion (s : State) : State := s.spdmAnswer (fun s => s.emit (.spdm 0x84 [(0, [0x12])]))
/-- GET_CAPABILITIES: certificates, challenge and signed measurements are served. -/
def State.spdmCapabilities (s : State) : State := s.spdmAnswer (fun s => s.emit (.spdm 0xE1 [(0, [0x12])]))
/-- NEGOTIATE_ALGORITHMS: ECDSA P-384 and SHA-384 are the only algorithms offered. -/
def State.spdmAlgorithms (s : State) (p384 sha : Bool) : State :=
  s.spdmAnswer (fun s => if p384 && sha then s.emit (.spdm 0xE3 [(0, [0x80]), (1, [0x02])]) else s.emit (.spdmError 1))
/-- GET_DIGESTS: of the chain in slot 0. -/
def State.spdmDigests (s : State) : State := s.spdmAnswer (fun s => s.emit (.spdm 0x81 [(0, sha384 s.aliasChain)]))
/-- GET_CERTIFICATE: a part of the chain in slot 0. -/
def State.spdmCertificate (s : State) (slot off len : Nat) : State :=
  s.spdmAnswer (fun s => if slot = 0 then s.emit (.spdm 0x82 [(0, (s.aliasChain.drop off).take len)]) else s.emit (.spdmError 1))
/-- CHALLENGE: the digest of the chain, and a signature over the nonce. -/
def State.spdmChallenge (s : State) (slot : Nat) (nonce : List Nat) : State :=
  s.spdmAnswer (fun s =>
    if slot ≠ 0 then s.emit (.spdmError 1)
    else
      let d := sha384 s.aliasChain
      let (sig, s) := s.aliasSign (d ++ nonce)
      s.emit (.spdm 0x83 [(0, d), (1, sig)]))

/-- The measurement blocks: n + 1 is slot n, 17 is the state record in clear, read live (R568). -/
def State.measBlocks (s : State) : List (Nat × List Nat) :=
  (List.range 16).map (fun n => (n + 1, s.measSlot n)) ++ [(17, s.stateRecord)]

/-- GET_MEASUREMENTS: block 0 asks their number, 255 all of them; a signature when asked for. -/
def State.spdmMeasurements (s : State) (block : Nat) (nonce : List Nat) (sign : Bool) : State :=
  s.spdmAnswer (fun s =>
    let parts := if block = 0 then [(0, [17])] else if block = 255 then s.measBlocks else s.measBlocks.filter (fun p => p.1 == block)
    if parts = [] then s.emit (.spdmError 1)
    else if sign then
      let (sig, s) := s.aliasSign (parts.flatMap (fun (p : Nat × List Nat) => p.2) ++ nonce)
      s.emit (.spdm 0xE0 (parts ++ [(256, sig)]))
    else s.emit (.spdm 0xE0 parts))

/-- R574: an authorisation delivered as a VENDOR_DEFINED_REQUEST: the public key, the message, and its signature. -/
def State.spdmVendor (s : State) (key msg : List Nat) (r sg : Nat) : State :=
  s.spdmAnswer (fun s =>
    if sha384 key = s.boot.fuses.mfgHash ∧ ecdsaOk key msg r sg then (s.setGh GH_STATUS GH_STATUS_AUTH_OK 1).emit (.spdm 0xFE [])
    else s.emit (.spdmError 1))

/-! ## Pins -/

/-- R579, R507, R622: the filtered input of a GPIO pin has changed. -/
def State.gpioChange (s : State) (pin : Nat) (level : Bool) : State :=
  let old := natBit s.boot.gpioPins pin
  if !s.runPins ∨ old = level then s
  else
    let s := { s with boot := { s.boot with gpioPins := s.boot.gpioPins ^^^ 2 ^ pin } }
    let e := s.reg 15 1 GH_GPIO_EDGE []
    if !bitOf e (if level then pin else 32 + pin) then s
    else if s.part = .a1 ∧ natBit (s.ww WW_GPIO_WORLD WW_GPIO_WORLD_PINS) pin then s.monPush 0x85 0 pin level.toNat
    else if s.gh GH_GPIO_Q GH_GPIO_Q_EN = 0 then s
    else
      let q := s.gh GH_GPIO_Q GH_GPIO_Q_QUEUE
      let w := Word.data (v64 (pin + level.toNat * 32 + s.time % 2 ^ 56 * 2 ^ 8))
      let ok := !qSystem q && s.qf q URN_QCFG URN_QCFG_WORLD == 0 && s.qWords q == 1
      match if ok then s.hwPush q [w] else (s, false) with
      | (s, true) => s
      | (s, false) => s.addFld 15 1 GH_GPIO_Q [] GH_GPIO_Q_DROPS 1

/-- R620: a dynamic address taken by ENTDAA. -/
def State.entdaa (s : State) (addr : Nat) : State :=
  if s.mode = .m0 then s else { s with boot := { s.boot with i3c := some addr } }
/-- R620: a dynamic address given to the static address 0x30 plus the socket ID. -/
def State.setdasa (s : State) (static addr : Nat) : State :=
  if s.mode = .m0 ∨ !s.boot.idHeld ∨ static ≠ 0x30 + s.socketId then s else { s with boot := { s.boot with i3c := some addr } }

/-- The identification code (R621). -/
def State.idcode (s : State) : Nat :=
  (if s.part = .a1 then 1 else 2) * 2 ^ 28 + 0x8512 * 2 ^ 12 + Sys2Proof.Config.jedecCode.toNat * 2 + 1

/-- R621: an instruction of the TAP. EXTEST and INTEST act only in M11 and are BYPASS elsewhere. -/
def State.tapIns (s : State) (i : TapIns) : State :=
  if s.mode = .m0 then s
  else
    let i := match i with
      | .extest | .intest => if s.mode = .m11 then i else .bypass
      | .bypass | .idcode | .sample => i
    let s := { s with boot := { s.boot with tap := i } }
    match i with
    | .idcode => s.emit (.tdo 32 s.idcode)
    | .bypass => s.emit (.tdo 1 0)
    | .sample | .extest | .intest => s

/-- R621: the TAP reset, which selects IDCODE. -/
def State.tapReset (s : State) : State := if s.mode = .m0 then s else { s with boot := { s.boot with tap := .idcode } }

end Sys2Proof.Machine
end

