-- ==== Sys2Proof/Machine/BootCmds.lean ====
section
/-! DEFINITION. Power-up, reset, self-test, bring-up and the sideband pins as commands (19_boot_selftest.md, 21_package_electrical.md). -/
set_option autoImplicit false
namespace Sys2Proof.Machine

/-- VIN has been out of range for 20 µs (R514). -/
def execVinOutOfRange (s : State) : Host.Outcome State Fault Refusal :=
  .next (s.vinOut)

/-- VSTBY has been below 2.9 V for 10 µs (R612). -/
def execStandbyLost (s : State) : Host.Outcome State Fault Refusal :=
  .next (s.toM0)

/-- Standby rises (R560). -/
def execStandbyRise (s : State) : Host.Outcome State Fault Refusal :=
  .next (s.standbyRise)

/-- VIN has been within its limits for 10 ms (R561). -/
def execVinValid (s : State) : Host.Outcome State Fault Refusal :=
  .next (s.vinOk)

/-- A TIMESYNC pulse for the multiple k of 2^20 ns (R540, R541). -/
def execTimesync (k : Nat) (s : State) : Host.Outcome State Fault Refusal :=
  .next (s.timesync k)

/-- Socket 0 drives TIMESYNC (R540). -/
def execTimesyncDrive (s : State) : Host.Outcome State Fault Refusal :=
  .next (s.timesyncDrive)

/-- A frame on CHAIN_IN (R617, R491). -/
def execChainFrame (id : Nat) (parityOk : Bool) (s : State) : Host.Outcome State Fault Refusal :=
  onUnit (id < 8) (s.chainFrame id parityOk)

/-- CHAIN_IN has been low for 50 µs (R617). -/
def execChainInLow (s : State) : Host.Outcome State Fault Refusal :=
  .next (s.chainLow)

/-- The socket sends its ID frame (R617). -/
def execChainOutFrame (s : State) : Host.Outcome State Fault Refusal :=
  .next (s.chainOut)

/-- Requests M2 (R561). `w` is the control-space requester, none for the management port. -/
def execPowerOn (w : Option CtlWho) (s : State) : Host.Outcome State Fault Refusal :=
  .next (s.ghCmd w 0x01)

/-- A warm reset is asked for (R27, R509). `w` is the control-space requester, none for the management port. -/
def execWarmReset (w : Option CtlWho) (s : State) : Host.Outcome State Fault Refusal :=
  .next (s.ghCmd w 0x02)

/-- A cold reset is asked for (R27). `w` is the control-space requester, none for the management port. -/
def execColdReset (w : Option CtlWho) (s : State) : Host.Outcome State Fault Refusal :=
  .next (s.ghCmd w 0x03)

/-- Maintenance mode is asked for (R578, R505). `w` is the control-space requester, none for the management port. -/
def execMaint (w : Option CtlWho) (s : State) : Host.Outcome State Fault Refusal :=
  .next (s.ghCmd w 0x04)

/-- Maintenance ends by a warm reset (R578). `w` is the control-space requester, none for the management port. -/
def execMaintDone (w : Option CtlWho) (s : State) : Host.Outcome State Fault Refusal :=
  .next (s.ghCmd w 0x05)

/-- Manufacturing Test is asked for (R574). `w` is the control-space requester, none for the management port. -/
def execMfgTest (w : Option CtlWho) (s : State) : Host.Outcome State Fault Refusal :=
  .next (s.ghCmd w 0x06)

/-- Debug mode is asked for (R578). `w` is the control-space requester, none for the management port. -/
def execDebug (w : Option CtlWho) (s : State) : Host.Outcome State Fault Refusal :=
  .next (s.ghCmd w 0x07)

/-- Debug mode ends (R578). `w` is the control-space requester, none for the management port. -/
def execDebugResume (w : Option CtlWho) (s : State) : Host.Outcome State Fault Refusal :=
  .next (s.ghCmd w 0x08)

/-- The SVN fuse count advances to the running bundle's SVN (R566). `w` is the control-space requester, none for the management port. -/
def execSvnCommit (w : Option CtlWho) (s : State) : Host.Outcome State Fault Refusal :=
  .next (s.ghCmd w 0x09)

/-- A filtered falling edge of RESET_N (R619). -/
def execResetNFall (s : State) : Host.Outcome State Fault Refusal :=
  .next (s.resetFall)

/-- RESET_N rises (R619). -/
def execResetNRise (s : State) : Host.Outcome State Fault Refusal :=
  .next (s.resetRise)

/-- Ten reads at 115 °C (R614). -/
def execFirmwareTrip (s : State) : Host.Outcome State Fault Refusal :=
  .next (s.trip)

/-- A sensor at 125 °C (R614). -/
def execAnalogueTrip (s : State) : Host.Outcome State Fault Refusal :=
  .next (s.trip)

/-- The power-up step in progress has ended (R562, Table 19-1). -/
def execPowerUpStepDone (s : State) : Host.Outcome State Fault Refusal :=
  .next (s.stepDone)

/-- A power-up step has not ended within 10 ms (R562). -/
def execPowerUpStepTimeout (s : State) : Host.Outcome State Fault Refusal :=
  .next (s.stepTimeout)

/-- A self-test is requested (R570); `cond` says whether its three conditions hold. -/
def execSelfTestRequest (cond : Bool) (s : State) : Host.Outcome State Fault Refusal :=
  .next (s.selfTest cond)

/-- The refused self-test is requested again after 1 ms (R570). -/
def execSelfTestRetry (cond : Bool) (s : State) : Host.Outcome State Fault Refusal :=
  .next (s.selfTestRetry cond)

/-- 100 ms have passed without a start (R570). -/
def execSelfTestConditionsTimeout (s : State) : Host.Outcome State Fault Refusal :=
  .next (s.selfTestTimeout)

/-- A test has ended (R571 to R573): its completion flag, whether the pattern count and the signature are as expected, whether it was the
last of its step, and whether the key slots read zero. -/
def execTestResult (u : TestUnit) (flag count sig last zero : Bool) (s : State) : Host.Outcome State Fault Refusal :=
  .next (s.testResult u flag count sig last zero)

/-- The bring-up of M4 (R575): the read errors of the boot image, and whether every mesh stop answered its POLL. -/
def execBringUp (errs : List (Nat × Nat)) (meshOk : Bool) (s : State) : Host.Outcome State Fault Refusal :=
  .next (s.bringUp errs meshOk)

/-- The training of a channel has ended (R340). -/
def execTrainingComplete (ch : Nat) (dimms : List Spd) (ok : Bool) (s : State) : Host.Outcome State Fault Refusal :=
  onUnit (ch < 16) (s.trainDone ch dimms ok)

/-- Every logical core starts at ENTRY_PA (R576). -/
def execCoreStart (s : State) : Host.Outcome State Fault Refusal :=
  .next (s.coreStart)

end Sys2Proof.Machine
end

