-- ==== Sys2Proof/Machine/CacheEvents.lean ====
section
/-! DEFINITION. Cache maintenance registers and flushes as commands (09_cache_hierarchy.md). -/
set_option autoImplicit false
namespace Sys2Proof.Machine

/-- R602: a tile is proposed with reason 2 when hardware has disabled three ways of its L2. -/
def State.proposeWays (s : State) (lt : Nat) : State :=
  let hw := s.fld (ltDie lt) (ltIdx lt) L2_WAY_DIS [] L2_WAY_DIS_HWDIS
  if ((List.range 16).filter (fun w => natBit hw w)).length ≥ 3 then s.propose lt 2 else s

/-- The flush of a pending way ends (R293, R296); the third L2 way that the hardware takes out proposes the tile (R602). -/
def execWayFlushDone (lt way : Nat) (llc : Bool) (s : State) : Host.Outcome State Fault Refusal :=
  onUnit (lt < 256 && way < 16) (if llc then s.llcWayDone lt way else (s.l2WayDone lt way).proposeWays lt)

/-- L2_CTL.FLUSH written 1 (R297). -/
def execL2Flush (lt : Nat) (s : State) : Host.Outcome State Fault Refusal :=
  onUnit (lt < 256) (s.l2CtlWrite lt (setBit (s.reg (ltDie lt) (ltIdx lt) L2_CTL []) L2_CTL_FLUSH.lo true))

/-- LLC_CTL.FLUSH written 1 (R297). -/
def execLlcFlush (lt : Nat) (s : State) : Host.Outcome State Fault Refusal :=
  onUnit (lt < 256) (s.llcCtlWrite lt (setBit (s.reg (ltDie lt) (llcUnit lt) LLC_CTL []) LLC_CTL_FLUSH.lo true))

/-- A full flush removes its last line (R297). -/
def execFlushDone (lt : Nat) (llc : Bool) (s : State) : Host.Outcome State Fault Refusal :=
  onUnit (lt < 256) (if llc then s.llcFlushDone lt else s.l2FlushDone lt)

/-- A write to L2_WAY_DIS (R295, R296). -/
def execL2WayDisWrite (lt : Nat) (v : BitVec 64) (s : State) : Host.Outcome State Fault Refusal :=
  onUnit (lt < 256) (s.l2DisWrite lt v)

/-- A write to LLC_WAY_DIS (R295, R296). -/
def execLlcWayDisWrite (lt : Nat) (v : BitVec 64) (s : State) : Host.Outcome State Fault Refusal :=
  onUnit (lt < 256) (s.llcDisWrite lt v)

/-- A Walled write to LLC_WALLED_WAYS (R300); on PM-8512-X1 there is no Walled world and no such register. -/
def execLlcWalledWaysWrite (lt : Nat) (v : BitVec 64) (s : State) : Host.Outcome State Fault Refusal :=
  onUnit (lt < 256) (if s.part = .x1 then s else s.maskWrite lt v)

/-- The flush of a mask change ends (R300). -/
def execMaskDone (lt : Nat) (s : State) : Host.Outcome State Fault Refusal :=
  onUnit (lt < 256) (s.maskDone lt)

end Sys2Proof.Machine
end

