-- ==== Sys2Proof/Machine/CoreExec.lean ====
section
/-! DEFINITION. The frame of every instruction: what is checked before it, the body, and its retirement. -/
set_option autoImplicit false
namespace Sys2Proof.Machine

/-- The frame of an instruction: a core that does not run ignores it; an interrupt that may be taken now is taken instead (R189); the
fetch comes before anything else; then the body, whose answer says whether it has counted itself. -/
def State.runInstr (s : State) (lc : Nat) (body : State → MRes Bool) : State :=
  if !s.coreRuns lc then s
  else
    match s.irqNow lc with
    | some info => s.takeExc lc (Exc.interrupt info) (s.core lc).pc
    | none =>
      let pre := s.core lc
      match s.fetchInstr lc with
      | (.error .stall, s) => s
      | (.error (.exc e), s) => s.takeExc lc e pre.pc
      | (.ok line, s) =>
        let s := if pre.flips = [] then s else s.findFlips lc body
        if !s.coreRuns lc then s
        else
        match body s with
        | (.error .stall, s) => s
        | (.error (.exc e), s) =>
          if e.isCall then
            (s.retire lc line pre false).takeExc lc e (pcAdd pre.pc 4)
          else s.takeExc lc e pre.pc
        | (.ok counted, s) => (s.regInject lc pre).retire lc line pre counted

/-- The frame of an instruction that only changes its core. -/
def runCore (lc : Nat) (f : Core → CoreRes) (s : State) : Host.Outcome State Fault Refusal :=
  .next (s.runInstr lc (fun (s : State) =>
    match f (s.core lc) with
    | .ok c => (.ok false, s.setCore lc c)
    | .error e => (.error (.exc e), s)))

end Sys2Proof.Machine
end

