-- ==== Sys2Proof/Machine/CoreQueue.lean ====
section
/-! DEFINITION. Queue instructions of the cores (05_ecyen_memory_vector.md, R158 to R162): checks, the operation at the Urn, waits and their ends. -/
set_option autoImplicit false
namespace Sys2Proof.Machine

/-- The requester of a core's queue operation (Table 13-3). -/
def State.coreReq (s : State) (lc : Nat) : QReq :=
  let c := s.core lc
  { who := .core lc, walled := c.walled, pl := c.pl, vmid := if c.pl ≤ 1 ∧ c.vm then some c.vmid else none }

/-- Whether accesses at the current level are checked (R71), and whether they need a pointer-class base (R72). -/
def Core.tagEn (c : Core) : Bool := bitOf (c.sysr 0x030) c.pl
/-- s.tagctl.PREQ of the current level. -/
def Core.tagPreq (c : Core) : Bool := bitOf (c.sysr 0x030) (4 + c.pl)

/-- R72: whether a pointer colour matches the colour of a word. -/
def colourOk (p w : BitVec 6) : Bool := p == w || p == 0 || w == 0

/-- R159: the checks of a handle against the ring colour. -/
def State.handleCheck (s : State) (lc : Nat) (h : Word) (write : Bool) : Option Exc :=
  let c := s.core lc
  if !c.tagEn then none
  else if c.tagPreq && !h.isPointer then some (Exc.tagFault write 2 h.val)
  else if !colourOk (vaColour h.val) (BitVec.ofNat 6 (s.qf (field h.val 0 16) URN_QCFG URN_QCFG_RCOL)) then
    some (Exc.tagFault write 1 h.val)
  else none

/-- R414: the tile takes a pending state only with a sequence number later than that of the last one it took, modulo 2^16. -/
def Core.pendApply (c : Core) (seq : Nat) (pending : Bool) : Core :=
  let d := (seq + 2 ^ 16 - c.irqSeq) % 2 ^ 16
  if 0 < d ∧ d < 2 ^ 15 then { c with irqPending := pending, irqSeq := seq } else c

/-- R414: the pending state that the answer to an operation on the core's own interrupt queue brings. -/
def Core.iqApply (c : Core) (info : Option (Nat × Nat)) : Core :=
  match info with
  | some (n, seq) => c.pendApply seq (n != 0)
  | none => c

/-- The entry and status that end a queue instruction (R158, R160): the entry first, the status last. An entry is written only
with status OK. -/
def Core.queueWrite (c : Core) (w : CoreWait) (status : Nat) (ws : List Word) : Core :=
  let ws := ws.map (ldtWord c.pl)
  let c := if w.kind ≠ .pop ∨ status ≠ 0 then c
    else if w.g then c.setG w.rd (ws.getD 0 Word.zero)
    else c.setVAll w.rd ws
  (c.setG w.rs (Word.data (v64 status))).advance

/-- The release-buffer entry of the power request of a tile whose cores wait (R255, R517). -/
def powerEnt : RbEnt := { kind := .power, addr := 0, size := 0, data := [], committed := false, msg := none }

/-- The end of a queue instruction within its own step: what the Urn answered is written, or the core waits, or the instruction
stalls. -/
def State.queueEnd (s : State) (lc : Nat) (w : CoreWait) (r : QRes) : MRes Bool :=
  match r with
  | .done st ws =>
    let info := if iqOwner w.queue = some lc ∧ w.kind = .pop then s.iqInfo w.queue else none
    let c := ((s.core lc).iqApply info).queueWrite w st ws
    (.ok false, s.setCore lc { c with evs := c.evs ++ [0x00F] })
  | .waits =>
    if s.urnWaits (.core lc) then
      let s := s.setCore lc { s.core lc with wait := some w }
      (.error .stall, (s.rbPass (lcTile lc) powerEnt).2.powerPoll)
    else (.error .stall, s)

/-- The release-buffer entry of a queue operation (R255). -/
def queueEnt (q : Nat) (o : ROp) (ws : List Word) : RbEnt :=
  { kind := .queue, addr := q, size := o.md.toNat, data := ws, committed := false, msg := none }

/-- The wait record of a queue instruction. -/
def waitOf (kind : WaitKind) (q : Nat) (o : ROp) (entry : List Word) (deadline : Option Nat) : CoreWait :=
  { kind := kind, queue := q, rd := o.rd, rs := o.rb, g := bitOf (v64 o.md.toNat) 1, entry := entry, deadline := deadline }

/-- The frame of QPUSH, QPOP and QPEEK up to the operation at the Urn (R158, R159). -/
def State.queueInstr (s : State) (lc : Nat) (o : ROp) (bad write : Bool) (f : State → Nat → MRes Bool) : MRes Bool :=
  let h := (s.core lc).getG o.ra
  if bad then (.error (.exc .illegal), s)
  else if h.isPoison then (.error (.exc (Exc.poison (wordCode h))), s)
  else
    match s.handleCheck lc h write with
    | some e => (.error (.exc e), s)
    | none => f s (field h.val 0 16)

/-- QPUSH: older ordered stores become visible first (R149, R162); the entry is written as STT writes it (R160). -/
def State.qpushBody (s : State) (lc : Nat) (o : ROp) : MRes Bool :=
  s.queueInstr lc o (decide (o.md.toNat ≥ 4)) true (fun (s : State) q =>
    match s.sbOrdered lc with
    | (false, s) => (.error .stall, s)
    | (true, s) =>
      let c := s.core lc
      let g := bitOf (v64 o.md.toNat) 1
      let ws := if g then [c.getG o.rd] else (List.range (s.qWords q)).map (fun i => c.getV o.rd i)
      let ws := ws.map (sttWord c.pl)
      s.logDo lc (queueEnt q o ws) (fun (s : State) =>
        let (r, s) := s.urnPush (s.coreReq lc) q ws (bitOf (v64 o.md.toNat) 0) g
        s.queueEnd lc (waitOf .push q o ws none) r))

/-- QPOP. -/
def State.qpopBody (s : State) (lc : Nat) (o : ROp) : MRes Bool :=
  s.queueInstr lc o (decide (o.md.toNat ≥ 4)) false (fun (s : State) q =>
    s.logDo lc (queueEnt q o []) (fun (s : State) =>
      let (r, s) := s.urnPop (s.coreReq lc) q (bitOf (v64 o.md.toNat) 0) (bitOf (v64 o.md.toNat) 1)
      s.queueEnd lc (waitOf .pop q o [] none) r))

/-- QPEEK: W must be 0. -/
def State.qpeekBody (s : State) (lc : Nat) (o : ROp) : MRes Bool :=
  s.queueInstr lc o (decide (o.md.toNat ≥ 4) || bitOf (v64 o.md.toNat) 0) false (fun (s : State) q =>
    s.logDo lc (queueEnt q o []) (fun (s : State) =>
      let (r, s) := s.urnPeek (s.coreReq lc) q (bitOf (v64 o.md.toNat) 1)
      s.queueEnd lc (waitOf .pop q o [] none) r))

/-- QWAIT: no colour check (R159); g[RD] is the timeout in ns, 0 for none. -/
def State.qwaitBody (s : State) (lc : Nat) (o : ROp) : MRes Bool :=
  let c := s.core lc
  let h := c.getG o.ra
  let t := c.getG o.rd
  if o.md ≠ 0 then (.error (.exc .illegal), s)
  else
    match firstPoison [h, t] with
    | some code => (.error (.exc (Exc.poison code.toNat)), s)
    | none =>
      let q := field h.val 0 16
      s.logDo lc (queueEnt q o [t]) (fun (s : State) =>
        let (r, s) := s.urnWaitOp (s.coreReq lc) q
        s.queueEnd lc (waitOf .wait q o [] (if t.val = 0 then none else some (s.time + t.val.toNat))) r)

/-- A waiting queue instruction completes with a status: it retires. -/
def State.queueDone (s : State) (lc : Nat) (w : CoreWait) (status : Nat) (ws : List Word) (info : Option (Nat × Nat)) : State :=
  let c := s.core lc
  let c' := (({ c with wait := none }).iqApply info).queueWrite w status ws
  let s := ((s.setCore lc { c' with evs := c'.evs ++ [0x00F] }).regInject lc c).logClear (lcTile lc)
  (s.setCore lc ((s.core lc).countRetired c.pl c.walled)).pushDue lc

/-- The Urn's answer for a waiting core, taken. -/
def State.takeUrnAns (s : State) (lc : Nat) : Option UrnAns × State :=
  match s.urnAns.find? (fun a => a.who == .core lc) with
  | some a => (some a, { s with urnAns := s.urnAns.erase a })
  | none => (none, s)

/-- An answer of the Urn as the interrupt state of its core sees it: only for a pop or peek of the core's own interrupt queue (R414). -/
def ownIq (lc : Nat) (w : CoreWait) (a : UrnAns) : Option (Nat × Nat) :=
  if iqOwner w.queue = some lc ∧ w.kind = .pop then a.iq else none

/-- R161: the Urn's answer arrives. A tile that is not in T0 is woken first (R531); where cores do not run (R29) the answer waits. -/
def State.queueAnswer (s : State) (lc : Nat) : State :=
  if !s.urnAns.any (fun a => a.who == .core lc) then s
  else if !s.tileOpen (lcTile lc) then s.wakeTile (lcTile lc)
  else if !s.coreOpen lc then s
  else
    match s.takeUrnAns lc with
    | (none, s) => s
    | (some a, s) =>
      match (s.core lc).wait with
      | some w => s.queueDone lc w a.status a.words (ownIq lc w a)
      | none => s

/-- R161: the timebase has reached the end of a QWAIT's timeout: TIMEOUT, or OK where the Urn has answered already. -/
def State.qwaitTimeout (s : State) (lc : Nat) : State :=
  match (s.core lc).wait with
  | none => s
  | some w =>
    match w.deadline with
    | none => s
    | some t =>
      if s.time < t ∨ !s.coreOpen lc then s
      else
        match s.urnCancel (.core lc) with
        | (true, s) => s.queueDone lc w 4 [] none
        | (false, s) => s.queueAnswer lc

/-- R161, R408: a waiting core that is to take an interrupt cancels its operation: INTERRUPTED, or OK where the Urn had performed
it already; then the interrupt is taken. -/
def State.queueCancel (s : State) (lc : Nat) : State :=
  match (s.core lc).wait, (s.core lc).irq with
  | some w, some info =>
    if !s.coreOpen lc then s
    else
      let s := match s.urnCancel (.core lc) with
        | (true, s) => s.queueDone lc w 5 [] none
        | (false, s) => s.queueAnswer lc
      if (s.core lc).wait.isSome then s else s.takeExc lc (Exc.interrupt info) (s.core lc).pc
  | _, _ => s

/-- QPUSH (R158 to R162). -/
def execQpush (lc : Nat) (o : ROp) (s : State) : Host.Outcome State Fault Refusal :=
  .next (s.runInstr lc (fun (s : State) => s.qpushBody lc o))

/-- QPOP (R158 to R162). -/
def execQpop (lc : Nat) (o : ROp) (s : State) : Host.Outcome State Fault Refusal :=
  .next (s.runInstr lc (fun (s : State) => s.qpopBody lc o))

/-- QPEEK (R158 to R162). -/
def execQpeek (lc : Nat) (o : ROp) (s : State) : Host.Outcome State Fault Refusal :=
  .next (s.runInstr lc (fun (s : State) => s.qpeekBody lc o))

/-- QWAIT (R158 to R161). -/
def execQwait (lc : Nat) (o : ROp) (s : State) : Host.Outcome State Fault Refusal :=
  .next (s.runInstr lc (fun (s : State) => s.qwaitBody lc o))

/-- The Urn's answer arrives at a core, or wakes its tile (R161, R531). -/
def execQueueAnswer (lc : Nat) (s : State) : Host.Outcome State Fault Refusal :=
  onUnit (lc < 512) (s.queueAnswer lc)

/-- The timeout of a QWAIT has passed (R161). -/
def execQwaitTimeout (lc : Nat) (s : State) : Host.Outcome State Fault Refusal :=
  onUnit (lc < 512) (s.qwaitTimeout lc)

/-- A waiting core is to take an interrupt (R161, R408). -/
def execQueueCancel (lc : Nat) (s : State) : Host.Outcome State Fault Refusal :=
  onUnit (lc < 512) (s.queueCancel lc)

end Sys2Proof.Machine
end

