-- ==== Sys2Proof/Machine/Rounds.lean ====
section
/-! DEFINITION. Counter rounds (18_counters_probes.md, R551 to R556) and the clearing of a trace buffer (R558). -/
set_option autoImplicit false
namespace Sys2Proof.Machine

/-- A field of a counter-round register (die 15, unit 0x004). -/
def State.rf (s : State) (r : RegDef) (f : RField) : Nat := s.fld 15 0x004 r [] f
/-- A field of a counter-round register written. -/
def State.setRf (s : State) (r : RegDef) (f : RField) (x : Nat) : State := s.setFld 15 0x004 r [] f x

/-- Whether the rounds of a socket follow socket 0 (R556). -/
def State.rndSync (s : State) : Bool := s.rf CNT_RND_CTL CNT_RND_CTL_SYNC != 0 && s.socketId != 0

/-- R551: the tick of round k. -/
def State.rndTick (s : State) (k : Nat) : Nat :=
  s.rf CNT_RND_START CNT_RND_START_START + k * s.rf CNT_RND_CTL CNT_RND_CTL_PERIOD_US * 1000

/-- R553: the buffer of round k. -/
def State.rndBuffer (s : State) (k : Nat) : Nat :=
  s.rf CNT_RND_BASE CNT_RND_BASE_BASE * 2 ^ 17 + k % 2 ^ s.rf CNT_RND_CTL CNT_RND_CTL_LOG2B * 0x20000

/-- A round joins those announced; socket 0 tells every joined socket of it (R556). -/
def State.rndTell (s : State) (x : RndState) (k tick : Nat) : State :=
  let s := { s with rnd := x }
  if s.socketId = 0 then (List.range 8).foldl (fun (s : State) n => if n ≠ 0 ∧ s.fbReach n then s.emit (.footbridge n 3 [k, tick]) else s) s else s

/-- R551, R552, R556: the root comes to announce the next round, or the one that socket 0 commands, whose tick is
reached when the own timebase reaches it plus CLK_TS_OFFSET (R541). A tick less than 10 µs ahead is skipped. -/
def State.round (s : State) (remote : Option (Nat × Nat)) : State :=
  if s.rf CNT_RND_CTL CNT_RND_CTL_EN = 0 ∨ remote.isSome ≠ s.rndSync then s
  else
    let (k, tick) := match remote with
      | some r => r
      | none => (s.rnd.next, s.rndTick s.rnd.next)
    let s := { s with rnd := { s.rnd with next := k + 1 } }
    let own := if remote.isSome then (tick + (s.reg 15 3 CLK_TS_OFFSET []).toNat) % 2 ^ 64 else tick
    if own < s.time + 10000 then s.addFld 15 0x004 CNT_RND_STATUS [] CNT_RND_STATUS_MISSED 1
    else
      let r : Round := { k := k, tick := tick, own := own, buffer := s.rndBuffer k, latched := false, complete := 0, header := [], left := [] }
      s.rndTell { s.rnd with rounds := s.rnd.rounds ++ [r] } k tick

/-- The pairs and the OVF bits of a node's uncore counters, as words 1 onwards and word 9 of a record (Table 18-6). -/
def State.rndPairs (s : State) (die unit : Nat) (c : CntRegs) : List (BitVec 64) :=
  (List.range 8).map (fun j => if 2 * j < c.n then s.reg die unit c.pair [j] else 0) ++
    [v64 (s.fld die unit c.status [] CNT_USTATUS_OVF)]

/-- Words 1 to 12 of a core's record, and its world and level. -/
def State.rndCore (s : State) (lc : Nat) : List (BitVec 64) × Nat × Nat :=
  let c := s.core lc
  let ctl := c.sysr 0x058
  ((List.range 11).map (fun j => c.sysr (0x040 + j)) ++ [v64 (c.vmid + field ctl 0 11 * 2 ^ 16 + c.vm.toNat * 2 ^ 27)],
    c.walled.toNat, c.pl)

/-- A unit of Table 18-6: none where it leaves its COMPLETE bit at 0 (R555); otherwise ASLEEP, world, level and the words from word 1. -/
def State.rndUnit (s : State) (i : Nat) : Option (Bool × Nat × Nat × List (BitVec 64)) :=
  let plain := fun (ws : List (BitVec 64)) => some (false, 0, 0, ws)
  let ofTile := fun (lt : Nat) (w pl : Nat) (ws : List (BitVec 64)) =>
    if s.tileSt lt = 4 then none else some (within 2 (s.tileSt lt) 3, w, pl, ws)
  let ofDom := fun (dom : Nat) (ws : List (BitVec 64)) =>
    if s.domSt dom PWR_DOM_STATUS_STATE = 3 then none else plain ws
  if i < 512 then
    if s.coreExists i then let (ws, w, pl) := s.rndCore i; ofTile (lcTile i) w pl ws else none
  else if i < 768 then ofTile (i - 512) 0 0 (s.rndPairs (ltDie (i - 512)) (llcUnit (i - 512)) cntLlc)
  else if i < 784 then
    let ch := i - 768
    ofDom (0x200 + 0x40 * (ch / 8) + ch % 8) (s.rndPairs (chDie ch) (chUnit ch) cntMem)
  else if i < 786 then plain (s.rndPairs (8 + (i - 784)) 0x038 cntHome)
  else if i < 788 then plain (s.rndPairs (8 + (i - 786)) 0x030 cntUrn)
  else if i < 798 then
    let p := i - 788
    ofDom (0x200 + 0x40 * (p / 5) + 8 + p % 5) (s.rndPairs (8 + p / 5) (0x010 + p % 5) cntPort)
  else if i < 804 then plain (s.rndPairs (8 + (i - 798) / 3) (0x018 + (i - 798) % 3) cntFb)
  else if i < 820 then
    let c := i - 804
    ofDom (0x200 + 0x40 * (c / 8) + 16 + c % 8) (s.rndPairs (8 + c / 8) (0x020 + c % 8) cntKsk)
  else if i < 822 then plain (s.rndPairs (8 + (i - 820)) 0x03B cntIod)
  else
    plain ([CNT_IREQ, CNT_IBYTES, CNT_ILATSUM, CNT_ILATMAX].map (fun r => s.reg 15 0x004 r [i - 822]))

/-- The agent that writes record i, after the agents that R559 measures. -/
def rndAgent (i : Nat) : Agent := .nca (1024 + i)

/-- A line of data words, filled up with zeros. -/
def dataLine (ws : List (BitVec 64)) : List Word := (List.range 16).map (fun j => Word.data (ws.getD j 0))

/-- The record of a unit written to the buffer of a round (R553, R554). -/
def State.rndRecord (s : State) (r : Round) (p : Nat × Bool × Nat × Nat × List (BitVec 64)) : State :=
  let (i, asleep, w, pl, ws) := p
  let head := r.k % 2 ^ 32 + i * 2 ^ 32 + asleep.toNat * 2 ^ 48 + w * 2 ^ 49 + pl * 2 ^ 50
  s.ncWrite (rndAgent i) (r.buffer / 128 + i + 1) (dataLine (v64 head :: ws)) fullMask false

/-- R552 to R555: every unit latches its counters at the tick and writes its record, but for those named, which received the
announcement late or abandon their write. -/
def State.roundLatch (s : State) (late : List Nat) : State :=
  match s.rnd.rounds.find? (fun r => !r.latched) with
  | none => s
  | some r =>
    if s.time < r.own then s
    else
      let recs := (List.range 838).filterMap (fun i => if late.contains i then none else (s.rndUnit i).map (fun u => (i, u)))
      let complete := recs.foldl (fun (a : Nat) (p : Nat × Bool × Nat × Nat × List (BitVec 64)) => a + 2 ^ p.1) 0
      let s := { s with rnd := { s.rnd with
          rounds := s.rnd.rounds.map (fun x => if x.k = r.k then { x with latched := true, complete := complete } else x) } }
      recs.foldl (fun (s : State) p => s.rndRecord r p) s

/-- Table 18-5: the header of a round. A record counts as written once its write has been performed. -/
def State.rndHeader (s : State) (r : Round) : List Word :=
  let done := fun i => natBit r.complete i && !s.asked (rndAgent i) .wrInv (r.buffer / 128 + i + 1)
  let count := ((List.range 838).filter done).length
  let maps := (List.range 14).map (fun w => v64 (foldN 64 (fun a b => if done (64 * w + b) then a + 2 ^ b else a) 0))
  dataLine (v64 r.tick :: v64 (r.k % 2 ^ 32 + s.socketId * 2 ^ 32 + count * 2 ^ 38) :: maps)

/-- The spans of a header written one after the Cmp of the other (R554): those that are left. -/
def State.headerPut (s : State) (line : Nat) (ws : List Word) (ps : List (Nat × Nat)) : List (Nat × Nat) × State :=
  match ps with
  | [] => ([], s)
  | p :: rest =>
    match s.ncPut (rndAgent 838) line ws ((2 ^ (8 * p.2) - 1) * 2 ^ (8 * p.1)) false with
    | (true, s) => s.headerPut line ws rest
    | (false, s) => (ps, s)

/-- The header of the oldest round goes on; its round ends when all of it has been written. -/
def State.headerGo (s : State) : State :=
  match s.rnd.rounds with
  | [] => s
  | r :: rest =>
    if r.left = [] then s
    else
      match s.headerPut (r.buffer / 128) r.header r.left with
      | ([], s) =>
        ({ s with rnd := { s.rnd with rounds := rest } }.setRf CNT_RND_STATUS CNT_RND_STATUS_LAST_SEQ r.k).setRf CNT_RND_STATUS
          CNT_RND_STATUS_VALID 1
      | (left, s) => { s with rnd := { s.rnd with rounds := { r with left := left } :: rest } }

/-- R554: 50 µs after the tick the root writes the header of the oldest round: words 2 to 15, then word 1, then word 0. -/
def State.roundHeader (s : State) : State :=
  match s.rnd.rounds with
  | [] => s
  | r :: rest =>
    if !r.latched ∨ s.time < r.own + 50000 ∨ r.left ≠ [] then s
    else State.headerGo { s with rnd := { s.rnd with rounds := { r with header := s.rndHeader r, left := [(2, 14), (1, 1), (0, 1)] } :: rest } }

/-- A write of CNT_RND_CTL: setting EN with a ring outside one enabled MEM_RANGE, or with a period out of range, is discarded with
REFUSED; the other fields change only while EN is 0. Setting EN starts at round 0 with VALID clear; clearing it ends what
was announced. -/
def State.rndCtlWrite (s : State) (v : BitVec 64) : State :=
  let en := s.rf CNT_RND_CTL CNT_RND_CTL_EN
  let logB := min 6 (field v 2 3)
  let period := field v 8 24
  if field v 0 1 = 1 then
    if en = 1 then s
    else if !(s.spanIn (s.rf CNT_RND_BASE CNT_RND_BASE_BASE * 2 ^ 17) (0x20000 * 2 ^ logB)) ∨ !within 100 period 10000000 then
      s.setRf CNT_RND_STATUS CNT_RND_STATUS_REFUSED 1
    else
      let s := s.setReg 15 0x004 CNT_RND_CTL [] (v64 (1 + field v 1 1 * 2 + logB * 4 + period * 2 ^ 8))
      { s with rnd := { rounds := [], next := 0 } }.setRf CNT_RND_STATUS CNT_RND_STATUS_VALID 0
  else if en = 1 then { s with rnd := { s.rnd with rounds := [] } }.setRf CNT_RND_CTL CNT_RND_CTL_EN 0
  else s.setReg 15 0x004 CNT_RND_CTL [] (v64 (field v 1 1 * 2 + logB * 4 + period * 2 ^ 8))

/-- A write of CNT_RND_START or CNT_RND_BASE, which acts only while EN is 0. -/
def State.rndSetup (s : State) (r : RegDef) (v : BitVec 64) : State :=
  if s.rf CNT_RND_CTL CNT_RND_CTL_EN = 1 then s else s.setReg 15 0x004 r [] v

end Sys2Proof.Machine
end

