-- ==== Sys2Proof/Machine/CtlMap.lean ====
section
/-! DEFINITION. The control space as it is read (02_control_space.md): nodes and registers by offset (R35 to R39), the causes of bus
errors (R44 to R46), the fields that show state held elsewhere, and their record in the root (R56, R504). -/
set_option autoImplicit false
namespace Sys2Proof.Machine

/-! ## Nodes and registers -/

/-- The node of a die and unit (Table 2-3); the Walled-world node is absent on PM-8512-X1 (R39), and a die index that no tile stop holds has no
node (R37). -/
def State.nodeCls (s : State) (die unit : Nat) : Option NodeCls :=
  if die < 8 then
    if unit < 0x40 ∧ s.noStop (32 * die + unit % 32) then none
    else if unit < 0x20 then some .tile
    else if unit < 0x40 then some .llc
    else if unit < 0x42 then some .bridge
    else if unit = 0x50 then some .cdPower
    else none
  else if die < 10 then
    if unit < 8 then some .chan
    else if within 0x10 unit 0x14 then some .port
    else if within 0x18 unit 0x1A then some .fb
    else if within 0x20 unit 0x27 then some .cluster
    else match unit with
      | 0x30 => some .urn
      | 0x31 => some .tsv
      | 0x38 => some .home
      | 0x39 => some .iommu
      | 0x3A => some .gk
      | 0x3B => some .iodMesh
      | 0x3C => some .iodPower
      | _ => none
  else if die = 10 then
    match unit with
    | 0 => some .flash
    | 1 => some .regul
    | _ => none
  else if die = 15 then
    match unit with
    | 0 => some .root
    | 1 => some .gh
    | 2 => if s.part = .a1 then some .ww else none
    | 3 => some .tb
    | 4 => some .rnd
    | 5 => some .pkg
    | _ => none
  else none

/-- Whether a node is slow (R48): regulator control and the Gatehouse. -/
def NodeCls.slow (c : NodeCls) : Bool := c == .regul || c == .gh

/-- Whether a node carries the registers named for one node of its kind. -/
def firstNode (c : NodeCls) (die unit : Nat) : Bool :=
  match c with
  | .bridge => unit == 0x040
  | .fb => unit == 0x018
  | .gk | .iodMesh | .tsv => die == 8
  | .tile | .llc | .cdPower | .chan | .port | .cluster | .urn | .home | .iommu | .iodPower | .flash | .regul | .root | .gh | .ww | .tb
  | .rnd | .pkg => true

/-- The indices of an offset in the dimensions of a register array. -/
def dimIdx (dims : List (Nat × Nat)) (rem : Nat) : Option (List Nat) :=
  match dims with
  | [] => if rem = 0 then some [] else none
  | (st, n) :: r => if rem / st < n then (dimIdx r (rem % st)).map (fun l => rem / st :: l) else none

/-- The register and indices of an offset, and whether it is the complement place of a guarded pair (R51). -/
def findReg (regs : List RegDef) (off : Nat) : Option (RegDef × List Nat × Bool) :=
  match regs with
  | [] => none
  | r :: rest =>
    match if off < r.off then none else dimIdx r.dims (off - r.off) with
    | some i => some (r, i, false)
    | none =>
      if r.fields.any (fun f => f.acc == .gp) && off == r.off + 8 then some (r, [], true) else findReg rest off

/-- What an offset of a node names. -/
inductive CtlTarget where
  | reg (r : RegDef) (idx : List Nat) (comp : Bool)
  /-- A word of a kiosk's SRAM: instruction or data (R459). -/
  | sram (k : Nat) (data : Bool) (word : Nat)
  /-- Two configuration registers of a root port (R466). -/
  | window (rp dword : Nat)
  deriving DecidableEq, Repr

/-- A place of the control space. -/
structure CtlAt where
  die : Nat
  unit : Nat
  cls : NodeCls
  off : Nat
  target : CtlTarget
  deriving DecidableEq, Repr

/-- Whether a port of a stop exists (R369, Table 12-1). -/
def stopPort (die st port : Nat) : Bool :=
  let edge := if die < 8 then 5 else 3
  match port with
  | 0 => decide (st % 8 < edge)
  | 1 => decide (0 < st % 8)
  | 2 => decide (st / 8 < edge)
  | 3 => decide (0 < st / 8)
  | 4 => true
  | 5 => if die < 8 then st == 40 || st == 45 else decide (st < 4) || st == 27
  | 6 => decide (8 ≤ die ∧ st < 4)
  | _ => false

/-- Whether an element of a register array exists in its node. -/
def State.elemOk (s : State) (die unit : Nat) (r : RegDef) (idx : List Nat) : Bool :=
  let i := idx.getD 0 0
  if r.id = MESH_TSLOT.id then stopPort die (scanStop (s.scanOf (32 * die + (unit - 0x020)))) i
  else if r.id = MESH_TSLOT_B.id then stopPort die (if unit = 0x040 then 40 else 45) i
  else if r.id = MESH_TSLOT_I.id then stopPort die (i / 4 * 8 + i % 4) (idx.getD 1 0)
  else if r.id = PWR_DOM_CTL.id ∨ r.id = PWR_DOM_VOTE.id ∨ r.id = PWR_DOM_STATUS.id then decide (i < 32 ∨ i = 63)
  else if r.id = PWR_DOM_CTL_I.id ∨ r.id = PWR_DOM_VOTE_I.id ∨ r.id = PWR_DOM_STATUS_I.id then decide (i < 28)
  else true

/-- The registers that a node implements (R37, R38). Unit 0x031 of die 9 has only its header. -/
def regsOf (c : NodeCls) (die unit : Nat) : List RegDef :=
  if c = .tsv ∧ die ≠ 8 then [TRL_NODE_ID, TRL_NODE_CTL, TRL_NODE_STATUS] else nodeRegs c (firstNode c die unit)

/-- What an offset of a node names, if anything. -/
def State.ctlTarget (s : State) (c : NodeCls) (die unit off : Nat) : Option CtlTarget :=
  let sram := fun (k o : Nat) => some (CtlTarget.sram k (decide (o ≥ 0x10000)) (o % 0x10000 / 8))
  if c = .tile ∧ within 0x100000 off 0x11FFFF then sram (32 * die + unit) (off - 0x100000)
  else if c = .cluster ∧ within 0x100000 off 0x2FFFFF then
    sram (256 + 128 * (die - 8) + 16 * (unit - 0x20) + (off - 0x100000) / 0x20000) ((off - 0x100000) % 0x20000)
  else if c = .port ∧ within 0x100000 off 0x103FFF then
    let rp := 20 * (die - 8) + 4 * (unit - 0x10) + (off - 0x100000) / 0x1000
    if s.rpExists rp then some (.window rp (off % 0x1000 / 4)) else none
  else match findReg (regsOf c die unit) off with
    | some (r, i, comp) => if s.elemOk die unit r i then some (.reg r i comp) else none
    | none => none

/-! ## Power and worlds -/

/-- Whether an offset belongs to a node's header. -/
def isHeader (off : Nat) : Bool := decide (off < 0x100)
/-- Whether an offset belongs to a node's ERB block. -/
def isErb (off : Nat) : Bool := decide (off ≥ 0x3F0000)

/-- Whether the Trellis interface of a node is powered (R46, R560, Table 19-1). -/
def State.headerOn (s : State) (c : NodeCls) (die : Nat) : Bool :=
  match s.mode with
  | .m0 => false
  | .m1 => c.slow
  | .m2 => c.slow || (if die < 8 then decide (s.boot.step ≥ 7) else if die < 10 then decide (s.boot.step ≥ 6) else decide (s.boot.step ≥ 3))
  | .m3 | .m4 | .m5 | .m6 | .m7 | .m8 | .m9 | .m10 | .m11 => true

/-- Whether a retained record stands for a node, and an offset is one of its places (R560). -/
def State.retainedAt (s : State) (die unit off : Nat) : Bool :=
  let n := nodeId die unit
  if off = 0x3F0000 then s.boot.retained.any (fun p => p.1 / 8 == n)
  else within 0x3F0100 off 0x3F01FF && (tfind s.boot.retained (8 * n + (off - 0x3F0100) / 0x20)).isSome

/-- Whether the tile of a node took its arbour's fatal path (R268). -/
def State.nodeFatal (s : State) (c : NodeCls) (die unit : Nat) : Bool :=
  c == .tile && natBit (s.fld 15 1 GH_TILE_FATAL [(32 * die + unit) / 64] GH_TILE_FATAL_FATAL) ((32 * die + unit) % 64)

/-- Whether the domain of a node's unit is on. -/
def State.unitOn (s : State) (c : NodeCls) (die unit : Nat) : Bool :=
  let dom := fun (k : Nat) => s.domSt (0x200 + 0x40 * (die - 8) + k) PWR_DOM_STATUS_STATE
  match c with
  | .tile => decide (s.tileSt (32 * die + unit) ≤ 2) && !s.nodeFatal c die unit &&
      !(s.mode == .m2 || (s.mode == .m3 && decide (s.boot.step < 8)))
  | .chan => dom unit != 3
  | .port => dom (8 + (unit - 0x10)) != 3
  | .cluster => dom (16 + (unit - 0x20)) != 3
  | .llc | .bridge | .cdPower | .fb | .urn | .tsv | .home | .iommu | .gk | .iodMesh | .iodPower | .flash | .regul | .root | .gh | .ww | .tb
  | .rnd | .pkg => true

/-- Whether a place is one of a channel's MEM_RANGE registers, which answer with the channel in D3 as well (R353). -/
def CtlAt.isRange (a : CtlAt) : Bool :=
  match a.target with
  | .reg r _ _ => r.id == MEM_RANGE.id
  | .sram _ _ _ | .window _ _ => false

/-- Whether a place answers, as far as power goes (R46, R268, R353, R560, R581). -/
def State.ctlOn (s : State) (a : CtlAt) : Bool :=
  if s.mode = .m1 ∧ s.retainedAt a.die a.unit a.off then true
  else
    s.headerOn a.cls a.die &&
      (isHeader a.off || a.isRange || (if isErb a.off then !s.nodeFatal a.cls a.die a.unit else s.unitOn a.cls a.die a.unit))

/-- The kiosk of a KSK_ register or SRAM word. -/
def ctlKiosk (a : CtlAt) : Option Nat :=
  let hub := fun (j : Nat) => 256 + 128 * (a.die - 8) + 16 * (a.unit - 0x20) + j
  match a.target with
  | .sram k _ _ => some k
  | .window _ _ => none
  | .reg r i _ =>
    if [KSK_CTL, KSK_STATUS, KSK_DOORBELL, KSK_CTX, KSK_CTX_FAULT, KSK_TWIN].any (fun x => x.id == r.id) then some (32 * a.die + a.unit)
    else if [KSK_CTL_H, KSK_STATUS_H, KSK_DOORBELL_H, KSK_CTX_H, KSK_CTX_FAULT_H].any (fun x => x.id == r.id) then some (hub (i.getD 0 0))
    else none

/-- The queue of a descriptor register. -/
def ctlQueue (a : CtlAt) : Option Nat :=
  match a.target with
  | .reg r i _ =>
    if [URN_QCFG, URN_QBASE, URN_QPTR, URN_QSTAT].any (fun x => x.id == r.id) then some (32768 * (a.die - 8) + i.getD 0 0) else none
  | .sram _ _ _ | .window _ _ => none

/-- Whether an access ends in bus error WORLD (R44, R300, R399, R459, R504, GH_MEXT_CTL). -/
def State.ctlWorldBar (s : State) (w : CtlWho) (a : CtlAt) (write : Bool) : Bool :=
  let ofReg := match a.target with
    | .reg r _ _ =>
      if r.id = LLC_WALLED_WAYS.id then s.part == .x1 || !w.walled
      else !w.walled && (r.walledOnly || (a.cls == .ww && !isHeader a.off && !isErb a.off) ||
        (write && s.part == .a1 && r.id == GH_MEXT_CTL.id))
    | .sram _ _ _ | .window _ _ => false
  let status := match a.target with
    | .reg r _ _ => r.id == KSK_STATUS.id || r.id == KSK_STATUS_H.id
    | .sram _ _ _ | .window _ _ => false
  let ofKiosk := match ctlKiosk a with
    | some k => !w.walled && s.kWalled k && !status
    | none => false
  let ofQueue := match ctlQueue a with
    | some q => !w.walled && s.qf q URN_QCFG URN_QCFG_WORLD != 0
    | none => false
  ofReg || ofKiosk || ofQueue

/-- R44, R45: the place of an access, or the lowest reason of Table 2-4 for which it ends in a bus error. -/
def State.ctlFind (s : State) (w : CtlWho) (off size : Nat) (write : Bool) : Except Nat CtlAt :=
  let die := off / 2 ^ 32
  let unit := off / 2 ^ 22 % 2 ^ 10
  if size ≠ 8 then .error 1
  else if off % 8 ≠ 0 then .error 2
  else
    match s.nodeCls die unit with
    | none => .error 3
    | some c =>
      match s.ctlTarget c die unit (off % 2 ^ 22) with
      | none => if s.mode = .m1 ∧ !c.slow then .error 5 else .error 4
      | some t =>
        let a : CtlAt := { die := die, unit := unit, cls := c, off := off % 2 ^ 22, target := t }
        if !s.ctlOn a then .error 5 else if s.ctlWorldBar w a write then .error 6 else .ok a

/-- Whether the root is on: it is from step 2 of Table 19-1 on (R33, R398). -/
def State.rootOn (s : State) : Bool :=
  match s.mode with
  | .m0 | .m1 => false
  | .m2 => decide (s.boot.step ≥ 3)
  | .m3 | .m4 | .m5 | .m6 | .m7 | .m8 | .m9 | .m10 | .m11 => true

/-- A bus error put into the root's record. -/
def State.busRecord (s : State) (w : CtlWho) (off : Nat) (write : Bool) (reason : Nat) : State :=
  let v := reason + w.kind * 2 ^ 8 + w.num % 2 ^ 16 * 2 ^ 16 + write.toNat * 2 ^ 32 + w.walled.toNat * 2 ^ 33 + 2 ^ 63
  let s := (s.setReg 15 0 TRL_BUSERR_INFO [] (v64 v)).setReg 15 0 TRL_BUSERR_ADDR [] (v64 (off % 2 ^ 36))
  { s with ctl := { s.ctl with busCycle := some s.trellisCycle } }

/-- Whether a bus error goes before the recorded one: it reached the root in the same Trellis cycle, with a lower key
KIND × 2^16 + INITIATOR (R56). -/
def State.busFirst (s : State) (w : CtlWho) : Bool :=
  let key := s.fld 15 0 TRL_BUSERR_INFO [] TRL_BUSERR_INFO_KIND * 2 ^ 16 + s.fld 15 0 TRL_BUSERR_INFO [] TRL_BUSERR_INFO_INITIATOR
  s.ctl.busCycle == some s.trellisCycle && decide (w.kind * 2 ^ 16 + w.num % 2 ^ 16 < key)

/-- R56, R504: a bus error recorded in the root, and an Open one with reason WORLD reported to the monitor. -/
def State.busError (s : State) (w : CtlWho) (off : Nat) (write : Bool) (reason : Nat) : State :=
  let s :=
    if !s.rootOn then s
    else if s.flag 15 0 TRL_BUSERR_INFO [] TRL_BUSERR_INFO_VALID then
      (if s.busFirst w then s.busRecord w off write reason else s).setFld 15 0 TRL_BUSERR_INFO [] TRL_BUSERR_INFO_MORE 1
    else s.busRecord w off write reason
  if reason = 6 ∧ !w.walled ∧ s.part = .a1 then
    ((s.addFld 15 2 WW_VIOL [] WW_VIOL_REG 1).setFld 15 2 WW_STATUS [] WW_STATUS_REG_VIOL 1).monPush 0x83 0 (off / 2 ^ 22) (off % 2 ^ 22)
  else s

/-! ## Values -/

/-- A field put into a register value. -/
def vput (v : BitVec 64) (f : RField) (x : Nat) : BitVec 64 := setField v f.lo f.n x

/-- The stop of a mesh register: number and epoch fields are those of the whole package. -/
def ctlStop (s : State) (die unit : Nat) (idx : List Nat) : Nat :=
  if die < 8 then (if unit = 0x040 then 40 else if unit = 0x041 then 45 else scanStop (s.scanOf (32 * die + (unit - 0x020))))
  else idx.getD 0 0 / 4 * 8 + idx.getD 0 0 % 4

/-- MESH_STATUS of a stop. -/
def State.meshStatus (s : State) (die st : Nat) : BitVec 64 :=
  v64 (s.epoch + s.injEn.toNat * 4 + (decide (s.flip = .hold)).toNat * 8 + min 255 (s.prevFlits die st) * 256)

/-- The number of granules in VALID. -/
def Chan.validCnt (c : Chan) : Nat := (c.valid.filter (fun p => p.2)).length

/-- The pins whose bits an access may not see or change (R507). -/
def State.hiddenPins (s : State) (w : CtlWho) : Nat :=
  if w.walled ∨ s.part = .x1 then 0 else s.ww WW_GPIO_WORLD WW_GPIO_WORLD_PINS

/-- The number of a mode (GH_STATUS.MODE). -/
def Mode.num (m : Mode) : Nat :=
  match m with
  | .m0 => 0 | .m1 => 1 | .m2 => 2 | .m3 => 3 | .m4 => 4 | .m5 => 5 | .m6 => 6 | .m7 => 7 | .m8 => 8 | .m9 => 9 | .m10 => 10 | .m11 => 11

/-- GH_STATUS as its live register holds it. -/
def State.ghStatus (s : State) : BitVec 64 :=
  let v := vput (vput (s.reg 15 1 GH_STATUS []) GH_STATUS_MODE s.mode.num) GH_STATUS_PART (decide (s.part = .x1)).toNat
  let v := vput (vput v GH_STATUS_DEBUG s.debugFuse.toNat) GH_STATUS_AUTO_ON s.boot.fuses.autoOn.toNat
  vput (vput v GH_STATUS_BUSY (s.boot.powerOn || s.boot.scrub).toNat) GH_STATUS_SVN s.boot.svn

/-- The value of a register of the Gatehouse. -/
def State.ghView (s : State) (w : CtlWho) (r : RegDef) (v : BitVec 64) : BitVec 64 :=
  let hide := s.hiddenPins w
  if r.id = GH_STATUS.id then s.ghStatus
  else if r.id = GH_GPIO_IN.id then v64 s.boot.gpioPins &&& ~~~ (v64 hide)
  else if r.id = GH_GPIO_DIR.id ∨ r.id = GH_GPIO_OUT.id then v &&& ~~~ (v64 hide)
  else if r.id = GH_GPIO_EDGE.id then v &&& ~~~ (v64 (hide + hide * 2 ^ 32))
  else v

/-- The value of a register of a kiosk. -/
def State.kskView (s : State) (k : Nat) (r : RegDef) (v : BitVec 64) : BitVec 64 :=
  if r.id = KSK_STATUS.id ∨ r.id = KSK_STATUS_H.id then
    let q := s.ksk k
    vput (vput v KSK_STATUS_RUNNING q.running.isSome.toNat) KSK_STATUS_HANDLER q.handler.toNat
  else if r.id = KSK_CTL_H.id then vput v KSK_CTL_SLICE 0
  else v

/-- KSK_CL_STATUS of a cluster whose first kiosk is k. -/
def State.clusterView (s : State) (k : Nat) : BitVec 64 :=
  v64 (foldN 16 (fun a j =>
    let q := s.ksk (k + j)
    a + q.running.isSome.toNat * 2 ^ j +
      (s.kStat (k + j) KSK_STATUS_DFAULT || s.kStat (k + j) KSK_STATUS_INTERR).toNat * 2 ^ (16 + j) +
      (s.kWalled (k + j)).toNat * 2 ^ (32 + j)) 0)

/-- The value of a register of an Urn half. -/
def State.urnView (s : State) (h : Nat) (r : RegDef) (v : BitVec 64) : BitVec 64 :=
  let u := s.urnHalf h
  let words := fun (t : Bool) => (u.caddy.filter (fun e => e.timed || !t)).foldl (fun (n : Nat) e => n + e.words.length) 0
  if r.id = URN_STATUS.id then vput v URN_STATUS_WAITERS (u.waiting.countP (fun w => !w.caddy))
  else if r.id = URN_CADDY.id then vput (vput v URN_CADDY_OCC (words false)) URN_CADDY_TOCC (words true)
  else v

/-- ERB_STATUS: the VALID bits of the slots; in M1 those of the retained records with LOST as 0 (R560). -/
def State.erbStatus (s : State) (die unit : Nat) (v : BitVec 64) : BitVec 64 :=
  if s.mode = .m1 then
    v64 (foldN 8 (fun a n => a + (tfind s.boot.retained (8 * nodeId die unit + n)).isSome.toNat * 2 ^ n) 0)
  else vput v ERB_STATUS_VALID (foldN 8 (fun a n => a + (s.erbValid die unit n).toNat * 2 ^ n) 0)

/-- A word of an error record as an access reads it: retained copies in M1 (R560); words 1 and 2 of a Walled record are zero for an
Open access (R585). -/
def State.erbView (s : State) (w : CtlWho) (die unit n word : Nat) : BitVec 64 :=
  let ws := if s.mode = .m1 then (tfind s.boot.retained (8 * nodeId die unit + n)).getD [0, 0, 0, 0] else s.erbWords die unit n
  (if w.walled then ws else erbHide ws).getD word 0

/-- The value that a register shows to an access, before the effects of the read. -/
def State.regView (s : State) (w : CtlWho) (a : CtlAt) (r : RegDef) (idx : List Nat) : BitVec 64 :=
  let d := a.die
  let u := a.unit
  let v := s.reg d u r idx
  let id := r.id
  if id = TRL_NODE_ID.id then v64 (nodeId d u + a.cls.slow.toNat * 2 ^ 16)
  else if id = TRL_NODE_STATUS.id then
    vput v TRL_NODE_STATUS_GUARD_ARMED (s.ctl.guard.any (fun p => p.1 / 2 ^ 22 == d * 2 ^ 10 + u)).toNat
  else if id = ERB_STATUS.id then s.erbStatus d u v
  else if id = ERB_REC0.id then s.erbView w d u (idx.getD 0 0) 0
  else if id = ERB_REC1.id then s.erbView w d u (idx.getD 0 0) 1
  else if id = ERB_REC2.id then s.erbView w d u (idx.getD 0 0) 2
  else if id = ERB_REC3.id then s.erbView w d u (idx.getD 0 0) 3
  else if id = ERB_INJ_STATUS.id then vput v ERB_INJ_STATUS_ARMED (decide (field v 0 8 ≠ 0)).toNat
  else match a.cls with
    | .tile => match ctlKiosk a with
      | some k => s.kskView k r v
      | none => v
    | .cluster =>
      if id = KSK_CL_STATUS.id then s.clusterView (256 + 128 * (d - 8) + 16 * (u - 0x20))
      else match ctlKiosk a with
        | some k => s.kskView k r v
        | none => v
    | .llc =>
      if id = LLC_VB_STATUS.id then vput v LLC_VB_STATUS_OCC (s.slice (32 * d + (u - 0x20))).vb.length
      else if id = MESH_STATUS.id then s.meshStatus d (ctlStop s d u idx)
      else v
    | .bridge =>
      if id = MESH_STATUS_B.id then s.meshStatus d (ctlStop s d u idx)
      else if id = MESH_DIE_STATUS.id then
        vput (vput v MESH_DIE_STATUS_CHECK (s.bankCrc d (if s.injEn then 1 - s.epoch % 2 else 0))) MESH_DIE_STATUS_AGREE 1
      else v
    | .iodMesh =>
      if id = MESH_STATUS_I.id then s.meshStatus d (ctlStop s d u idx)
      else if id = MESH_FLIP_CTL.id then vput v MESH_FLIP_CTL_GO (s.fld 8 0x03B MESH_FLIP_STATUS [] MESH_FLIP_STATUS_BUSY)
      else v
    | .chan =>
      let ch := 8 * (d - 8) + u
      if id = MEM_RANGE.id then s.memRange (idx.getD 0 0)
      else if id = MEM_STATUS.id then
        vput v MEM_STATUS_NO_MARGIN (s.chX8 ch && (List.range 8).any (fun q => bitOf (s.reg d u MEM_MARK []) (8 * q + 7))).toNat
      else if id = MEM_VG_STATUS.id then
        vput (vput v MEM_VG_STATUS_FILL_OCC (s.chan ch).fill.length) MEM_VG_STATUS_VALID_CNT (s.chan ch).validCnt
      else v
    | .home =>
      if id = HOME_TIMEOUT.id then s.reg 8 0x038 HOME_TIMEOUT []
      else if id = HOME_SF_STATUS.id then vput v HOME_SF_STATUS_OCC (s.home (d - 8)).sf.length
      else if id = HOME_CQ_STATUS.id then vput v HOME_CQ_STATUS_OCC (s.home (d - 8)).cq.length
      else v
    | .fb =>
      if id = FB_STATUS.id then vput v FB_STATUS_OWN_SOCKET s.socketId
      else if id = FB_ROUTE.id ∨ id = FB_SRANGE.id then s.reg 8 0x018 r idx
      else v
    | .urn => s.urnView (d - 8) r v
    | .gk => if id = GK_LIFE_STATUS.id then vput v GK_LIFE_STATUS_POH s.poh else v
    | .gh => s.ghView w r v
    | .ww =>
      if id = WW_WDOG_STATUS.id then
        vput (vput v WW_WDOG_STATUS_REMAIN_MS (if s.wdogOn then s.wdogLeft / 1000000 else 0)) WW_WDOG_STATUS_RUNNING
          (s.wdogOn && s.mode.wdogRuns).toNat
      else v
    | .tb =>
      if id = CLK_TIMEBASE.id then v64 s.time
      else if id = CLK_TS_STATUS.id then vput v CLK_TS_STATUS_MASTER (s.boot.idHeld && s.socketId == 0).toNat
      else v
    | .port | .tsv | .iommu | .cdPower | .iodPower | .flash | .regul | .root | .rnd | .pkg => v

/-- R42: the RC fields of a register cleared by a read. -/
def State.rcClear (s : State) (a : CtlAt) (r : RegDef) (idx : List Nat) : State :=
  if r.fields.any (fun f => f.acc == .rc) then
    s.setReg a.die a.unit r idx (r.fields.foldl (fun (v : BitVec 64) f => if f.acc = .rc then vput v f 0 else v) (s.reg a.die a.unit r idx))
  else s

/-- The registers with RWS or ROS fields: those of the regulator control and of the Gatehouse. -/
def slowRegs : List (Nat × Nat × RegDef) := [(10, 1, PWR_VIN_CTL), (15, 1, GH_STATUS), (15, 1, GH_FAULT)]

/-- The live value of a slow register. -/
def State.slowLive (s : State) (die unit : Nat) (r : RegDef) : BitVec 64 :=
  if r.id = GH_STATUS.id then s.ghStatus else s.reg die unit r []

/-- The values of the last 80 ns that are not the live one (R48). -/
def Shadow.stale (x : Shadow) (time : Nat) (live : BitVec 64) : List (BitVec 64) :=
  (x.last :: (x.past.filter (fun p => decide (time < p.2 + 80))).map (·.1)).filter (fun v => v != live)

/-- The value of a slow register's shadow copy: the one it keeps while the clock is stopped (R50), otherwise one that the register held in the
last 80 ns (R48). Which of them it is, is a free value. -/
def State.shadowCopy (s : State) (key : Nat) (live : BitVec 64) : BitVec 64 × State :=
  match tfind s.ctl.shadow key with
  | none => (live, s)
  | some x =>
    match x.held, x.stale s.time live with
    | some v, _ => (v, s)
    | none, [] => (live, s)
    | none, old =>
      let (n, s) := s.takeFree
      ((live :: old).getD ((Sys2Proof.Config.freeValue n).toNat % (old.length + 1)) live, s)

/-- A slow register as a read returns it: its RWS and ROS fields from the shadow copy, the others live (Table 0-4). -/
def State.shadowRead (s : State) (a : CtlAt) (r : RegDef) (v : BitVec 64) : BitVec 64 × State :=
  let (c, s) := s.shadowCopy (a.die * 2 ^ 32 + a.unit * 2 ^ 22 + a.off) v
  (r.fields.foldl (fun (v : BitVec 64) f => if f.acc = .ros ∨ f.acc = .rws then vput v f (field c f.lo f.n) else v) v, s)

/-- R50: the clock of a slow register's node is stopped: the shadow copy keeps the value that it holds. -/
def State.shadowHold (s : State) (die unit : Nat) (r : RegDef) : State :=
  let key := regKey die unit r []
  let live := s.slowLive die unit r
  let (c, s) := s.shadowCopy key live
  { s with ctl := { s.ctl with shadow := tput s.ctl.shadow key { last := live, past := [], held := some c } } }

/-- A nanosecond of a shadow copy: the present value is one that it may hold for the next 80 ns (R48). -/
def Shadow.tick (x : Shadow) (time : Nat) (live : BitVec 64) : Shadow :=
  let kept := x.past.filter (fun p => decide (time < p.2 + 80))
  { x with last := live, past := if x.last = live then kept else (x.last, time) :: kept }

/-- A nanosecond of every shadow copy (R48). Where the timebase stands, in M0 and M1, the copies are refreshed. -/
def State.shadowTick (s : State) : State :=
  let still : Bool := s.mode == .m0 || s.mode == .m1
  let shadow := slowRegs.foldl (fun (t : Tbl Shadow) x =>
    let key := regKey x.1 x.2.1 x.2.2 []
    let live := s.slowLive x.1 x.2.1 x.2.2
    match tfind t key with
    | some y => tput t key (if still then { y with last := live, past := [] } else y.tick s.time live)
    | none => tput t key { last := live, past := [], held := none }) s.ctl.shadow
  { s with ctl := { s.ctl with shadow := shadow } }

/-- A place read: value and effects. A kiosk's SRAM reads value bits (R459). -/
def State.ctlReadAt (s : State) (w : CtlWho) (a : CtlAt) : BitVec 64 × State :=
  match a.target with
  | .reg r idx comp =>
    let v := s.regView w a r idx
    if comp then (~~~ v, s)
    else s.rcClear a r idx |>.shadowRead a r v
  | .sram k data i =>
    let q := s.ksk k
    ((tget (if data then q.dsram else q.isram) Word.zero i).val, s)
  | .window rp d => ((s.cfgGet (rpRid rp) (d + 1)).setWidth 64 <<< 32 ||| (s.cfgGet (rpRid rp) d).setWidth 64, s)

/-- A control-space read: its data or the reason of its bus error. In M0 nothing answers. -/
def State.ctlRead (s : State) (w : CtlWho) (off size : Nat) : Except Nat (BitVec 64) × State :=
  match s.ctlFind w off size false with
  | .error e => (.error e, s.busError w off false e)
  | .ok a =>
    let (v, s) := s.ctlReadAt w a
    (.ok v, s)

end Sys2Proof.Machine
end

