-- ==== Sys2Proof/Machine/CtlSpace.lean ====
section
/-! DEFINITION. The control space as it is written (02_control_space.md, R40 to R55): access codes, locks, guarded pairs, what a write of
each register does, the clearing of the bus-error record and the other effects of the Trellis. -/
set_option autoImplicit false
namespace Sys2Proof.Machine

/-! ## Access codes -/

/-- R47, R55: a field after a write under its access code. -/
def fieldWrite (lock : Bool) (v : BitVec 64) (old : BitVec 64) (f : RField) : BitVec 64 :=
  let x := field v f.lo f.n
  let o := field old f.lo f.n
  match f.acc with
  | .rw | .rws => vput old f x
  | .wl => if lock then old else vput old f x
  | .w1c => vput old f (o - (o &&& x))
  | .w1s => vput old f (o ||| x)
  | .ro | .ros | .rc | .wo | .gp => old

/-- Whether a node is locked (R54). -/
def State.locked (s : State) (die unit : Nat) : Bool := s.flag die unit TRL_NODE_CTL [] TRL_NODE_CTL_LOCK

/-- A register written under the access codes of its fields. -/
def State.plainWrite (s : State) (die unit : Nat) (r : RegDef) (idx : List Nat) (v : BitVec 64) : State :=
  s.setReg die unit r idx (r.fields.foldl (fieldWrite (s.locked die unit) v) (s.reg die unit r idx))

/-- Whether a register of a node is only a copy of one written elsewhere (R353), so that its WL fields are RO there. -/
def isCopy (die unit : Nat) (r : RegDef) : Bool :=
  (r.id == MEM_RANGE.id && !(die == 8 && unit == 0)) ||
    ((r.id == FB_ROUTE.id || r.id == FB_SRANGE.id || r.id == HOME_TIMEOUT.id) && die != 8)

/-- R55: a write that targets a WL field of a locked node counted. -/
def State.lockCount (s : State) (die unit : Nat) (r : RegDef) : State :=
  if s.locked die unit && !isCopy die unit r && r.fields.any (fun f => f.acc == .wl) then s.addFld die unit TRL_NODE_STATUS [] TRL_NODE_STATUS_LOCK_VIOL 1 else s

/-- A value with a field put back to what it was when the field may not be written. -/
def keepField (ok : Bool) (old v : BitVec 64) (f : RField) : BitVec 64 := if ok then v else vput v f (field old f.lo f.n)
/-- A value with a field whose 0 is stored as 1. -/
def oneField (v : BitVec 64) (f : RField) : BitVec 64 := if field v f.lo f.n = 0 then vput v f 1 else v

/-! ## Node headers -/

/-- R50, R54: a write of TRL_NODE_CTL. SNAP has no effect in a node that is not slow. -/
def State.nodeCtlWrite (s : State) (die unit : Nat) (slow : Bool) (v : BitVec 64) : State :=
  let s := if slow && bitOf v 0 then s.setFld die unit TRL_NODE_CTL [] TRL_NODE_CTL_SNAP 1 else s
  if bitOf v 1 then s.setFld die unit TRL_NODE_CTL [] TRL_NODE_CTL_LOCK 1 else s

/-- R50: a SNAP ends: the shadow holds fresh values, or the clock is stopped, SNAP_FAIL is set, and each copy keeps its last value. -/
def State.snapDone (s : State) (die unit : Nat) (stopped : Bool) : State :=
  if !s.flag die unit TRL_NODE_CTL [] TRL_NODE_CTL_SNAP then s
  else
    let s := s.setFld die unit TRL_NODE_CTL [] TRL_NODE_CTL_SNAP 0
    if stopped then
      (slowRegs.filter (fun x => x.1 == die && x.2.1 == unit)).foldl (fun (s : State) x => s.shadowHold x.1 x.2.1 x.2.2)
        (s.setFld die unit TRL_NODE_STATUS [] TRL_NODE_STATUS_SNAP_FAIL 1)
    else { s with ctl := { s.ctl with shadow := s.ctl.shadow.filter (fun p => p.1 / 2 ^ 22 != die * 2 ^ 10 + unit) } }

/-! ## Error injection -/

/-- Table 20-4: whether a target and an action form a row for a kind of node. -/
def injRow (c : NodeCls) (target action : Nat) : Bool :=
  let flip := action == 1 || action == 2
  let mesh := (target == 9 && flip) || (target == 0xA && action == 3) || (target == 0xB && action == 4)
  match c with
  | .tile => within 1 target 7 && flip
  | .llc => ((target == 5 || target == 6 || target == 8) && flip) || mesh
  | .bridge | .iodMesh => mesh
  | .chan => target == 1 && action == 5
  | .home => (target == 1 && action == 6) || (target == 2 && flip)
  | .cdPower | .port | .fb | .cluster | .urn | .tsv | .iommu | .gk | .iodPower | .flash | .regul | .root | .gh | .ww | .tb | .rnd | .pkg =>
    false

/-- R593: a committed pair at ERB_INJ_CTL. -/
def State.injCommit (s : State) (c : NodeCls) (die unit : Nat) (v : BitVec 64) : State :=
  let v := v &&& 0xFFFF
  let count := field v 8 8
  let target := field v 0 4
  let split := c == .tile && (target == 1 || target == 2) && s.fld die unit ARB_STATUS [] ARB_STATUS_MODE == 0
  let bad := !s.flag 15 0 ERB_INJ_GLOBAL [] ERB_INJ_GLOBAL_EN || !(s.mode == .m5 || s.mode == .m8) || !injRow c target (field v 4 4) || split
  if count ≠ 0 ∧ bad then s.setFld die unit ERB_INJ_STATUS [] ERB_INJ_STATUS_REFUSED 1
  else (s.setReg die unit ERB_INJ_CTL [] v).setFld die unit ERB_INJ_STATUS [] ERB_INJ_STATUS_REMAIN count

/-! ## Guarded pairs -/

/-- A guard violation counted (R52). -/
def State.guardViol (s : State) (die unit : Nat) : State := s.addFld die unit TRL_NODE_STATUS [] TRL_NODE_STATUS_GUARD_VIOL 1

/-- A pending pair dropped. -/
def State.guardDrop (s : State) (key : Nat) : State := { s with ctl := { s.ctl with guard := terase s.ctl.guard key } }

/-- The committed value of a GP register takes effect. -/
def State.guardCommit (s : State) (a : CtlAt) (r : RegDef) (v : BitVec 64) : State :=
  if r.id = ERB_INJ_CTL.id then s.injCommit a.cls a.die a.unit v
  else if r.id = WW_WDOG_KICK.id then (s.setReg a.die a.unit r [] v).wdogKick
  else s.setReg a.die a.unit r [] v

/-- Whether two accesses come from one initiator. -/
def sameWho (a b : CtlWho) : Bool := a.kind == b.kind && a.num == b.num

/-- R51, R52, Table 2-5: a write at G (comp false) or at G + 8 (comp true). A window lasts 1,024 Trellis cycles, 2,560 ns. -/
def State.guardWrite (s : State) (w : CtlWho) (a : CtlAt) (r : RegDef) (comp : Bool) (v : BitVec 64) : State :=
  let key := a.die * 2 ^ 32 + a.unit * 2 ^ 22 + r.off
  let late := match tfind s.ctl.guard key with
    | some g => decide (s.time > g.time + 2560)
    | none => false
  let s := if late then (s.guardDrop key).guardViol a.die a.unit else s
  match tfind s.ctl.guard key, comp with
  | none, true => s.guardViol a.die a.unit
  | some g, true =>
    let s := s.guardDrop key
    if sameWho g.who w && v == ~~~ g.value then s.guardCommit a r g.value else s.guardViol a.die a.unit
  | armed, false =>
    let s := if armed.isSome then s.guardViol a.die a.unit else s
    { s with ctl := { s.ctl with guard := tput s.ctl.guard key { who := w, value := v, time := s.time } } }

/-- R52: the window of an armed pair passes. -/
def State.guardExpire (s : State) (key : Nat) : State :=
  match tfind s.ctl.guard key with
  | some _ => (s.guardDrop key).guardViol (key / 2 ^ 32) (key / 2 ^ 22 % 2 ^ 10)
  | none => s

/-! ## Registers of each kind of node -/

/-- An error record cleared by its VALID bit, with its retained copy (R560, R586). -/
def State.recordClear (s : State) (die unit n : Nat) (v : BitVec 64) : State :=
  if !bitOf v 63 then s
  else if s.mode = .m1 then { s with boot := { s.boot with retained := terase s.boot.retained (8 * nodeId die unit + n) } }
  else s.erbWrite die unit n [0, 0, 0, 0]

/-- Whether the mode lets address windows and routes be written (Table 15-4's registers): M4 and M8. -/
def Mode.maps (m : Mode) : Bool := m == .m4 || m == .m8

/-- A write of KSK_CTL (R432, R460): WORLD, then SLICE of a tile kiosk, then EN, then RESET. -/
def State.kskCtlWrite (s : State) (w : CtlWho) (k : Nat) (v : BitVec 64) : State :=
  let s := s.kWorld k (bitOf v 2) w.walled
  let s := if k < 256 ∧ within 64 (field v 4 12) 4096 then s.setKf k KSK_CTL KSK_CTL_H [] KSK_CTL_SLICE (field v 4 12) else s
  let s := s.kEnable k (bitOf v 0)
  if bitOf v 1 then s.kReset k else s

/-- A write of KSK_CTXn (R460, Table 14-1): PRIV, PC and PASID in STOPPED, then STOP, then GO. -/
def State.kskCtxWrite (s : State) (k n : Nat) (v : BitVec 64) : State :=
  let cur := fun (f : RField) => s.kf k KSK_CTX KSK_CTX_H [n] f
  let x := fun (f : RField) => field v f.lo f.n
  let set := fun (s : State) (f : RField) => s.setKf k KSK_CTX KSK_CTX_H [n] f (x f)
  let s :=
    if s.kCtxState k n = 0 then
      let s := set (set s KSK_CTX_PRIV) KSK_CTX_PC
      let q := s.ksk k
      let s := if (q.at n).pc = 4 * x KSK_CTX_PC then s else s.setKsk k (q.setPos n (KPos.at (4 * x KSK_CTX_PC)))
      if k < 256 then s else set s KSK_CTX_PASID
    else if x KSK_CTX_PRIV ≠ cur KSK_CTX_PRIV ∨ x KSK_CTX_PC ≠ cur KSK_CTX_PC ∨ (256 ≤ k ∧ x KSK_CTX_PASID ≠ cur KSK_CTX_PASID) then
      s.setKStat k KSK_STATUS_REFUSED true
    else s
  let s := if bitOf v 3 then s.kStop k n else s
  if bitOf v 2 then s.kGo k n else s

/-- A write of a word of a kiosk's SRAM (R459). -/
def State.sramWrite (s : State) (k : Nat) (data : Bool) (word : Nat) (v : BitVec 64) : State :=
  let q := s.ksk k
  if data then s.setKsk k { q with dsram := tset q.dsram Word.zero word (Word.data v), dbad := terase q.dbad word }
  else if s.kEn k then s.setKStat k KSK_STATUS_REFUSED true
  else s.setKsk k { q with isram := tset q.isram Word.zero word (Word.data v), ibad := terase q.ibad word }

/-- A KSK_ register written; none where the register is none of them. -/
def State.kskWrite (s : State) (w : CtlWho) (k : Nat) (r : RegDef) (idx : List Nat) (v : BitVec 64) : Option State :=
  let id := r.id
  let n := (if k < 256 then idx else idx.drop 1).getD 0 0
  if id = KSK_CTL.id ∨ id = KSK_CTL_H.id then some (s.kskCtlWrite w k v)
  else if id = KSK_DOORBELL.id ∨ id = KSK_DOORBELL_H.id then some (s.kDoorbell k v)
  else if id = KSK_CTX.id ∨ id = KSK_CTX_H.id then some (s.kskCtxWrite k n v)
  else none

/-- A register of a tile node. -/
def State.tileWrite (s : State) (w : CtlWho) (a : CtlAt) (r : RegDef) (idx : List Nat) (v : BitVec 64) : State :=
  let lt := 32 * a.die + a.unit
  match s.kskWrite w lt r idx v with
  | some s => s
  | none =>
    if r.id = L2_CTL.id then s.l2CtlWrite lt v
    else if r.id = L2_WAY_DIS.id then s.l2DisWrite lt v
    else if r.id = L2_LFSR.id then s.plainWrite a.die a.unit r idx (oneField v L2_LFSR_STATE)
    else s.plainWrite a.die a.unit r idx v

/-- A counter selector or probe: its WALLED field is written only by Walled accesses (R550, R557); an Open write of CNT_USEL clears it. -/
def State.cntWrite (s : State) (w : CtlWho) (a : CtlAt) (r : RegDef) (idx : List Nat) (v : BitVec 64) : State :=
  let old := s.reg a.die a.unit r idx
  if [CNT_USEL_L, CNT_USEL_H, CNT_USEL_M, CNT_USEL_U, CNT_USEL_P, CNT_USEL_F, CNT_USEL_K, CNT_USEL_I].any (fun x => x.id == r.id) then
    s.plainWrite a.die a.unit r idx (if w.walled then v else vput v CNT_USEL_WALLED 0)
  else if r.id = CNT_PRB_CTL.id ∨ r.id = CNT_PRB_CTL_I.id then
    s.plainWrite a.die a.unit r idx (keepField w.walled old v CNT_PRB_CTL_WALLED)
  else if r.id = CNT_TRC_CTL.id ∨ r.id = CNT_TRC_CTL_I.id then
    let new := vput old CNT_TRC_CTL_WRAP (field v 0 1)
    s.setReg a.die a.unit r idx (if bitOf v 1 then vput (vput new CNT_TRC_CTL_FULL 0) CNT_TRC_CTL_PTR 0 else new)
  else s.plainWrite a.die a.unit r idx v

/-- A register of an LLC node. -/
def State.llcWrite (s : State) (w : CtlWho) (a : CtlAt) (r : RegDef) (idx : List Nat) (v : BitVec 64) : State :=
  let lt := 32 * a.die + (a.unit - 0x20)
  if r.id = LLC_CTL.id then s.llcCtlWrite lt v
  else if r.id = LLC_WAY_DIS.id then s.llcDisWrite lt v
  else if r.id = LLC_WALLED_WAYS.id then s.maskWrite lt v
  else if r.id = LLC_LFSR.id then s.plainWrite a.die a.unit r idx (oneField v LLC_LFSR_STATE)
  else s.cntWrite w a r idx v

/-- A register of a bridge node (R390). -/
def State.bridgeWrite (s : State) (w : CtlWho) (a : CtlAt) (r : RegDef) (idx : List Nat) (v : BitVec 64) : State :=
  if r.id = MESH_ROUTE.id ∨ r.id = MESH_TILEMAP.id then s.writeBank a.die (idx.getD 0 0) r idx v
  else s.cntWrite w a r idx v

/-- A register of an I/O die's fabric node (R391). -/
def State.iodMeshWrite (s : State) (w : CtlWho) (a : CtlAt) (r : RegDef) (idx : List Nat) (v : BitVec 64) : State :=
  if r.id = MESH_FLIP_CTL.id then
    let s := s.plainWrite a.die a.unit r idx (oneField (vput v MESH_FLIP_CTL_GO 0) MESH_FLIP_CTL_TIMEOUT_US)
    if bitOf v 0 then s.flipGo else s
  else s.cntWrite w a r idx v

/-- A register of a memory channel. -/
def State.chanRegWrite (s : State) (w : CtlWho) (a : CtlAt) (r : RegDef) (idx : List Nat) (v : BitVec 64) : State :=
  let ch := 8 * (a.die - 8) + a.unit
  if r.id = MEM_RANGE.id then
    if ch ≠ 0 ∨ s.locked 8 0 then s else s.memRangeWrite (idx.getD 0 0) v
  else if r.id = MEM_MARK.id then s.markWrite ch v
  else if r.id = MEM_THRESH.id then s.plainWrite a.die a.unit r idx (oneField (oneField v MEM_THRESH_DEV_CE) MEM_THRESH_RANK_CE)
  else if r.id = MEM_ERRLOG.id then if bitOf v 63 then s.setReg a.die a.unit r idx 0 else s
  else s.cntWrite w a r idx v

/-- A register of a home. -/
def State.homeRegWrite (s : State) (w : CtlWho) (a : CtlAt) (r : RegDef) (idx : List Nat) (v : BitVec 64) : State :=
  if r.id = HOME_TIMEOUT.id then
    if a.die ≠ 8 ∨ s.locked 8 0x038 then s
    else if within 100 (field v 0 20) 1000000 then s.plainWrite a.die a.unit r idx v
    else s.setFld 8 0x038 HOME_STATUS [] HOME_STATUS_REFUSED 1
  else if r.id = HOME_TO_LOG.id then if bitOf v 63 then s.setReg a.die a.unit r idx 0 else s
  else if r.id = HOME_LFSR.id then s.plainWrite a.die a.unit r idx (oneField v HOME_LFSR_STATE)
  else s.cntWrite w a r idx v

/-- A register of a Urn half (R399 to R402): the descriptors of system queues belong to the Gatehouse. -/
def State.urnWrite (s : State) (w : CtlWho) (a : CtlAt) (r : RegDef) (idx : List Nat) (v : BitVec 64) : State :=
  let q := 32768 * (a.die - 8) + idx.getD 0 0
  let mine := w.kind == 4 || !qSystem q
  if r.id = URN_QCFG.id then if mine then s.writeQcfg q v w.walled else s
  else if r.id = URN_QBASE.id then if mine then s.writeQbase q v else s
  else if r.id = URN_QSTAT.id then if mine then s.plainWrite a.die a.unit r idx v else s
  else if r.id = URN_CTL.id then if within 10 (field v 0 20) 100000 then s.plainWrite a.die a.unit r idx v else s
  else s.cntWrite w a r idx v

/-- A register of the timed service (R422, R427). -/
def State.tsvWrite (s : State) (w : CtlWho) (a : CtlAt) (r : RegDef) (idx : List Nat) (v : BitVec 64) : State :=
  let busy := s.flag 8 0x031 TSV_STATUS [] TSV_STATUS_BUSY
  if r.id = TSV_REQ0.id ∨ r.id = TSV_REQ1.id then if busy then s else s.plainWrite a.die a.unit r idx v
  else if r.id = TSV_CMD.id then
    if busy then s
    else
      let s := s.setFld a.die a.unit r idx TSV_CMD_NUM (field v 8 6)
      let pl3 := w.kind == 4 || (w.kind == 1 && (s.core w.num).pl == 3)
      let s := if bitOf v 0 then s.admitContract w.walled pl3 else s
      if bitOf v 1 then s.tsvWithdraw (field v 8 6) else s
  else s.plainWrite a.die a.unit r idx v

/-- A register of a hub kiosk cluster. -/
def State.clusterWrite (s : State) (w : CtlWho) (a : CtlAt) (r : RegDef) (idx : List Nat) (v : BitVec 64) : State :=
  let lo := 128 * (a.die - 8) + 16 * (a.unit - 0x20)
  match s.kskWrite w (256 + lo + idx.getD 0 0) r idx v with
  | some s => s
  | none =>
    if r.id = KSK_CL_CTL.id then
      let bound := s.admitted.any (fun n =>
        match s.contractDest (s.cf n TSV_CCFG TSV_CCFG_QUEUE) with
        | some (k, i) => k == 2 && within lo i (lo + 15)
        | none => false)
      if bound ∨ !within 64 (field v 0 12) 4096 then s else s.plainWrite a.die a.unit r idx v
    else s.cntWrite w a r idx v

/-- An IOM_ write discarded. -/
def State.iomRefuse (s : State) (die : Nat) : State := s.setFld die 0x039 IOM_STATUS [] IOM_STATUS_REFUSED 1

/-- A register of an IOMMU (R480, R483, Table 15-4). -/
def State.iommuWrite (s : State) (a : CtlAt) (r : RegDef) (idx : List Nat) (v : BitVec 64) : State :=
  let i := a.die - 8
  if r.id = IOM_CTL.id then s.plainWrite a.die a.unit r idx (oneField v IOM_CTL_ATS_TO_MS)
  else if r.id = IOM_APERTURE.id then if s.mode.maps then s.plainWrite a.die a.unit r idx v else s.iomRefuse a.die
  else if r.id = IOM_CXLWIN.id then
    let rp := 20 * i + 4 * field v 45 3 + field v 48 2
    if s.mode.maps ∧ field v 45 3 < 5 ∧ s.rpCxl rp then s.plainWrite a.die a.unit r idx v else s.iomRefuse a.die
  else if r.id = IOM_INV.id then
    if s.flag a.die a.unit r idx IOM_INV_GO then s.iomRefuse a.die
    else
      let s := s.plainWrite a.die a.unit r idx (vput v IOM_INV_GO 0)
      if bitOf v 3 then s.invStart i else s
  else if r.id = IOM_PWIN_CTL.id then
    let s := s.plainWrite a.die a.unit r idx (vput v IOM_PWIN_CTL_COMMIT 0)
    if bitOf v 0 then s.pwinCommit i else s
  else if r.id = IOM_PWIN_BASE.id ∨ r.id = IOM_PWIN_LIM.id ∨ r.id = IOM_PWIN_SRC.id then
    if idx.getD 0 0 = s.fld a.die a.unit IOM_PWIN_CTL [] IOM_PWIN_CTL_ACTIVE then
      s.setFld a.die a.unit IOM_PWIN_CTL [] IOM_PWIN_CTL_REFUSED 1
    else s.plainWrite a.die a.unit r idx v
  else s.plainWrite a.die a.unit r idx v

/-- A register of a Footbridge link: routes and ranges are written in the first link node of IOD0, in M4 and M8. -/
def State.fbWrite (s : State) (w : CtlWho) (a : CtlAt) (r : RegDef) (idx : List Nat) (v : BitVec 64) : State :=
  if r.id = FB_ROUTE.id ∨ r.id = FB_SRANGE.id then
    if a.die ≠ 8 then s
    else if s.mode.maps then s.plainWrite a.die a.unit r idx v
    else s.setFld 8 0x018 FB_STATUS [] FB_STATUS_REFUSED 1
  else s.cntWrite w a r idx v

/-- A register of the Groundskeeper. -/
def State.gkWrite (s : State) (a : CtlAt) (r : RegDef) (idx : List Nat) (v : BitVec 64) : State :=
  let old := s.reg a.die a.unit r idx
  if r.id = GK_SCRUB_CTL.id then s.scrubCtlWrite a.die v
  else if r.id = GK_CAL_CTL.id then s.calCtlWrite a.die v
  else if r.id = GK_AGE_CTL.id then
    s.plainWrite a.die a.unit r idx (keepField (within 10 (field v 16 11) 1440) old v GK_AGE_CTL_PERIOD_MIN)
  else if r.id = GK_WEAR_CTL.id then
    let s := s.plainWrite a.die a.unit r idx (keepField (within 100 (field v 0 16) 3600) old v GK_WEAR_CTL_RATE)
    if bitOf (s.reg a.die a.unit r idx) 16 = bitOf old 16 then s
    else foldN 128 (fun (s : State) t => s.regrant (128 * (a.die - 8) + t)) s
  else if r.id = GK_RETIRE_CMD.id then s.retireWrite v
  else s.plainWrite a.die a.unit r idx v

/-- A register of a power node: domain controls, votes, levels and clocks. -/
def State.powerWrite (s : State) (w : CtlWho) (a : CtlAt) (r : RegDef) (idx : List Nat) (v : BitVec 64) : State :=
  let k := idx.getD 0 0
  let dom := if a.die < 8 then 0x40 * a.die + k else 0x200 + 0x40 * (a.die - 8) + k
  if r.id = PWR_DOM_CTL.id ∨ r.id = PWR_DOM_CTL_I.id then s.domCtlWrite w dom v
  else if r.id = PWR_DOM_VOTE.id ∨ r.id = PWR_DOM_VOTE_I.id then s.domVoteWrite w dom v
  else if r.id = PWR_TILE_PERF.id then s.perfWrite (32 * a.die + k) v
  else if r.id = CLK_CD.id ∨ r.id = CLK_IOD.id then s.clockWrite a.die v
  else if r.id = CLK_REFOUT.id then foldN 20 (fun (s : State) k => s.refApply (20 * (a.die - 8) + k)) (s.plainWrite a.die a.unit r idx v)
  else s.plainWrite a.die a.unit r idx v

/-- PWR_VIN_CTL: a write with any field out of range is discarded. -/
def State.vinCtlWrite (s : State) (v : BitVec 64) : State :=
  let slew := field v 0 8
  if within 5 slew 40 ∧ within slew (field v 8 8) 80 ∧ within 60 (field v 16 8) 150 then s.plainWrite 10 1 PWR_VIN_CTL [] v else s

/-- A register of the package power node. -/
def State.pkgWrite (s : State) (w : CtlWho) (a : CtlAt) (r : RegDef) (idx : List Nat) (v : BitVec 64) : State :=
  if r.id = PWR_PKG_CTL.id then s.pkgCtlWrite w v
  else if r.id = PWR_GOV_EXEMPT.id then
    let n := foldN 4 (fun (n : Nat) j =>
      let x := if j = idx.getD 0 0 then v else s.reg 15 5 PWR_GOV_EXEMPT [j]
      n + ((List.range 64).filter (fun b => bitOf x b)).length) 0
    if n > 32 then s.setFld 15 5 PWR_PKG_STATUS [] PWR_PKG_STATUS_REFUSED 1 else s.plainWrite a.die a.unit r idx v
  else s.plainWrite a.die a.unit r idx v

/-- A register of the Gatehouse (R507, R567, R578). -/
def State.ghWrite (s : State) (w : CtlWho) (a : CtlAt) (r : RegDef) (idx : List Nat) (v : BitVec 64) : State :=
  let old := s.reg a.die a.unit r idx
  let masked := fun (hide : Nat) => (old &&& v64 hide) ||| (v &&& ~~~ (v64 hide))
  let hide := s.hiddenPins w
  if r.id = GH_CMD.id then s.ghCmd (some w) (field v 0 8)
  else if r.id = GH_MEXT_CTL.id then
    let slot := field v 0 4
    let s := s.setFld 15 1 GH_MEXT_CTL [] GH_MEXT_CTL_SLOT slot
    if bitOf v 4 ∧ 8 ≤ slot then
      s.measExtend slot ((List.range 48).map (fun i => field (s.reg 15 1 GH_MEXT_D [i / 8]) (8 * (i % 8)) 8))
    else s
  else if r.id = GH_GPIO_DIR.id ∨ r.id = GH_GPIO_OUT.id then s.plainWrite a.die a.unit r idx (masked hide)
  else if r.id = GH_GPIO_EDGE.id then s.plainWrite a.die a.unit r idx (masked (hide + hide * 2 ^ 32))
  else s.plainWrite a.die a.unit r idx v

/-- A register of the Walled-world node. -/
def State.wwWrite (s : State) (a : CtlAt) (r : RegDef) (idx : List Nat) (v : BitVec 64) : State :=
  if r.id = WW_CTL.id then s.wwCtlWrite v
  else if r.id = WW_RANGE.id then s.wwRangeWrite (idx.getD 0 0) v
  else if r.id = WW_WDOG_CTL.id then s.wdogCtlWrite v
  else s.plainWrite a.die a.unit r idx v

/-- A register of the root: the bus-error record is cleared by its VALID bit (R56). -/
def State.rootWrite (s : State) (a : CtlAt) (r : RegDef) (idx : List Nat) (v : BitVec 64) : State :=
  if r.id = TRL_BUSERR_INFO.id ∧ bitOf v 63 then (s.setReg 15 0 TRL_BUSERR_INFO [] 0).setReg 15 0 TRL_BUSERR_ADDR [] 0
  else s.plainWrite a.die a.unit r idx v

/-- A register of the counter-round node (R551, R559). -/
def State.rndWrite (s : State) (w : CtlWho) (a : CtlAt) (r : RegDef) (idx : List Nat) (v : BitVec 64) : State :=
  if r.id = CNT_RND_CTL.id then s.rndCtlWrite v
  else if r.id = CNT_RND_START.id then s.rndSetup r v
  else if r.id = CNT_RND_BASE.id then s.rndSetup r (v &&& 0xFFFFFFFFE0000)
  else if r.id = CNT_ISEL.id then
    (s.plainWrite a.die a.unit r idx (keepField w.walled (s.reg a.die a.unit r idx) v CNT_ISEL_WALLED)).iselClear (idx.getD 0 0)
  else s.plainWrite a.die a.unit r idx v

/-- A register written: the header and ERB block alike in every node, the others by the kind of node. -/
def State.regWrite (s : State) (w : CtlWho) (a : CtlAt) (r : RegDef) (idx : List Nat) (comp : Bool) (v : BitVec 64) : State :=
  let s := s.lockCount a.die a.unit r
  let id := r.id
  if r.fields.any (fun f => f.acc == .gp) then s.guardWrite w a r comp v
  else if id = TRL_NODE_CTL.id then s.nodeCtlWrite a.die a.unit a.cls.slow v
  else if id = ERB_REC0.id then s.recordClear a.die a.unit (idx.getD 0 0) v
  else if id = ERB_THRESH.id then s.plainWrite a.die a.unit r idx (oneField v ERB_THRESH_CE)
  else if id = ERB_INJ_PARAM.id then
    let v := if field v 0 7 > 71 then vput v ERB_INJ_PARAM_BIT 71 else v
    s.plainWrite a.die a.unit r idx (oneField (oneField v ERB_INJ_PARAM_SYMBOLS) ERB_INJ_PARAM_CYCLES)
  else match a.cls with
    | .tile => s.tileWrite w a r idx v
    | .llc => s.llcWrite w a r idx v
    | .bridge => s.bridgeWrite w a r idx v
    | .iodMesh => s.iodMeshWrite w a r idx v
    | .chan => s.chanRegWrite w a r idx v
    | .home => s.homeRegWrite w a r idx v
    | .urn => s.urnWrite w a r idx v
    | .tsv => s.tsvWrite w a r idx v
    | .cluster => s.clusterWrite w a r idx v
    | .iommu => s.iommuWrite a r idx v
    | .fb => s.fbWrite w a r idx v
    | .gk => s.gkWrite a r idx v
    | .cdPower | .iodPower => s.powerWrite w a r idx v
    | .regul => if id = PWR_VIN_CTL.id then s.vinCtlWrite v else s.plainWrite a.die a.unit r idx v
    | .pkg => s.pkgWrite w a r idx v
    | .gh => s.ghWrite w a r idx v
    | .ww => s.wwWrite a r idx v
    | .root => s.rootWrite a r idx v
    | .rnd => s.rndWrite w a r idx v
    | .port => s.cntWrite w a r idx v
    | .flash | .tb => s.plainWrite a.die a.unit r idx v

/-- A place written. -/
def State.ctlWriteAt (s : State) (w : CtlWho) (a : CtlAt) (v : BitVec 64) : State :=
  match a.target with
  | .reg r idx comp => s.regWrite w a r idx comp v
  | .sram k data i => s.sramWrite k data i v
  | .window rp d =>
    (s.cfgWrite (rpRid rp) d (v.setWidth 32) 15 w.walled).cfgWrite (rpRid rp) (d + 1) ((v >>> 32).setWidth 32) 15 w.walled

/-- A control-space write: 0, or the reason of its bus error. -/
def State.ctlWrite (s : State) (w : CtlWho) (off size : Nat) (v : BitVec 64) : Nat × State :=
  match s.ctlFind w off size true with
  | .error e => (e, s.busError w off true e)
  | .ok a => (0, s.ctlWriteAt w a v)

/-! ## Accesses as commands -/

/-- R45: the reason reported of an access that the Trellis fails with a reason of its own: the lowest that applies. -/
def State.lowReason (s : State) (w : CtlWho) (off size : Nat) (write : Bool) (own : Nat) : Nat :=
  match s.ctlFind w off size write with
  | .error e => min e own
  | .ok _ => own

/-- An access and its completion. `crc` is 0, or 1 for a request that failed its CRC at the target three times, or 2 for a completion that
failed it at the initiator (R397). In M0 nothing answers. -/
def State.ctlAccess (s : State) (w : CtlWho) (off size : Nat) (write : Option (BitVec 64)) (crc : Nat) : State :=
  if s.mode = .m0 then s
  else if crc = 1 then
    let e := s.lowReason w off size write.isSome 8
    (s.busError w off write.isSome e).emit (.ctl w e 0)
  else
    let (reason, data, s) := match write with
      | some v => let (e, s) := s.ctlWrite w off size v; (e, (0 : BitVec 64), s)
      | none => match s.ctlRead w off size with
        | (.ok v, s) => (0, v, s)
        | (.error e, s) => (e, 0, s)
    if crc = 2 ∧ reason = 0 then (s.busError w off write.isSome 8).emit (.ctl w 8 0) else s.emit (.ctl w reason data)

/-- A write to a register of a node given by die, unit and offset. -/
def State.ctlPut (s : State) (w : CtlWho) (die unit : Nat) (r : RegDef) (idx : List Nat) (v : BitVec 64) : State :=
  s.ctlAccess w (regKey die unit r idx) 8 (some v) 0

/-- R44, R45: no completion within 65,536 Trellis cycles. The command names an access of 8 bytes. -/
def State.trellisTimeout (s : State) (w : CtlWho) (off : Nat) (write : Bool) : State :=
  if s.mode = .m0 then s
  else
    let e := s.lowReason w off 8 write 7
    (s.busError w off write e).emit (.ctl w e 0)

/-- R397, R584: a beat replayed from a hop; the third failed replay fails the link, which is fatal (Table 20-3). -/
def State.trellisReplay (s : State) (die unit fails : Nat) : State :=
  if s.mode = .m0 ∨ s.mode = .m1 then s
  else
    let s := s.errCorrected die unit 0 0
    if fails ≥ 3 then s.fatal die unit 0x4 0 0 else s

/-- The nodes of a kind. -/
def State.nodesOf (s : State) (c : NodeCls) : List (Nat × Nat) :=
  ((List.range 16).flatMap (fun d => (List.range 0x51).map (fun u => (d, u)))).filter (fun p => s.nodeCls p.1 p.2 == some c)

/-- R395, R396: a root broadcast: a register written in every node of the kind of a node, and complete when every one has answered. The copies land in
the Trellis interfaces; what the model holds once (R353) is written in its one home. -/
def State.broadcast (s : State) (die unit off : Nat) (v : BitVec 64) : State :=
  if s.mode = .m0 ∨ s.mode = .m1 then s
  else
    match s.nodeCls die unit with
    | none => s
    | some c =>
      let w : CtlWho := { kind := 4, num := 0, walled := true }
      let s := (s.nodesOf c).foldl (fun (s : State) p =>
        match s.ctlTarget c p.1 p.2 off with
        | some t => s.ctlWriteAt w { die := p.1, unit := p.2, cls := c, off := off, target := t } v
        | none => s) s
      s.emit (.ctl w 0 0)

end Sys2Proof.Machine
end

