-- ==== Sys2Proof/Machine/IoPath.lean ====
section
/-! DEFINITION. The path of an access to I/O: MMIO, ECAM, MSI window and control space as cores and kiosks reach them (R467, R468, R474,
R466), and inbound requests of devices from the IOMMU to memory, the Urn, an interrupt queue or a peer (R477, R478, R482). -/
set_option autoImplicit false
namespace Sys2Proof.Machine

/-! ## Accesses of cores and kiosks -/

/-- The outcome of a device access: its value, the reason of a bus error, or nothing yet. -/
inductive DevRes where
  | ok (v : BitVec 64)
  | bus (reason : Nat)
  | wait
  deriving DecidableEq, Repr

/-- Every bit 1 in an access of a size. -/
def allOnes (size : Nat) : BitVec 64 := v64 (2 ^ (8 * size) - 1)

/-- The control-space offset that a cluster's BAR0 maps (R459). -/
def clusterOff (c off : Nat) : Nat := (8 + c / 8) * 2 ^ 32 + (0x20 + c % 8) * 2 ^ 22 + off

/-- Bytes [k, k + size) of a dword register as an access reads them. -/
def dwordPart (v : BitVec 32) (k size : Nat) : BitVec 64 := v64 (v.toNat / 2 ^ (8 * k) % 2 ^ (8 * size))

/-- A part of at most 8 bytes of a space of dwords. -/
def dwordsRead (get : Nat → BitVec 32) (off size : Nat) : BitVec 64 :=
  if size ≤ 4 then dwordPart (get (off / 4)) (off % 4) size
  else v64 ((get (off / 4)).toNat + (get (off / 4 + 1)).toNat * 2 ^ 32)

/-- A part of a dword replaced. -/
def dwordMerge (old : BitVec 32) (k size : Nat) (v : BitVec 64) : BitVec 32 :=
  (setField (old.setWidth 64) (8 * k) (8 * size) v.toNat).setWidth 32

/-- A write of at most 8 bytes to a space of dwords: the lower dword first. -/
def dwordsWrite (s : State) (get : State → Nat → BitVec 32) (put : State → Nat → BitVec 32 → State) (off size : Nat) (v : BitVec 64) : State :=
  if size ≤ 4 then put s (off / 4) (dwordMerge (get s (off / 4)) (off % 4) size v)
  else
    let s := put s (off / 4) (v.setWidth 32)
    put s (off / 4 + 1) ((v >>> 32).setWidth 32)

/-- R465, R466: an ECAM read. -/
def State.ecamRead (s : State) (ask : IoAsk) (off size : Nat) : DevRes × State :=
  let rid := off / 4096 % 65536
  let d := off % 4096 / 4
  match s.cfgTarget rid with
  | .below rp =>
    match s.mmioAsk ask rp (rid * 4096 + off % 4096) size true with
    | (some v, s) => (.ok v, s)
    | (none, s) => (.wait, s)
  | .fn => (.ok (if size ≤ 4 then dwordPart (s.cfgGet rid d) (off % 4) size
      else v64 ((s.cfgGet rid d).toNat + (s.cfgGet rid (d + 1)).toNat * 2 ^ 32)), s)
  | .absent => (.ok (allOnes size), s)

/-- An ECAM write: a configuration write with the byte enables of the access, two where it is 8 bytes wide. -/
def State.ecamWrite (s : State) (off size : Nat) (v : BitVec 64) (walled : Bool) : State :=
  let rid := off / 4096 % 65536
  let d := off % 4096 / 4
  if size ≤ 4 then
    s.cfgWrite rid d (BitVec.ofNat 32 (v.toNat % 2 ^ (8 * size) * 2 ^ (8 * (off % 4)))) ((2 ^ size - 1) * 2 ^ (off % 4)) walled
  else
    (s.cfgWrite rid d (v.setWidth 32) 15 walled).cfgWrite rid (d + 1) ((v >>> 32).setWidth 32) 15 walled

/-- The function and page offset of an MSI-X table or PBA that an access of a claimed address names. -/
def Claim.msixPlace (c : Claim) : Option (Nat × Nat) :=
  match c with
  | .clusterMsix c off => some (clRid c, off)
  | .pfMsix i off => some (pfRid i, off)
  | .rootBar rp off => some (rpRid rp, off)
  | .vf i v off => if off ≥ 0x800 then some (vfRid i v, off) else Option.none
  | .below _ | .cluster _ _ | .pfBell _ _ | .none => Option.none

/-- The half whose doorbell page a claimed address lies in. -/
def Claim.bellHalf (c : Claim) : Option Nat :=
  match c with
  | .pfBell i _ => some i
  | .vf i _ _ => some i
  | .below _ | .cluster _ _ | .clusterMsix _ _ | .pfMsix _ _ | .rootBar _ _ | .none => Option.none

/-- An MMIO read of an address that a root port or function may claim (R467, R468, R474). -/
def State.mmioRead (s : State) (w : CtlWho) (ask : IoAsk) (i pa size : Nat) : DevRes × State :=
  match s.claimOf pa with
  | .below rp =>
    match s.mmioAsk ask rp pa size false with
    | (some v, s) => (.ok (v &&& allOnes size), s)
    | (none, s) => (.wait, s)
  | .cluster c off =>
    match s.ctlRead w (clusterOff c off) size with
    | (.ok v, s) => (.ok v, s)
    | (.error r, s) => (.bus r, s)
  | .none => (.ok (allOnes size), s.unclaimed i)
  | c =>
    match c.msixPlace with
    | some (rid, off) => (.ok (dwordsRead (fun d => BitVec.ofNat 32 (s.msixWord rid d)) off size), s)
    | none => (.ok 0, s)

/-- An MMIO write: 0, or the reason of its bus error. Only a request through a root port pushes at a doorbell (R474). -/
def State.mmioWrite (s : State) (w : CtlWho) (i pa size : Nat) (v : BitVec 64) : Nat × State :=
  match s.claimOf pa with
  | .below rp => (0, (s.emit (.portWrite rp pa size v false)).portTlp rp true size)
  | .cluster c off => s.ctlWrite w (clusterOff c off) size v
  | .none => (0, s.unclaimed i)
  | c =>
    match c.msixPlace with
    | some (rid, off) => (0, dwordsWrite s (fun s d => BitVec.ofNat 32 (s.msixWord rid d)) (fun s d x => s.msixPut rid d x) off size v)
    | none =>
      match c.bellHalf with
      | some h => (0, s.dbDrop h)
      | none => (0, s)

/-! ## Inbound requests -/

/-- A number of which bytes [8k, 8k + 8) are the k-th piece. -/
def packNat (ds : List (BitVec 64)) : Nat := ds.foldr (fun d n => d.toNat + n * 2 ^ 64) 0
/-- The pieces of a number of a length in bytes. -/
def unpackNat (n size : Nat) : List (BitVec 64) := (List.range ((size + 7) / 8)).map (fun k => v64 (n / 2 ^ (64 * k) % 2 ^ 64))

/-- The line numbers that bytes [pa, pa + size) touch. -/
def linesOf (pa size : Nat) : List Nat := (List.range ((pa + size - 1) / 128 + 1 - pa / 128)).map (fun k => pa / 128 + k)

/-- The bytes of a request that lie in a line, as data words and a byte mask (R84). -/
def lineSlice (pa size line : Nat) (ds : List (BitVec 64)) : List Word × Nat :=
  let place := fun (n : Nat) (unit : Nat) =>
    (if pa ≥ 128 * line then n * 2 ^ (unit * (pa - 128 * line)) else n / 2 ^ (unit * (128 * line - pa))) % 2 ^ (unit * 128)
  let bytes := place (packNat ds % 2 ^ (8 * size)) 8
  ((unpackNat bytes 128).map Word.data, place (2 ^ size - 1) 1)

/-- R467: a read of device memory by a core or kiosk (tag 0x00 throughout, R43, R85). -/
def State.devRead (s : State) (w : CtlWho) (ask : IoAsk) (pa size : Nat) : DevRes × State :=
  match s.classify pa with
  | .control off =>
    match s.ctlRead w off size with
    | (.ok v, s) => (.ok v, s)
    | (.error r, s) => (.bus r, s)
  | .ecam off => s.ecamRead ask off size
  | .mmio i => s.mmioRead w ask i pa size
  | .msi off => (.ok (allOnes size), s.unclaimed (off / 4096 / 256))
  | .cxl _ _ | .dram _ _ _ | .remote _ | .unmapped =>
    match s.ncRead (devAgent w) (pa / 128) w.walled with
    | (none, s) => (.wait, s)
    | (some ws, s) => (.ok (v64 (packNat (ws.map (fun x => x.val)) / 2 ^ (8 * (pa % 128)) % 2 ^ (8 * size))), s)

/-- A write of device memory by a core or kiosk: 0, or the reason of its bus error. -/
def State.devWrite (s : State) (w : CtlWho) (pa size : Nat) (v : BitVec 64) : Nat × State :=
  match s.classify pa with
  | .control off => s.ctlWrite w off size v
  | .ecam off => (0, s.ecamWrite off size v w.walled)
  | .mmio i => s.mmioWrite w i pa size v
  | .msi off => (0, s.unclaimed (off / 4096 / 256))
  | .cxl _ _ | .dram _ _ _ | .remote _ | .unmapped =>
    let x := lineSlice pa size (pa / 128) [v]
    (0, s.ncWrite (devAgent w) (pa / 128) x.1 x.2 w.walled)

/-- The agent number of an x16 port: five to a die, from 520 on. -/
def portAgent (rp : Nat) : Agent := .nca (520 + rp / 4)

/-- The completion of a read: status 0 Successful, 1 Unsupported Request, 2 Completer Abort. -/
def State.tlpAnswer (s : State) (t : Tlp) (status : Nat) (data : List (BitVec 64)) (bad : Bool) : State :=
  (s.emit (.tlpCompletion t.rid status data bad)).portTlp t.rp true (8 * data.length)

/-- An event of a root port logged in AER and signalled by its vector 1 (R468, R470). -/
def State.rpAer (s : State) (rp bit : Nat) : State := (s.aerLog (rpRid rp) bit).msixSend (rpRid rp) 1

/-- Max Payload Size in bytes (Table 15-2). -/
def maxPayload : Nat := 512

/-- The completions of a read by address and length: each ends where the read does or at a multiple of Max Payload Size (DESIGN CHOICE,
entry 98). -/
def tlpPieces (addr size : Nat) : List (Nat × Nat) :=
  (List.range ((addr + size - 1) / maxPayload + 1 - addr / maxPayload)).map (fun k =>
    let b := addr / maxPayload + k
    let lo := max addr (maxPayload * b)
    (lo, min (addr + size) (maxPayload * (b + 1)) - lo))

/-- A read of memory answered with its bytes as a number, completion by completion (R83): one that carries poison is a poisoned TLP and is
logged in AER. -/
def State.tlpReads (s : State) (t : Tlp) (n : Nat) (bad : Nat → Nat → Bool) : State :=
  (tlpPieces t.addr t.size).foldl (fun (s : State) p =>
    let data := unpackNat (n / 2 ^ (8 * (p.1 - t.addr)) % 2 ^ (8 * p.2)) p.2
    if bad (p.1 - t.addr) p.2 then (s.tlpAnswer t 0 data true).rpAer t.rp 12 else s.tlpAnswer t 0 data false) s

/-- R477: a request refused: a read completes with Unsupported Request. -/
def State.tlpRefuse (s : State) (t : Tlp) (integrity : Bool) : State :=
  let s := s.iomFault (t.rp / 20) t.rid integrity
  if t.write then s else s.tlpAnswer t 1 [] false

/-- A request that waits. -/
def State.tlpWait (s : State) (q : InReq) : State := { s with io := { s.io with reads := s.io.reads ++ [q] } }

/-- R83: a read of memory at pa answered from the words of its lines. -/
def State.tlpWords (s : State) (t : Tlp) (pa : Nat) (ws : List Word) : State :=
  let at' := pa % 128
  let bad := fun (off len : Nat) =>
    (List.range ((at' + off + len - 1) / 8 + 1 - (at' + off) / 8)).any (fun k => (ws.getD ((at' + off) / 8 + k) Word.zero).isPoison)
  s.tlpReads t (packNat (ws.map (fun w => w.val)) / 2 ^ (8 * at') % 2 ^ (8 * t.size)) bad

/-- The lines that a request to memory at pa has left, one after another: a write goes on with the Cmp of each, so that its bytes and
those of later writes become visible in their order (R469); a read is answered once it has all its words. -/
def State.tlpLines (s : State) (q : InReq) (pa : Nat) (walled : Bool) (ls : List Nat) : State :=
  match ls with
  | [] => if q.t.write then s else s.tlpWords q.t pa q.words
  | l :: rest =>
    if q.t.write then
      let x := lineSlice pa q.t.size l q.t.data
      match s.ncPut (portAgent q.t.rp) l x.1 x.2 walled with
      | (true, s) => s.tlpLines { q with lines := q.lines + 1 } pa walled rest
      | (false, s) => s.tlpWait q
    else
      match s.ncRead (portAgent q.t.rp) l walled with
      | (some ws, s) => s.tlpLines { q with lines := q.lines + 1, words := q.words ++ ws } pa walled rest
      | (none, s) => s.tlpWait q

/-- An inbound request to normal memory (R83, R84, R478). -/
def State.tlpMemory (s : State) (q : InReq) (pa : Nat) (walled : Bool) : State :=
  if !walled && s.walledMem pa then (s.rangeViol 1 q.t.rid pa).tlpRefuse q.t false
  else s.tlpLines { q with dest := some (pa, walled) } pa walled (linesOf pa q.t.size)

/-- The outcome of a request to a cluster's BAR0: whether every 8-byte part was performed, and what reads gave. -/
def State.clusterParts (s : State) (w : CtlWho) (c off : Nat) (write : Option (List (BitVec 64))) (n : Nat) : Bool × List (BitVec 64) × State :=
  foldN n (fun (r : Bool × List (BitVec 64) × State) k =>
    let at8 := clusterOff c (off + 8 * k)
    match write with
    | some ds =>
      let x := r.2.2.ctlWrite w at8 8 (ds.getD k 0)
      (r.1 && x.1 == 0, r.2.1, x.2)
    | none =>
      match r.2.2.ctlRead w at8 8 with
      | (.ok v, s) => (r.1, r.2.1 ++ [v], s)
      | (.error _, s) => (false, r.2.1 ++ [0], s)) (true, [], s)

/-- R482: a peer request sent to the target of a window: below a root port, or to a cluster's BAR0. -/
def State.tlpPeer (s : State) (t : Tlp) (pa : Nat) (walled : Bool) : State :=
  match s.peerWindow (t.rp / 20) (t.rp % 20) pa with
  | none => s.tlpRefuse t false
  | some target =>
    let die := target / 32
    let n := target % 32
    if n < 20 then
      let s := s.emit (.peer target pa t.size t.write t.data)
      if t.write then s.portTlp (20 * die + n) true t.size
      else ((s.iselSend (520 + t.rp / 4) pa true walled).mmioAsk (.peer t.rp t.rid) (20 * die + n) pa t.size false).2
    else
      let c := 8 * die + n - 20
      match s.barHas (clRid c) 4 0x400000 pa with
      | none => s.tlpRefuse t false
      | some off =>
        if n ≥ 28 ∨ t.size % 8 ≠ 0 ∨ off % 8 ≠ 0 then s.tlpRefuse t false
        else
          let w : CtlWho := { kind := 0, num := t.rid, walled := walled }
          let (ok, vs, s) := s.clusterParts w c off (if t.write then some t.data else none) (t.size / 8)
          if t.write then s else if ok then s.tlpReads t (packNat vs) (fun _ _ => false) else s.tlpAnswer t 1 [] false

/-- An inbound request to an MMIO address (R474, R478, R482). A doorbell has the world of its Urn function (Table 16-1). -/
def State.tlpMmio (s : State) (t : Tlp) (pa : Nat) (walled : Bool) : State :=
  let c := s.claimOf pa
  match c with
  | .below _ | .cluster _ _ => s.tlpPeer t pa walled
  | .pfBell i _ | .vf i _ _ =>
    if !t.write then s.tlpReads t 0 (fun _ _ => false)
    else
      match s.bellQueue c with
      | none => s.dbDrop i
      | some (q, fn) =>
        if s.cfgF fn 0x85 0 1 = 1 then s.dbDrop i
        else s.doorbell t.rid (s.fnWalled fn) q (unpackNat (packNat t.data) t.size) (t.size % 8 == 0) false
  | .clusterMsix _ _ | .pfMsix _ _ | .rootBar _ _ | .none => s.tlpRefuse t false

/-- R467, R478: a translated request classified and performed. -/
def State.tlpTo (s : State) (q : InReq) (pa : Nat) (walled : Bool) : State :=
  let t := q.t
  match s.classify pa with
  | .control _ | .ecam _ => s.tlpRefuse t false
  | .msi off =>
    if t.write then s.msiWindow (t.rp / 20) t.rid off ((t.data.headD 0).toNat % 2 ^ 32) (t.size == 4)
    else (s.unclaimed (t.rp / 20)).tlpReads t (2 ^ (8 * t.size) - 1) (fun _ _ => false)
  | .mmio _ => s.tlpMmio t pa walled
  | .cxl _ _ | .dram _ _ _ | .remote _ | .unmapped => s.tlpMemory q pa walled

/-- The IOMMU's part of a request (R477, R478). -/
def State.tlpServe (s : State) (q : InReq) : State :=
  let t := q.t
  let i := t.rp / 20
  match q.dest with
  | some (pa, walled) => s.tlpLines q pa walled ((linesOf pa t.size).drop q.lines)
  | none =>
    if q.translated then
      match s.atsOk i t.rid with
      | (.error .stall, s) => s.tlpWait q
      | (.error r, s) => s.tlpRefuse t (r == .integrity)
      | (.ok walled, s) => if t.addr < 2 ^ 52 then s.tlpTo q t.addr walled else s.tlpRefuse t false
    else
      match s.ioTranslate i t.rid (t.pasid.getD 0) t.addr with
      | (.ok pa _ r w walled, s) => if (if t.write then w else r) then s.tlpTo q pa walled else s.tlpRefuse t false
      | (.refused, s) => s.tlpRefuse t false
      | (.integrity, s) => s.tlpRefuse t true
      | (.stall, s) => s.tlpWait q

/-- Modes in which root ports take requests: links train in M4 (R575); M6 and M7 are left by a request (R534). -/
def Mode.ioRuns (m : Mode) : Bool :=
  match m with
  | .m4 | .m5 | .m6 | .m7 | .m8 | .m10 => true
  | .m0 | .m1 | .m2 | .m3 | .m9 | .m11 => false

/-- Whether a root port takes requests: it exists, its link is up, and no scrub has stopped it (R509). -/
def State.rpRuns (s : State) (rp : Nat) : Bool := s.rpExists rp && tget s.io.linkUp false rp && s.mode.ioRuns && !s.boot.scrub

/-- ACS source validation and translation blocking of a root port (R463): whether a request violates an enabled one. -/
def State.acsBad (s : State) (t : Tlp) (translated : Bool) : Bool :=
  let ctl := s.cfgF (rpRid t.rp) 0x51 16 16
  (natBit ctl 0 && !within (s.cfgF (rpRid t.rp) 6 8 8) (t.rid / 256) (s.cfgF (rpRid t.rp) 6 16 8)) || (natBit ctl 1 && translated)

/-- R469: a request is served, or waits behind a write that its root port took before; so does a write behind one of its x16 port. -/
def State.tlpOrder (s : State) (q : InReq) : State :=
  if s.io.reads.any (fun p => p.t.write && (p.t.rp == q.t.rp || (q.t.write && p.t.rp / 4 == q.t.rp / 4))) then s.tlpWait q
  else s.tlpServe q

/-- A memory request arrives at a root port. One of a length or across a boundary that PCIe does not allow is malformed. -/
def State.tlpArrive (s : State) (t : Tlp) (translated : Bool) : State :=
  if !s.rpRuns t.rp then s
  else
    let s := s.pkgWake.portTlp t.rp false (if t.write then t.size else 0)
    if t.size = 0 ∨ t.addr % 4096 + t.size > 4096 ∨ (t.write ∧ t.size > 512) then s.rpAer t.rp 18
    else if t.write && t.poison then s.rpAer t.rp 12
    else if s.cfgF (rpRid t.rp) 1 2 1 = 0 then s.tlpRefuse t false
    else if s.acsBad t translated then
      let s := s.rpAer t.rp 21
      if t.write then s else s.tlpAnswer t 2 [] false
    else s.tlpOrder (InReq.arrived t translated)

/-- A Translation Request refused: it completes with Unsupported Request (R477, R478). -/
def State.xlatRefuse (s : State) (i rid : Nat) (integrity : Bool) : State :=
  (s.iomFault i rid integrity).emit (.tlpCompletion rid 1 [] false)

/-- R478: a Translation Request answered; R = W = 0 where it would fault. It waits for the words of the tables. -/
def State.xlatServe (s : State) (x : XlatReq) : State :=
  let i := x.rp / 20
  let no := fun (s : State) => s.emit (.translation x.rid 0 12 false false)
  let wait := fun (s : State) => { s with io := { s.io with xlats := s.io.xlats ++ [x] } }
  match s.atsOk i x.rid with
  | (.error .stall, s) => wait s
  | (.error r, s) => s.xlatRefuse i x.rid (r == .integrity)
  | (.ok _, s) =>
    match s.ioTranslate i x.rid (x.pasid.getD 0) x.addr with
    | (.ok pa bits r w walled, s) => if !walled && s.walledMem pa then no s else s.emit (.translation x.rid pa bits r w)
    | (.refused, s) => no s
    | (.integrity, s) => no (s.iomFault i x.rid true)
    | (.stall, s) => wait s

/-- What waits at the I/O dies tried again, in its order: inbound requests, messages, Translation Requests, and then the invalidations
that wait for them. -/
def State.tlpRetry (s : State) : State :=
  let s := s.io.reads.foldl (fun s q => s.tlpOrder q) { s with io := { s.io with reads := [] } }
  let s := s.io.msgs.foldl (fun s m => s.msixGo m) { s with io := { s.io with msgs := [] } }
  let s := s.io.xlats.foldl (fun s x => s.xlatServe x) { s with io := { s.io with xlats := [] } }
  ((s.invPoll 0).invPoll 1).atsPoll

/-- Whether something waits at the I/O dies. -/
def IoState.busy (x : IoState) : Bool := !(x.reads.isEmpty && x.msgs.isEmpty && x.xlats.isEmpty && x.inv.isEmpty && x.atsWaits.isEmpty)

/-- A Translation Request at a root port (R478). -/
def State.translationReq (s : State) (rp rid : Nat) (pasid : Option Nat) (addr : Nat) : State :=
  if !s.rpRuns rp then s
  else
    let s := s.pkgWake
    if s.cfgF (rpRid rp) 1 2 1 = 0 then s.xlatRefuse (rp / 20) rid false
    else s.xlatServe { rp := rp, rid := rid, pasid := pasid, addr := addr }

/-! ## CXL.mem answers -/

/-- The data of a CXL.mem read reaches the home that waits for it (R464). -/
def State.cxlData (s : State) (line : Nat) (ws : List Word) : State :=
  let i := s.homeOf line
  let h := s.home i
  if !h.cxlReads.contains line then s
  else
    let s := s.setHome i { h with cxlReads := h.cxlReads.erase line }
    match (s.home i).txn line with
    | some t => if t.phase = .upper then (((s.homeGrant i t ws false none).homeAdvance i line 32).settle).tlpRetry else s
    | none => s

/-- R80, R82: a line from a CXL device: data class, colour 0, and poison 0x05 in each half marked poisoned. -/
def cxlWords (vs : List (BitVec 64)) (lo hi : Bool) : List Word :=
  (List.range 16).map (fun k => if (if k < 8 then lo else hi) then Word.poison 0x05 else Word.data (vs.getD k 0))

/-- R464: a CXL.mem read without a response: poison 0x05 in every word, and a record of its root port. -/
def State.cxlLate (s : State) (line : Nat) : State :=
  if !(s.home (s.homeOf line)).cxlReads.contains line then s
  else
    match s.classify (line * 128) with
    | .cxl iod win =>
      let r := s.reg (8 + iod) 0x039 IOM_CXLWIN [win]
      (s.cxlData line (poisonLine 0x05)).err (8 + iod) (0x10 + field r 45 3) (ErrRec.mk1 3 0x0F (field r 48 2) (line * 128))
    | .control _ | .msi _ | .ecam _ | .mmio _ | .dram _ _ _ | .remote _ | .unmapped => s

/-! ## Links -/

/-- R463, R464, R489: a root port's link trains at the highest speed (code 1 to 7, 2.5 to 128.0 GT/s) and width that both ends support,
or goes down; Data Link Layer State Changed follows on a hot-plug port. -/
def State.rpLink (s : State) (rp : Nat) (up : Bool) (speed width : Nat) : State :=
  if !s.rpExists rp ∨ s.domSt (0x200 + 0x40 * (rp / 20) + 8 + rp % 20 / 4) PWR_DOM_STATUS_STATE = 3 ∨ !s.mode.ioRuns ∨ (up && (speed = 0 || width = 0)) then s
  else
    let r := rpRid rp
    let s := if up then (s.setCfgF r 0x14 16 4 (min speed (if s.rpCxl rp then 6 else 7))).setCfgF r 0x14 20 6 (min width (rpWidth (s.portCfg rp).option (rp % 4))) else s
    s.rpLinkSet rp up

/-- R492, R494: a record of a Footbridge link, with the socket or link number. -/
def State.fbRecord (s : State) (l addr : Nat) : State := s.err (8 + l / 3) (0x018 + l % 3) (ErrRec.mk1 4 0x0D l addr)

/-- R490, R492, R493: a link trains. The peer's socket and link number are shown, the ranges compared, and routes over this link that
do not reach their socket within two links are cleared; `near` has bit k set when the peer's route reaches socket k by one link. -/
def State.fbTrained (s : State) (l peer plink near : Nat) (same : Bool) : State :=
  let d := 8 + l / 3
  let u := 0x018 + l % 3
  if !s.mode.ioRuns ∨ tget s.io.retrain 0 l ≥ 3 then s
  else
    let s := { s with io := { s.io with fbUp := tset s.io.fbUp false l true, retrain := tset s.io.retrain 0 l 0 } }
    let s := (s.setFld d u FB_STATUS [] FB_STATUS_STATE 2).setFld d u FB_STATUS [] FB_STATUS_PEER_SOCKET peer
    let s := (s.setFld d u FB_STATUS [] FB_STATUS_PEER_LINK plink).setFld d u FB_STATUS [] FB_STATUS_MAPDIFF (!same).toNat
    foldN 8 (fun (s : State) k =>
      if s.fbLinkTo k = some l ∧ k ≠ peer ∧ !natBit near k then (s.setFld 8 0x018 FB_ROUTE [] (FB_ROUTE_VALID k) 0).fbRecord l k else s) s

/-- R490: eight failed replays in a row start a retrain; each counts in the node's window (R584). -/
def State.fbRetrain (s : State) (l : Nat) : State :=
  let d := 8 + l / 3
  let u := 0x018 + l % 3
  if s.fld d u FB_STATUS [] FB_STATUS_STATE ≠ 2 then s
  else
    let s := ((s.setFld d u FB_STATUS [] FB_STATUS_STATE 1).addFld d u FB_STATUS [] FB_STATUS_RETRAINS 1).addFld d u FB_STATUS [] FB_STATUS_REPLAYS 8
    foldN 8 (fun (s : State) _ => s.errCorrected d u l 0) (s.count d u cntFb 3 8 false)

/-- R494: the third retrain in a row fails: the link is down until the next warm reset. -/
def State.fbDown (s : State) (l : Nat) : State :=
  let d := 8 + l / 3
  let u := 0x018 + l % 3
  if s.fld d u FB_STATUS [] FB_STATUS_STATE ≠ 1 then s
  else
    let s := { s with io := { s.io with fbUp := tset s.io.fbUp false l false, retrain := tset s.io.retrain 0 l 3 } }
    (s.setFld d u FB_STATUS [] FB_STATUS_STATE 0).fbRecord l 0

/-! ## Invalidation -/

/-- R480: an IOM_INV command with its fields, as a write of IOM_INV_ADDR and IOM_INV makes it; refused while one runs. -/
def State.invCommand (s : State) (i kind rid : Nat) (pasid : Option Nat) (range : Option (Nat × Nat)) : State :=
  if s.fld (8 + i) 0x039 IOM_INV [] IOM_INV_GO = 1 then s.iomRefuse (8 + i)
  else
    let s := match range with
      | some (a, bits) => (s.setFld (8 + i) 0x039 IOM_INV_ADDR [] IOM_INV_ADDR_LOG2SZ bits).setFld (8 + i) 0x039 IOM_INV_ADDR [] IOM_INV_ADDR_ADDR (a / 4096)
      | none => s
    let s := (s.setFld (8 + i) 0x039 IOM_INV [] IOM_INV_KIND kind).setFld (8 + i) 0x039 IOM_INV [] IOM_INV_RID rid
    let s := (s.setFld (8 + i) 0x039 IOM_INV [] IOM_INV_PASID (pasid.getD 0)).setFld (8 + i) 0x039 IOM_INV [] IOM_INV_PV pasid.isSome.toNat
    s.invStart i

/-- R480: IOM_CTL.ATS_TO_MS passes before an ADDR or FUNCTION command has completed. -/
def State.invTimeout (s : State) (i : Nat) : State :=
  if (tfind s.io.inv i).isNone ∨ s.fld (8 + i) 0x039 IOM_INV [] IOM_INV_KIND = 3 then s
  else
    let rid := s.fld (8 + i) 0x039 IOM_INV [] IOM_INV_RID
    let s := (s.setFld (8 + i) 0x039 IOM_INV [] IOM_INV_TIMEOUT 1).setFld (8 + i) 0x039 IOM_STATUS [] IOM_STATUS_ATS_TIMEOUT 1
    let m := s.iommu i
    (s.setIommu i { m with blocked := if m.blocked.contains rid then m.blocked else m.blocked ++ [rid] }).invEnd i

end Sys2Proof.Machine
end

