-- ==== Sys2Proof/Machine/CoreMem.lean ====
section
/-! DEFINITION. Memory accesses of the cores (R129 to R138, R171 to R173, R227 to R236): parts and their translation, the choice among
exceptions, colour checks (R71 to R76), and the operations that the meanings of classes 0x6 to 0x9 and 0xE share. -/
set_option autoImplicit false
namespace Sys2Proof.Machine

/-- A translated part of an access: one page of it (R234). -/
structure MPart where
  va : BitVec 64
  pa : Nat
  size : Nat
  device : Bool
  td : Bool
  level : Nat
  deriving DecidableEq, Repr

/-- What an access to device memory asks (Table 5-1): natural alignment of a width, a memory-type fault, or nothing. -/
inductive DevRule where
  | aligned (size : Nat)
  | typeFault
  | free
  deriving DecidableEq, Repr

/-- The parts of an access by page (R234): address and length. -/
def pageParts (va : BitVec 64) (size : Nat) : List (BitVec 64 × Nat) :=
  let off := vaLow va % 2 ^ 14
  if off + size ≤ 2 ^ 14 then [(va, size)]
  else [(va, 2 ^ 14 - off), (formAddr va (v64 (2 ^ 14 - off)), size - (2 ^ 14 - off))]

/-- The rank of an exception among those of one access (Table 5-14), for the codes that an access can raise. -/
def excRank (e : Exc) : Nat :=
  match e.code with
  | 0x0C => 0
  | 0x0D => 2
  | 0x0E => 3
  | 0x0A => 4
  | _ => 1

/-- The exception raised among several: the highest rank, then the first in the order of the list (R172, R173). -/
def bestExc (es : List Exc) : Option Exc :=
  es.foldl (fun (best : Option Exc) e =>
    match best with
    | none => some e
    | some b => if excRank e < excRank b then some e else best) none

/-- Why a translated part may not be accessed, in the order of Table 5-14: misaligned device memory, Walled memory refused (Table 16-2),
ill-typed device memory. A part that lacks a permission has no type to be misaligned for (entry 95). -/
def State.partBad (s : State) (lc : Nat) (a : XAcc) (dev : DevRule) (va : BitVec 64) (size : Nat) (x : Xlat) : Option Exc :=
  let control : Bool := match s.classify x.pa with
    | .control _ => true
    | .msi _ | .ecam _ | .mmio _ | .cxl _ _ | .dram _ _ _ | .remote _ | .unmapped => false
  let misaligned : Bool := x.device && (match dev with
    | .aligned n => size != n || va.toNat % n != 0 || (control && va.toNat % 8 != 0)
    | .typeFault | .free => false)
  let refused : Bool := if x.device then !(s.core lc).walled && s.walledMem x.pa
    else (linesOf x.pa size).any (fun l => s.openRefused lc (128 * l))
  if misaligned then some (Exc.align a.write va)
  else if refused then
    match walledFault a va x.level with
    | .exc e => some e
    | .stall => none
  else if x.device && dev == .typeFault then some (Exc.memType a.write va)
  else none

/-- Every part of an access translated and checked before any is performed (R234): the parts, or the exception that is raised. -/
def State.xlatParts (s : State) (lc : Nat) (a : XAcc) (dev : DevRule) (ps : List (BitVec 64 × Nat)) (found : List MPart) (errs : List Exc) :
    MRes (List MPart) :=
  match ps with
  | [] =>
    match bestExc errs with
    | some e => (.error (.exc e), s)
    | none => (.ok found, s)
  | (va, size) :: r =>
    match s.translate lc a va with
    | (.error .stall, s) => (.error .stall, s)
    | (.error (.exc e), s) => s.xlatParts lc a dev r found (errs ++ [e])
    | (.ok x, s) =>
      match s.partBad lc a dev va size x with
      | some e => s.xlatParts lc a dev r found (errs ++ [e])
      | none => s.xlatParts lc a dev r (found ++ [⟨va, x.pa, size, x.device, x.td, x.level⟩]) errs

/-- The lines of the parts of an access, each once. -/
def partLines (ps : List MPart) : List Nat :=
  ps.foldl (fun ls p => (linesOf p.pa p.size).foldl (fun ls l => if ls.contains l then ls else ls ++ [l]) ls) []

/-- Lines read for an access as its core sees them; nothing while one has not arrived. -/
def State.viewLines (s : State) (lc : Nat) (ls : List Nat) (acc : Tbl (List Word)) : MRes (Tbl (List Word)) :=
  match ls with
  | [] => (.ok acc, s)
  | l :: r =>
    match s.coreLine lc l .data with
    | (none, s) => (.error .stall, s)
    | (some ws, s) => s.viewLines lc r (tput acc l (s.coreView lc l ws))

/-- The word that holds a physical address. -/
def viewWord (t : Tbl (List Word)) (pa : Nat) : Word := (tget t [] (pa / 128)).getD (pa % 128 / 8) Word.zero

/-- A word that an access touches: its virtual address with the pointer's colour, the word, and TD of its page. -/
structure Touch where
  va : BitVec 64
  word : Word
  td : Bool
  deriving DecidableEq, Repr

/-- The words that a part touches, in ascending order. -/
def partTouches (t : Tbl (List Word)) (p : MPart) : List Touch :=
  let n := (p.pa + p.size - 1) / 8 + 1 - p.pa / 8
  (List.range n).map (fun i => ⟨formAddr (p.va &&& ~~~ (7 : BitVec 64)) (v64 (8 * i)), viewWord t (p.pa / 8 * 8 + 8 * i), p.td⟩)

/-- The words that an access touches (R71). -/
def touches (t : Tbl (List Word)) (ps : List MPart) : List Touch := ps.foldl (fun l p => l ++ partTouches t p) []

/-- R72 to R76: the check of an access with a base register and address; `poison` says that it stores poison. The first mismatching
word of a deferred fault, or the tag fault. -/
def tagCheck (c : Core) (write : Bool) (base : Word) (va : BitVec 64) (poison : Bool) (ts : List Touch) : Except Exc (Option Touch) :=
  if !c.tagEn then .ok none
  else if c.tagPreq && !base.isPointer then .error (Exc.tagFault write 2 va)
  else
    let miss := fun (t : Touch) => !colourOk (vaColour va) t.word.colour
    let pst := bitOf (c.sysr 0x030) 8 && poison
    match ts.find? (fun t => (miss t && !t.td) || (pst && t.word.colour != 0)) with
    | some t => .error (Exc.tagFault write (if miss t then 1 else 3) t.va)
    | none => .ok (ts.find? miss)

/-- R75: a deferred tag fault recorded in s.tagerr, with its interrupt entry. -/
def State.deferTag (s : State) (lc : Nat) (write : Bool) (d : Option Touch) : State :=
  match d with
  | none => s
  | some t =>
    let c := s.core lc
    let r := c.sysr 0x031
    let c := { c with evs := c.evs ++ [0x012] }
    if bitOf r 63 then s.setCore lc (c.setSys 0x031 (setBit r 62 true))
    else
      let v := v64 (vaLow t.va / 8 + (vaColour t.va).toNat * 2 ^ 55 + write.toNat * 2 ^ 61 + 2 ^ 63)
      let s := s.setCore lc (c.setSys 0x031 v)
      if bitOf (c.sysr 0x030) 9 then s.iqPushOrDrop lc 0x06 0 0 else s

/-- The number whose byte i is the i-th byte of the parts of an access. -/
def partsNat (t : Tbl (List Word)) (ps : List MPart) : Nat :=
  (ps.foldl (fun (acc : Nat × Nat) p =>
    (foldN p.size (fun n i => n + field (viewWord t (p.pa + i)).val (8 * ((p.pa + i) % 8)) 8 * 2 ^ (8 * (acc.2 + i))) acc.1, acc.2 + p.size))
    (0, 0)).1

/-- How a load makes its result (Table 5-2): sign- or zero-extended, LD.D, or LDT. -/
inductive LoadKind where
  | sx | zx | whole | tagged
  deriving DecidableEq, Repr

/-- The word of memory that a load of a whole word returns as LD.D does (Table 3-4). -/
def ldWord (w : Word) : Word := if w.isSystem then Word.data w.val else toReg w

/-- The value of a load of n bytes, extended. -/
def extend (k : LoadKind) (size n : Nat) : BitVec 64 :=
  match k with
  | .sx => if natBit n (8 * size - 1) then v64 (n + 2 ^ 64 - 2 ^ (8 * size)) else v64 n
  | .zx | .whole | .tagged => v64 n

/-- The result of a load (R132, R135, Table 3-4): poison when a word it touches is poison, the class of the word when it is one whole
word, otherwise data. -/
def loadResult (pl : Nat) (k : LoadKind) (size : Nat) (t : Tbl (List Word)) (ps : List MPart) : Word :=
  let ws := (touches t ps).map (fun x => x.word)
  match firstPoison ws with
  | some code => Word.poison code
  | none =>
    match k, ws with
    | .whole, [w] => if size = 8 then ldWord w else Word.data w.val
    | .tagged, [w] => ldtWord pl w
    | _, _ => Word.data (extend k size (partsNat t ps))

/-- Events of an access that retires (Table 18-2): its kind, and its splits (R236). -/
def splitEvents (va : BitVec 64) (size : Nat) : List Nat :=
  if (pageParts va size).length > 1 then [0x00B] else if vaLow va % 128 + size > 128 then [0x00A] else []

/-- Misses of the lines of a load (0x007 to 0x009), seen before they are installed. -/
def Core.missEvents (c : Core) (ls : List Nat) : List Nat :=
  (if ls.any (fun l => !c.l1d.any (fun p => p.2 == l)) then [0x007] else []) ++
    (if c.shelf.any (fun e => e.beyondL2 && ls.contains e.line) then [0x008] else []) ++ (if ls.any (fun l => c.far.contains l) then [0x009] else [])

/-- Events added to those of the instruction in progress. -/
def State.addEvs (s : State) (lc : Nat) (es : List Nat) : State :=
  let c := s.core lc
  s.setCore lc { c with evs := c.evs ++ es }

/-- R238: the lines of an access are in the L1D from its retirement on. -/
def State.retireLines (s : State) (lc : Nat) (ls : List Nat) : State :=
  ls.foldl (fun (s : State) l => s.retireData lc l (s.core lc).walled) s

/-! ## The store buffer -/

/-- Whether a store-buffer entry writes bytes of a range. -/
def SbEntry.overlaps (e : SbEntry) (pa size : Nat) : Bool :=
  e.kind != .colour && e.kind != .colourPoison && e.parts.any (fun x => decide (x.pa < pa + size) && decide (pa < x.pa + x.size))

/-- The places in a store buffer, in ascending order, of the entries that write bytes of a range. -/
def sbHits (sb : List SbEntry) (pa size : Nat) : List Nat :=
  (List.range sb.length).filter (fun k => match sb[k]? with
    | some e => e.overlaps pa size
    | none => false)

/-- Where a load takes its bytes from: the caches; the entry at a place of the store buffer, which forwards them (R228); or the caches
once the oldest n entries have been written, counted as FWD_WAIT or not (R229). -/
inductive FwdRes where
  | caches
  | forward (k : Nat)
  | drain (n : Nat) (counted : Bool)
  deriving DecidableEq, Repr

/-- R228, R229: a load is forwarded when the youngest store to each of its bytes is one and the same entry, whose tag bytes it holds. -/
def fwdOf (sb : List SbEntry) (ps : List MPart) : FwdRes :=
  let newest := fun (pa : Nat) => (sbHits sb pa 1).getLast?
  let bytes := ps.flatMap (fun p => (List.range p.size).map (fun i => newest (p.pa + i)))
  let last := (ps.flatMap (fun p => sbHits sb p.pa p.size)).foldl max 0 + 1
  match bytes with
  | [] => .caches
  | b :: r =>
    if (b :: r).all (fun x => x.isNone) then .caches
    else match b with
      | none => .drain last true
      | some k =>
        let one := r.all (fun x => x == some k)
        let tags : Bool := match sb[k]? with
          | some e => !e.tags.isEmpty
          | none => false
        if one && tags then .forward k else .drain last (!one)

/-- The words of a line that an entry's part touches, with the tag bytes that the entry holds. -/
def SbEntry.tagLine (x : SbEntry) : List Word :=
  let first := x.pa % 128 / 8
  (List.range 16).map (fun i => if i < first then Word.zero else ⟨0, x.tags.getD (i - first) 0⟩)

/-- What a forwarded load sees of the lines of an entry (R228): the entry's tag bytes with it and the younger entries written. -/
def State.fwdView (s : State) (lc k : Nat) : Tbl (List Word) :=
  match (s.core lc).sb.drop k with
  | [] => []
  | e :: r =>
    e.parts.foldl (fun (t : Tbl (List Word)) x =>
      let line := x.pa / 128
      let ws := (((e :: r).flatMap SbEntry.parts).filter (fun y => y.pa / 128 == line)).foldl (fun l y => sbApply y l) x.tagLine
      tput t line (if s.isCxl line then cxlLine ws else ws)) []

/-- What a load of some parts sees, and the lines that it reads from the caches (R228, R229). -/
def State.loadView (s : State) (lc : Nat) (ps : List MPart) : MRes (Tbl (List Word) × List Nat) :=
  let read := fun (s : State) =>
    match s.viewLines lc (partLines ps) [] with
    | (.error f, s) => (.error f, s)
    | (.ok t, s) => (.ok (t, partLines ps), s)
  match fwdOf (s.core lc).sb ps with
  | .caches => read s
  | .forward k => (.ok (s.fwdView lc k, []), s)
  | .drain n counted =>
    match s.sbFirst lc n with
    | (false, s) => (.error .stall, s)
    | (true, s) => read (if counted then s.coreEv lc 0x082 else s)

/-- The entry of a store (R227, R233): whole for an aligned doubleword, otherwise a sub-word store; the part above a line boundary apart;
and the tag bytes of the words it touches. -/
def storeEntry (c : Core) (t : Tbl (List Word)) (ps : List MPart) (size : Nat) (w : Word) (weak : Bool) : SbEntry :=
  let p := ps.headD ⟨0, 0, 0, false, false, 0⟩
  let first := min p.size (128 - p.pa % 128)
  let upper : Option (Nat × Nat) := match ps with
    | _ :: q :: _ => some (q.pa, q.size)
    | _ => if first < p.size then some (p.pa + first, p.size - first) else none
  let whole : Bool := upper.isNone && size == 8 && p.pa % 8 == 0
  { pa := p.pa, size := first, upper := upper, split := upper.isSome,
    kind := if whole then .whole else if w.isPoison then .subPoison else .sub,
    word := if whole || w.isPoison then w else Word.data (v64 (w.val.toNat % 2 ^ (8 * size))),
    tags := (touches t ps).map (fun x => x.word.tag), weak := weak, walled := c.walled, pl3 := decide (c.pl = 3) }

/-! ## Loads and stores -/

/-- The initiator of a core's control-space accesses. -/
def State.coreWho (s : State) (lc : Nat) : CtlWho := { kind := 1, num := lc, walled := (s.core lc).walled }

/-- The release-buffer entry of an access to device memory or the control space (R255). -/
def devEnt (p : MPart) (data : List Word) : RbEnt :=
  { kind := .device, addr := p.pa, size := p.size, data := data, committed := false, msg := none }

/-- A load from device memory (R133, R151): older ordered stores first, then the one access. -/
def State.devLoad (s : State) (lc : Nat) (p : MPart) (k : LoadKind) : MRes Word :=
  match s.sbOrdered lc with
  | (false, s) => (.error .stall, s)
  | (true, s) =>
    s.logDo lc (devEnt p []) (fun (s : State) =>
      match s.devRead (s.coreWho lc) (.core lc) p.pa p.size with
      | (.wait, s) => (.error .stall, s)
      | (.bus r, s) => (.error (.exc (Exc.control false r p.va)), s)
      | (.ok v, s) => (.ok (Word.data (extend k p.size (v.toNat % 2 ^ (8 * p.size)))), s))

/-- The device part of an access, if it is to device memory. -/
def devPart (ps : List MPart) : Option MPart := ps.find? (fun p => p.device)

/-- R129: the checks of a memory form that come before its access: its fields, then its address operands. -/
def State.memFrame (s : State) (lc : Nat) (m : MemForm) (f : State → BitVec 64 → MRes Bool) : MRes Bool :=
  let c := s.core lc
  if memIllegal m then (.error (.exc .illegal), s)
  else
    match firstPoison (memAddrOps m c) with
    | some code => (.error (.exc (Exc.poison code.toNat)), s)
    | none => f s (memVa m c)

/-- What a load does after its address: the word it returns, checked, forwarded and retired. -/
def State.loadAt (s : State) (lc : Nat) (base : Word) (va : BitVec 64) (size : Nat) (k : LoadKind) : MRes Word :=
  let a : XAcc := { fetch := false, write := false }
  if k = .tagged ∧ va.toNat % 8 ≠ 0 then (.error (.exc (Exc.align false va)), s)
  else
    match s.xlatParts lc a (if k = .tagged then .typeFault else .aligned size) (pageParts va size) [] [] with
    | (.error f, s) => (.error f, s)
    | (.ok ps, s) =>
      match devPart ps with
      | some p => s.devLoad lc p k
      | none =>
        match s.loadView lc ps with
        | (.error f, s) => (.error f, s)
        | (.ok (t, lines), s) =>
          match tagCheck (s.core lc) false base va false (touches t ps) with
          | .error e => (.error (.exc e), s)
          | .ok d =>
            let s := s.addEvs lc ((s.core lc).missEvents lines ++ splitEvents va size)
            let s := (s.deferTag lc false d).retireLines lc lines
            (.ok (loadResult (s.core lc).pl k size t ps), s)

/-- A load (R135). -/
def State.loadBody (s : State) (lc : Nat) (m : MemForm) (size : Nat) (k : LoadKind) : MRes Bool :=
  s.memFrame lc m (fun (s : State) va =>
    match s.loadAt lc (memBase m (s.core lc)) va size k with
    | (.error f, s) => (.error f, s)
    | (.ok w, s) => (.ok false, (s.setCore lc ((s.core lc).setG (memRd m) w).advance).addEvs lc [0x005]))

/-- The word that a store writes (R68): system class only by STT at PL1 and above. -/
def stWord (pl : Nat) (tagged : Bool) (w : Word) : Word :=
  if tagged then sttWord pl w else if w.isSystem then Word.data w.val else w

/-- A store to device memory (R138, R151): a poison source is consumed; the value bits go out after older ordered stores. -/
def State.devStore (s : State) (lc : Nat) (p : MPart) (w : Word) : MRes Unit :=
  if w.isPoison then (.error (.exc { Exc.poison (wordCode w) with write := true }), s)
  else
    match s.sbOrdered lc with
    | (false, s) => (.error .stall, s)
    | (true, s) =>
      s.logDo lc (devEnt p [w]) (fun (s : State) =>
        match s.devWrite (s.coreWho lc) p.pa p.size (v64 (w.val.toNat % 2 ^ (8 * p.size))) with
        | (0, s) => (.ok (), s)
        | (r, s) => (.error (.exc (Exc.control true r p.va)), s))

/-- A store (R136): its checks against the tag bytes it touches (R227), then its place in the store buffer. -/
def State.storeAt (s : State) (lc : Nat) (base : Word) (va : BitVec 64) (size : Nat) (w : Word) (aligned : Bool) (dev : DevRule) (weak : Bool) :
    MRes Unit :=
  let a : XAcc := { fetch := false, write := true }
  if aligned ∧ va.toNat % 8 ≠ 0 then (.error (.exc (Exc.align true va)), s)
  else
    match s.xlatParts lc a dev (pageParts va size) [] [] with
    | (.error f, s) => (.error f, s)
    | (.ok ps, s) =>
      match devPart ps with
      | some p => s.devStore lc p w
      | none =>
        match s.viewLines lc (partLines ps) [] with
        | (.error f, s) => (.error f, s)
        | (.ok t, s) =>
          match tagCheck (s.core lc) true base va w.isPoison (touches t ps) with
          | .error e => (.error (.exc e), s)
          | .ok d =>
            match s.sbMake lc 1 with
            | (false, s) => (.error .stall, s)
            | (true, s) =>
              let s := (s.addEvs lc (splitEvents va size)).deferTag lc true d
              (.ok (), (s.sbPut lc [storeEntry (s.core lc) t ps size w weak]).retireLines lc (partLines ps))

/-- A store instruction. -/
def State.storeBody (s : State) (lc : Nat) (m : MemForm) (size : Nat) (tagged nt : Bool) : MRes Bool :=
  s.memFrame lc m (fun (s : State) va =>
    let c := s.core lc
    let w := stWord c.pl tagged (c.getG (memRd m))
    match s.storeAt lc (memBase m c) va size w tagged (if tagged || nt then .typeFault else .aligned size) nt with
    | (.error f, s) => (.error f, s)
    | (.ok _, s) => (.ok false, (s.setCore lc (s.core lc).advance).addEvs lc [0x006]))

/-! ## Colours -/

/-- LDCOL (R141). -/
def State.ldcolBody (s : State) (lc : Nat) (o : IOp) : MRes Bool :=
  let c := s.core lc
  let base := c.getG o.ra
  if base.isPoison then (.error (.exc (Exc.poison (wordCode base))), s)
  else
    let va := formAddr base.val (simm12 o.imm)
    match s.xlatParts lc { fetch := false, write := false } .free [(va, 1)] [] [] with
    | (.error f, s) => (.error f, s)
    | (.ok ps, s) =>
      let done := fun (s : State) (v : Nat) => (s.setCore lc ((s.core lc).setG o.rd (Word.data (v64 v))).advance)
      if (devPart ps).isSome then (.ok false, done s 0)
      else
        match s.viewLines lc (partLines ps) [] with
        | (.error f, s) => (.error f, s)
        | (.ok t, s) => (.ok false, (done s (((touches t ps).headD ⟨0, Word.zero, false⟩).word.colour).toNat).retireLines lc (partLines ps))

/-- STCOL (R140): one word, or with L the 16 words of the line. -/
def State.stcolBody (s : State) (lc : Nat) (o : ROp) : MRes Bool :=
  let c := s.core lc
  let base := c.getG o.ra
  let gb := c.getG o.rb
  let line := o.md.getLsbD 0
  if o.rd ≠ 0 ∨ o.md.toNat ≥ 2 then (.error (.exc .illegal), s)
  else if base.isPoison then (.error (.exc (Exc.poison (wordCode base))), s)
  else
    let n := if line then 128 else 8
    let va := formAddr base.val 0
    let at' := formAddr va (0 - v64 (vaLow va % n))
    match s.xlatParts lc { fetch := false, write := true } .typeFault [(va, 1)] [] [] with
    | (.error f, s) => (.error f, s)
    | (.ok ps, s) =>
      let p := ps.headD ⟨va, 0, 1, false, false, 0⟩
      let q : MPart := { p with va := at', pa := p.pa / n * n, size := n }
      if c.pl = 0 ∧ !base.isPointer then (.error (.exc (Exc.tagFault true 2 va)), s)
      else
        match s.viewLines lc [p.pa / 128] [] with
        | (.error f, s) => (.error f, s)
        | (.ok t, s) =>
          match tagCheck (s.core lc) true base va gb.isPoison (partTouches t q) with
          | .error e => (.error (.exc e), s)
          | .ok d =>
            match s.sbMake lc 1 with
            | (false, s) => (.error .stall, s)
            | (true, s) =>
              let s := s.deferTag lc true d
              let s := match s.classify p.pa with
                | .cxl iod _ => s.count (8 + iod) 0x038 cntHome 6 1 c.walled
                | .dram _ _ _ | .remote _ | .unmapped | .control _ | .msi _ | .ecam _ | .mmio _ =>
                  s.sbPut lc [{ pa := q.pa, size := n, upper := none, split := false, tags := [],
                                kind := if gb.isPoison then .colourPoison else .colour,
                                word := if gb.isPoison then gb else Word.data (v64 (gb.val.toNat % 64)), weak := false,
                                walled := c.walled, pl3 := decide (c.pl = 3) }]
              (.ok false, (s.setCore lc (s.core lc).advance).retireLines lc [p.pa / 128])

end Sys2Proof.Machine
end

