-- ==== Sys2Proof/Machine/Atomics.lean ====
section
/-! DEFINITION. Atomics (class 0x8, R144 to R147): what they compute, and how one is performed. -/
set_option autoImplicit false
namespace Sys2Proof.Machine

/-- The operations of Table 5-5. -/
inductive AmoOp where
  | add | swp | cas | max | min | and | or | xor
  deriving DecidableEq, Repr

/-- MAX and MIN, which take U. -/
def AmoOp.minMax (op : AmoOp) : Bool := op == .max || op == .min
/-- AND, OR and XOR, which take T. -/
def AmoOp.logic (op : AmoOp) : Bool := op == .and || op == .or || op == .xor

/-- W of an atomic (R144). -/
def ROp.amoW (o : ROp) : Bool := o.md.getLsbD 0
/-- U of an atomic. -/
def ROp.amoU (o : ROp) : Bool := o.md.getLsbD 1
/-- T of an atomic. -/
def ROp.amoT (o : ROp) : Bool := o.md.getLsbD 2

/-- R144: the fields that no form of an atomic allows. -/
def amoIllegal (op : AmoOp) (o : ROp) : Bool :=
  decide (o.md.toNat ≥ 8) || (ROp.amoU o && !op.minMax) || (ROp.amoT o && (!op.logic || ROp.amoW o))

/-- A number below 2^bits read as signed. -/
def signedOf (bits n : Nat) : Int := if n < 2 ^ (bits - 1) then n else (n : Int) - 2 ^ bits

/-- The new memory value of Table 5-5, of 32 or 64 bits. -/
def amoValue (op : AmoOp) (u : Bool) (bits old b : Nat) : Nat :=
  let less : Bool := if u then decide (old < b) else decide (signedOf bits old < signedOf bits b)
  match op with
  | .add => (old + b) % 2 ^ bits
  | .swp => b
  | .cas => b
  | .max => if less then b else old
  | .min => if less then old else b
  | .and => old &&& b
  | .or => old ||| b
  | .xor => old ^^^ b

/-- The word that a .D atomic writes, before the colour it keeps (Table 5-5, R145). -/
def amoWord (pl : Nat) (op : AmoOp) (u t : Bool) (old b : Word) : Word :=
  let v := v64 (amoValue op u 64 old.val.toNat b.val.toNat)
  match op with
  | .swp => stWord pl false b
  | .cas => stWord pl false b
  | .add => withPoison [old, b] (addWords (toReg old) b)
  | .max => withPoison [old, b] (Word.data v)
  | .min => withPoison [old, b] (Word.data v)
  | .and => withPoison [old, b] (if t && old.isSystem then ⟨v, old.tag⟩ else Word.data v)
  | .or => withPoison [old, b] (if t && old.isSystem then ⟨v, old.tag⟩ else Word.data v)
  | .xor => withPoison [old, b] (if t && old.isSystem then ⟨v, old.tag⟩ else Word.data v)

/-- The four bytes of a word at an address, as a number. -/
def half32 (w : Word) (pa : Nat) : Nat := field w.val (8 * (pa % 8)) 32

/-- The 4-byte sub-word store of a .W atomic: poison where its result is (R145). -/
def amoHalf (op : AmoOp) (u : Bool) (old b : Word) (pa : Nat) : Word :=
  let v := Word.data (v64 (amoValue op u 32 (half32 old pa) (field b.val 0 32)))
  match op with
  | .swp => withPoison [b] v
  | .cas => withPoison [b] v
  | .add | .max | .min | .and | .or | .xor => withPoison [old, b] v

/-- What an atomic writes, as the store that writes it (R145). -/
def amoStore (c : Core) (op : AmoOp) (o : ROp) (pa : Nat) (old : Word) : SbEntry :=
  let b := c.getG o.rb
  let w := if ROp.amoW o then amoHalf op (ROp.amoU o) old b pa else amoWord c.pl op (ROp.amoU o) (ROp.amoT o) old b
  { pa := pa, size := if ROp.amoW o then 4 else 8, upper := none, split := false, tags := [],
    kind := if !ROp.amoW o then .whole else if w.isPoison then .subPoison else .sub,
    word := w, weak := false, walled := c.walled, pl3 := decide (c.pl = 3) }

/-- What gd receives (R145). -/
def amoOld (o : ROp) (pa : Nat) (old : Word) : Word :=
  if !ROp.amoW o then ldWord old
  else if old.isPoison then Word.poison old.aux
  else Word.data (sext32 (v64 (half32 old pa)))

/-- R146: whether AMO.CAS finds its comparison value; every other atomic writes. -/
def amoWrites (c : Core) (op : AmoOp) (o : ROp) (pa : Nat) (old : Word) : Bool :=
  op != .cas || (let d := c.getG o.rd
                 if ROp.amoW o then half32 old pa == field d.val 0 32 else old.val == d.val)

/-- The exceptions of an atomic on the word it reads: its tag check, then poison that AMO.CAS compares; otherwise its deferred tag fault. -/
def amoCheck (c : Core) (op : AmoOp) (o : ROp) (p : MPart) (old : Word) : Except Exc (Option Touch) :=
  let bad := op == .cas && old.isPoison
  let writes := amoWrites c op o p.pa old
  let e := amoStore c op o p.pa old
  match tagCheck c true (c.getG o.ra) p.va (writes && !bad && e.word.isPoison) [⟨formAddr (p.va &&& ~~~ (7 : BitVec 64)) 0, old, p.td⟩] with
  | .error x => .error x
  | .ok d => if bad then .error { Exc.poison (wordCode old) with write := true, addr := p.va } else .ok d

/-- An atomic with its line owned: its check, its write, and its result. -/
def State.atomicDo (s : State) (lc : Nat) (op : AmoOp) (o : ROp) (p : MPart) (old : Word) (miss : List Nat) : MRes Bool :=
  let c := s.core lc
  match amoCheck c op o p old with
  | .error x => (.error (.exc x), s)
  | .ok d =>
    match if amoWrites c op o p.pa old then s.sbWrite lc (amoStore c op o p.pa old) else (true, s) with
    | (false, s) => (.error .stall, s)
    | (true, s) =>
      let s := (s.addEvs lc (miss ++ [0x005, 0x006])).deferTag lc true d
      (.ok false, (s.setCore lc ((s.core lc).setG o.rd (amoOld o p.pa old)).advance).retireLines lc [p.pa / 128])

/-- Whether an Open atomic to Walled memory is refused at the mesh stop (Table 16-2): it would have to ask for ownership. -/
def State.amoRefused (s : State) (lc pa : Nat) : Bool :=
  let c := s.core lc
  !c.walled && s.walledMem pa &&
    (match s.l2Find (lcTile lc) (pa / 128) c.walled (decide (c.pl = 3)) with
     | some (_, l) => l.st != .m && l.st != .e
     | none => true)

/-- An atomic at its translated address: checked on a shared copy, then performed with its line owned, so that nothing falls between its
read and its write (R145). Nothing is installed or owned for one that raises an exception (R238, R243). -/
def State.atomicAt (s : State) (lc : Nat) (op : AmoOp) (o : ROp) (p : MPart) : MRes Bool :=
  let c := s.core lc
  let line := p.pa / 128
  let lt := lcTile lc
  let pl3 := decide (c.pl = 3)
  if s.amoRefused lc p.pa then (.error (walledFault { fetch := false, write := true } p.va p.level), s)
  else
    match s.viewLines lc [line] [] with
    | (.error f, s) => (.error f, s)
    | (.ok t, s) =>
      match amoCheck (s.core lc) op o p (viewWord t p.pa) with
      | .error x => (.error (.exc x), s)
      | .ok _ =>
        let miss := (s.core lc).missEvents [line]
        match s.l2Own lt line c.walled pl3 false with
        | (false, s) => (.error .stall, s)
        | (true, s) =>
          let s := s.l2CheckLine lt line
          match s.l2Find lt line c.walled pl3 with
          | none => (.error .stall, s)
          | some (_, l) => s.atomicDo lc op o p ((s.coreView lc line l.data).getD (p.pa % 128 / 8) Word.zero) miss

/-- The release-buffer entry of an atomic (R255, R261): its address and operands. -/
def amoEnt (c : Core) (o : ROp) (p : MPart) : RbEnt :=
  { kind := .atomic, addr := p.pa, size := p.size, data := [c.getG o.rb, c.getG o.rd], committed := false, msg := none }

/-- An atomic (R144 to R147), performed with every older store written (R149). -/
def State.atomicBody (s : State) (lc : Nat) (op : AmoOp) (o : ROp) : MRes Bool :=
  let c := s.core lc
  let ga := c.getG o.ra
  let va := formAddr ga.val 0
  let size := if ROp.amoW o then 4 else 8
  if amoIllegal op o then (.error (.exc .illegal), s)
  else if ROp.amoT o ∧ c.pl = 0 then (.error (.exc .privilege), s)
  else
    match firstPoison (if op = .cas then [ga, c.getG o.rd] else [ga]) with
    | some code => (.error (.exc (Exc.poison code.toNat)), s)
    | none =>
      if va.toNat % size ≠ 0 then (.error (.exc (Exc.align true va)), s)
      else
        match s.sbEmpty lc with
        | (false, s) => (.error .stall, s)
        | (true, s) =>
          match s.xlatParts lc { fetch := false, write := true } .typeFault [(va, size)] [] [] with
          | (.error f, s) => (.error f, s)
          | (.ok [], s) => (.error .stall, s)
          | (.ok (p :: _), s) => s.logDo lc (amoEnt c o p) (fun (s : State) => s.atomicAt lc op o p)

end Sys2Proof.Machine
end

