-- ==== Sys2Proof/Machine/CoreAtomics.lean ====
section
/-! DEFINITION. The atomic instructions (class 0x8). -/
set_option autoImplicit false
namespace Sys2Proof.Machine

/-- AMO.ADD (R144 to R147, Table 5-5). -/
def execAmoAdd (lc : Nat) (o : ROp) (s : State) : Host.Outcome State Fault Refusal :=
  .next (s.runInstr lc (fun (s : State) => s.atomicBody lc .add o))

/-- AMO.SWP (R144 to R147, Table 5-5). -/
def execAmoSwp (lc : Nat) (o : ROp) (s : State) : Host.Outcome State Fault Refusal :=
  .next (s.runInstr lc (fun (s : State) => s.atomicBody lc .swp o))

/-- AMO.CAS (R144 to R147, Table 5-5). -/
def execAmoCas (lc : Nat) (o : ROp) (s : State) : Host.Outcome State Fault Refusal :=
  .next (s.runInstr lc (fun (s : State) => s.atomicBody lc .cas o))

/-- AMO.MAX (R144 to R147, Table 5-5). -/
def execAmoMax (lc : Nat) (o : ROp) (s : State) : Host.Outcome State Fault Refusal :=
  .next (s.runInstr lc (fun (s : State) => s.atomicBody lc .max o))

/-- AMO.MIN (R144 to R147, Table 5-5). -/
def execAmoMin (lc : Nat) (o : ROp) (s : State) : Host.Outcome State Fault Refusal :=
  .next (s.runInstr lc (fun (s : State) => s.atomicBody lc .min o))

/-- AMO.AND (R144 to R147, Table 5-5). -/
def execAmoAnd (lc : Nat) (o : ROp) (s : State) : Host.Outcome State Fault Refusal :=
  .next (s.runInstr lc (fun (s : State) => s.atomicBody lc .and o))

/-- AMO.OR (R144 to R147, Table 5-5). -/
def execAmoOr (lc : Nat) (o : ROp) (s : State) : Host.Outcome State Fault Refusal :=
  .next (s.runInstr lc (fun (s : State) => s.atomicBody lc .or o))

/-- AMO.XOR (R144 to R147, Table 5-5). -/
def execAmoXor (lc : Nat) (o : ROp) (s : State) : Host.Outcome State Fault Refusal :=
  .next (s.runInstr lc (fun (s : State) => s.atomicBody lc .xor o))

end Sys2Proof.Machine
end

