-- ==== Sys2Proof/Machine/CoreLoads.lean ====
section
/-! DEFINITION. Loads, stores and the tag instructions (classes 0x6, 0x7 and 0x9). -/
set_option autoImplicit false
namespace Sys2Proof.Machine

/-- CLASS: the tag byte of ga as a value; a poison operand stays poison (R143). -/
def classCore (o : ROp) (c : Core) : CoreRes :=
  let a := c.getG o.ra
  if o.rb ≠ 0 ∨ o.md ≠ 0 then .error .illegal
  else .ok ((c.setG o.rd (withPoison [a] (Word.data (v64 a.tag.toNat)))).advance)

/-- POISON: value 0, poison class, code 0x07. -/
def poisonCore (o : ROp) (c : Core) : CoreRes :=
  if o.ra ≠ 0 ∨ o.rb ≠ 0 ∨ o.md ≠ 0 then .error .illegal
  else .ok ((c.setG o.rd (Word.poison 0x07)).advance)

/-- MKDATA: the value of ga as data. -/
def mkdataCore (o : ROp) (c : Core) : CoreRes :=
  let a := c.getG o.ra
  if o.rb ≠ 0 ∨ o.md ≠ 0 then .error .illegal
  else .ok ((c.setG o.rd (withPoison [a] (Word.data a.val))).advance)

/-- MKSYS: the value of ga as system class with a payload; payload 0x00 is illegal, PL0 may not, and payloads 0x02 to 0x3F are PL3's
(R142). -/
def mksysCore (o : IOp) (c : Core) : CoreRes :=
  let a := c.getG o.ra
  let pay := o.imm.toNat % 64
  if o.imm.toNat ≥ 64 ∨ pay = 0 then .error .illegal
  else if c.pl = 0 ∨ (pay ≥ 2 ∧ c.pl < 3) then .error .privilege
  else .ok ((c.setG o.rd (withPoison [a] (Word.system a.val (BitVec.ofNat 6 pay)))).advance)

/-- LD.B: sign-extended byte (R135, Table 5-2). -/
def execLdB (lc : Nat) (m : MemForm) (s : State) : Host.Outcome State Fault Refusal :=
  .next (s.runInstr lc (fun (s : State) => s.loadBody lc m 1 .sx))

/-- LD.BU: zero-extended byte (R135, Table 5-2). -/
def execLdBu (lc : Nat) (m : MemForm) (s : State) : Host.Outcome State Fault Refusal :=
  .next (s.runInstr lc (fun (s : State) => s.loadBody lc m 1 .zx))

/-- LD.H: sign-extended half-word (R135, Table 5-2). -/
def execLdH (lc : Nat) (m : MemForm) (s : State) : Host.Outcome State Fault Refusal :=
  .next (s.runInstr lc (fun (s : State) => s.loadBody lc m 2 .sx))

/-- LD.HU: zero-extended half-word (R135, Table 5-2). -/
def execLdHu (lc : Nat) (m : MemForm) (s : State) : Host.Outcome State Fault Refusal :=
  .next (s.runInstr lc (fun (s : State) => s.loadBody lc m 2 .zx))

/-- LD.W: sign-extended word (R135, Table 5-2). -/
def execLdW (lc : Nat) (m : MemForm) (s : State) : Host.Outcome State Fault Refusal :=
  .next (s.runInstr lc (fun (s : State) => s.loadBody lc m 4 .sx))

/-- LD.WU: zero-extended word (R135, Table 5-2). -/
def execLdWu (lc : Nat) (m : MemForm) (s : State) : Host.Outcome State Fault Refusal :=
  .next (s.runInstr lc (fun (s : State) => s.loadBody lc m 4 .zx))

/-- LD.D: doubleword with its class (R135, Table 5-2). -/
def execLdD (lc : Nat) (m : MemForm) (s : State) : Host.Outcome State Fault Refusal :=
  .next (s.runInstr lc (fun (s : State) => s.loadBody lc m 8 .whole))

/-- LDT: doubleword with class and payload (R135, Table 5-2). -/
def execLdt (lc : Nat) (m : MemForm) (s : State) : Host.Outcome State Fault Refusal :=
  .next (s.runInstr lc (fun (s : State) => s.loadBody lc m 8 .tagged))

/-- ST.B: byte (R136, Table 5-3). -/
def execStB (lc : Nat) (m : MemForm) (s : State) : Host.Outcome State Fault Refusal :=
  .next (s.runInstr lc (fun (s : State) => s.storeBody lc m 1 false false))

/-- ST.H: half-word (R136, Table 5-3). -/
def execStH (lc : Nat) (m : MemForm) (s : State) : Host.Outcome State Fault Refusal :=
  .next (s.runInstr lc (fun (s : State) => s.storeBody lc m 2 false false))

/-- ST.W: word (R136, Table 5-3). -/
def execStW (lc : Nat) (m : MemForm) (s : State) : Host.Outcome State Fault Refusal :=
  .next (s.runInstr lc (fun (s : State) => s.storeBody lc m 4 false false))

/-- ST.D: doubleword with its class (R136, Table 5-3). -/
def execStD (lc : Nat) (m : MemForm) (s : State) : Host.Outcome State Fault Refusal :=
  .next (s.runInstr lc (fun (s : State) => s.storeBody lc m 8 false false))

/-- STT: doubleword with its class, system at PL1 and above (R136, Table 5-3). -/
def execStt (lc : Nat) (m : MemForm) (s : State) : Host.Outcome State Fault Refusal :=
  .next (s.runInstr lc (fun (s : State) => s.storeBody lc m 8 true false))

/-- ST.NT: as ST.D, a weak access (R136, Table 5-3). -/
def execStNt (lc : Nat) (m : MemForm) (s : State) : Host.Outcome State Fault Refusal :=
  .next (s.runInstr lc (fun (s : State) => s.storeBody lc m 8 false true))

/-- LDCOL (R141). -/
def execLdcol (lc : Nat) (o : IOp) (s : State) : Host.Outcome State Fault Refusal :=
  .next (s.runInstr lc (fun (s : State) => s.ldcolBody lc o))

/-- STCOL (R140). -/
def execStcol (lc : Nat) (o : ROp) (s : State) : Host.Outcome State Fault Refusal :=
  .next (s.runInstr lc (fun (s : State) => s.stcolBody lc o))

/-- CLASS (R143). -/
def execClass (lc : Nat) (o : ROp) (s : State) : Host.Outcome State Fault Refusal :=
  runCore lc (fun (c : Core) => classCore o c) s

/-- POISON (Table 5-4). -/
def execPoison (lc : Nat) (o : ROp) (s : State) : Host.Outcome State Fault Refusal :=
  runCore lc (fun (c : Core) => poisonCore o c) s

/-- MKDATA (R142). -/
def execMkdata (lc : Nat) (o : ROp) (s : State) : Host.Outcome State Fault Refusal :=
  runCore lc (fun (c : Core) => mkdataCore o c) s

/-- MKSYS (R142). -/
def execMksys (lc : Nat) (o : IOp) (s : State) : Host.Outcome State Fault Refusal :=
  runCore lc (fun (c : Core) => mksysCore o c) s

end Sys2Proof.Machine
end

