-- ==== Sys2Proof/Machine/Maintain.lean ====
section
/-! DEFINITION. Cache maintenance by address (R155, R302 to R304) and by set and way (R156, R305 to R307), prefetch hints (R157) and
fences (R152, R153). -/
set_option autoImplicit false
namespace Sys2Proof.Machine

/-- The actions of a CMO (Table 9-3). -/
inductive CmoOp where
  | cln | inv | cli
  deriving DecidableEq, Repr

/-- Whether a CMO discards copies. -/
def CmoOp.drops (op : CmoOp) : Bool := op != .cln
/-- Whether a CMO writes dirty copies back. -/
def CmoOp.writes (op : CmoOp) : Bool := op != .inv

/-- Who issues a CMO: its world, and whether it reaches copies of both (R302). -/
structure CmoWho where
  walled : Bool
  pl3 : Bool
  deriving DecidableEq, Repr

/-- Whether a CMO reaches a copy. -/
def CmoWho.sees (w : CmoWho) (walled : Bool) : Bool := w.pl3 || w.walled == walled

/-- The home's entry after a CMO acted on the slice of a die: a cleaned line is no longer dirty, a discarded one has lost the die
(R306). -/
def State.cmoHome (s : State) (op : CmoOp) (lt line : Nat) (wasO : Bool) : State :=
  let i := s.homeOf line
  match s.sfFind i line with
  | none => s
  | some (_, e) =>
    let own : Bool := e.ownerOf == some (.llc lt)
    if op.drops then
      let e' := e.drop (.llc lt)
      s.sfKeep i (if own then { e' with st := .s, owner := 0 } else e')
    else if own && wasO then s.sfKeep i { e with st := .s, owner := 0 }
    else s

/-- The state of an LLC or victim-buffer line that has been cleaned (Table 9-3). -/
def cleanSt (st : LineState) : LineState :=
  match st with
  | .m => .e
  | .o => .s
  | .e => .e
  | .s => .s

/-- Whether a line's state is dirty. -/
def dirtySt (st : LineState) : Bool := st == .m || st == .o

/-- The L2 copy of a tile, by its entry: what Table 9-3 does to it and what the LLC line receives. -/
def State.cmoTile (s : State) (op : CmoOp) (w : CmoWho) (lt t line : Nat) : State :=
  let s := s.l2CheckLine t line
  let give := fun (s : State) (d : Option (List Word)) (gone : Bool) =>
    match s.llcFind lt line false true with
    | none => s
    | some (key, l) =>
      let l := match d with
        | some ws => { l with data := ws, st := .m }
        | none => l
      s.llcPut lt key (if gone then { l with pres := clearBit l.pres (s.scanOf t), excl := false } else l)
  match s.l2Any t line with
  | some (key, l) =>
    if !w.sees l.walled then s
    else
      let d := if l.st = .m ∧ op.writes then some l.data else none
      if op.drops then
        let (_, s) := s.tileTake t line
        give s d true
      else give (if l.st = .m then s.l2Put t key { l with st := .e } else s) d false
  | none => if op.drops then let (_, s) := s.tileTake t line; give s none true else s

/-- The LLC line of a slice, or its victim-buffer entry (Table 9-3). -/
def State.cmoSlice (s : State) (op : CmoOp) (w : CmoWho) (lt line : Nat) : State :=
  let act := fun (s : State) (l : CacheLine) (put : State → Option CacheLine → State) =>
    if !w.sees l.walled then s
    else
      let s := put s (if op.drops then none else some { l with st := cleanSt l.st })
      let s := if dirtySt l.st && op.writes then s.homeWrite line l.data w.walled else s
      s.cmoHome op lt line (l.st == .o)
  match s.llcFind lt line false true with
  | some (key, _) =>
    let s := s.llcCheck lt key
    match tfind (s.slice lt).lines key with
    | none => s
    | some l => act s l (fun (s : State) x => match x with
        | some l => s.llcPut lt key l
        | none => s.llcDel lt key)
  | none =>
    if !((s.slice lt).vb.any (fun (l : CacheLine) => l.line == line)) then s
    else
      let s := s.vbCheck lt line
      match (s.slice lt).vb.find? (fun (l : CacheLine) => l.line == line) with
      | none => s
      | some l => act s l (fun (s : State) x =>
          let y := s.slice lt
          s.setSlice lt { y with vb := match x with
            | some n => y.vb.map (fun (e : CacheLine) => if e.line = line then n else e)
            | none => y.vb.filter (fun (e : CacheLine) => e.line != line) })

/-- A CMO by address on one die: its tiles' copies first, then the slice (R302). -/
def State.cmoDie (s : State) (op : CmoOp) (w : CmoWho) (die line : Nat) : State :=
  let lt := llcOf die line
  let s := match s.llcFind lt line false true with
    | some (_, l) => (s.presTiles lt l.pres).foldl (fun (s : State) t => s.cmoTile op w lt t line) s
    | none => s
  s.cmoSlice op w lt line

/-- Whether a flush in progress is to remove a line from the caches of a tile or slice (R303, Table 9-4): a full flush, or one of its
way. -/
def State.flushHolds (s : State) (lt line : Nat) : Bool :=
  let goes := fun (flushing : Bool) (pending : Nat) (held : Option (Nat × CacheLine)) => match held with
    | some (key, _) => flushing || natBit pending (key % 16)
    | none => false
  let x := s.slice lt
  goes (s.tile lt).flushing (s.fld (ltDie lt) (ltIdx lt) L2_WAY_DIS [] L2_WAY_DIS_PENDING) (s.l2Any lt line) ||
    goes x.flushing (s.fld (ltDie lt) (llcUnit lt) LLC_WAY_DIS [] LLC_WAY_DIS_PENDING) (s.llcFind lt line false true) ||
    (x.flushing && x.vb.any (fun (l : CacheLine) => l.line == line))

/-- R303: work in progress on a line, which a CMO waits for. -/
def State.cmoBusy (s : State) (line : Nat) : Bool :=
  let mine := fun (m : Msg) => m.line == line
  let buf := fun (e : WbEnt) => e.line == line
  let work := fun (t : Txn) => t.line == line
  s.net.any mine || s.nacked.any mine ||
    [0, 1].any (fun i =>
      let h := s.home i
      h.txns.any work || h.snoops.any work || h.cq.any mine || h.parked.any mine || h.fwds.any mine || h.wbWait.any mine || h.wb.any buf) ||
    (List.range 8).any (fun d =>
      let x := s.slice (llcOf d line)
      x.txns.any work || x.cq.any mine || x.parked.any mine || x.wb.any buf) ||
    s.tiles.any (fun t => t.2.miss.any mine || t.2.fills.any mine || t.2.wb.any buf) ||
    (List.range 256).any (fun lt => s.flushHolds lt line)

/-- Whether a CMO on a line concerns another socket: its home is there, or copies may be. -/
def State.cmoElsewhere (s : State) (line : Nat) : Bool :=
  (s.remoteHome line).isSome ||
    (match s.sfFind (s.homeOf line) line with
     | some (_, e) => e.sockets != 0
     | none => false)

/-- A CMO by address of a core, on every cache of every socket (R155). On a line that other sockets hold or home it is a WrInv of no byte
at the line's home, which takes every copy away and writes a dirty one back, or with NC discards it, and it waits for the Cmp (entry 16).
False while that, or work in progress on the line, holds it back. -/
def State.cmoLine (s : State) (op : CmoOp) (w : CmoWho) (lc line : Nat) : Bool × State :=
  let a := cmoAgent lc
  let s := s.settle
  match s.takeAnswer a line .cmp with
  | some (_, s) => (true, s)
  | none =>
    if s.cmoBusy line then (false, s)
    else if !s.cmoElsewhere line then (true, (List.range 8).foldl (fun (s : State) d => s.cmoDie op w d line) s)
    else
      let s := (s.send { mkMsg .wrInv a (.home (s.homeOf line)) line w.walled with pl3 := w.pl3, nc := !op.writes }).settle
      match s.takeAnswer a line .cmp with
      | some (_, s) => (true, s)
      | none => (false, s)

/-- The release-buffer entry of a CMO (R255): its line or its set and way. -/
def cmoEnt (addr : Nat) (drops : Bool) : RbEnt :=
  { kind := .cmo, addr := addr, size := drops.toNat, data := [], committed := false, msg := none }

/-- CMO.CLN, CMO.INV and CMO.CLI (R155): CMO.INV at PL0 is performed as CMO.CLI. -/
def State.cmoBody (s : State) (lc : Nat) (op : CmoOp) (o : IOp) : MRes Bool :=
  let c := s.core lc
  let base := c.getG o.ra
  let op := if op = .inv ∧ c.pl = 0 then CmoOp.cli else op
  if o.rd ≠ 0 then (.error (.exc .illegal), s)
  else if base.isPoison then (.error (.exc (Exc.poison (wordCode base))), s)
  else
    match s.sbEmpty lc with
    | (false, s) => (.error .stall, s)
    | (true, s) =>
      match s.translate lc { fetch := false, write := op == .inv } (formAddr base.val (simm12 o.imm)) with
      | (.error f, s) => (.error f, s)
      | (.ok x, s) =>
        if x.device then (.ok false, s.setCore lc (s.core lc).advance)
        else
          s.logDo lc (cmoEnt (x.pa / 128 * 128) op.drops) (fun (s : State) =>
            match s.cmoLine op { walled := c.walled, pl3 := decide (c.pl = 3) } lc (x.pa / 128) with
            | (false, s) => (.error .stall, s)
            | (true, s) => (.ok false, s.setCore lc (s.core lc).advance))

/-! ## By set and way -/

/-- The action of MOD (Table 5-7): clean, invalidate, or clean and invalidate. -/
def setOp (md : BitVec 7) : CmoOp := if md = 0 then .cln else if md = 1 then .inv else .cli

/-- CMO.SET on an L1 entry: nothing to clean (Table 9-3). -/
def State.setL1 (s : State) (op : CmoOp) (lc : Nat) (data : Bool) (set way : Nat) : State :=
  let c := s.core lc
  if !op.drops then s
  else if data then
    if set < 42 ∧ way < 12 ∨ set = 42 ∧ way < 8 then s.setCore lc { c with l1d := terase c.l1d (12 * set + way) } else s
  else if set < 64 ∧ way < 8 then s.setCore lc { c with l1i := terase c.l1i (8 * set + way) }
  else s

/-- CMO.SET on an L2 entry. None while it must wait (R307). -/
def State.setL2 (s : State) (op : CmoOp) (w : CmoWho) (lt set way : Nat) : Option State :=
  let t := s.tile lt
  let d := ltDie lt
  if t.flushing || field (s.reg d (ltIdx lt) L2_WAY_DIS []) 32 16 != 0 then Option.none
  else if set ≥ 1024 ∨ s.l2Off lt way then some s
  else
    match tfind t.l2 (16 * set + way) with
    | none => some s
    | some l =>
      if !w.sees l.walled then some s
      else if t.miss.any (fun m => m.line == l.line) || t.wb.any (fun (e : WbEnt) => e.line == l.line) then Option.none
      else
        match op with
        | .cln => some (s.cmoTile .cln { w with pl3 := true } (llcOf d l.line) lt l.line)
        | .cli => some (s.l2Evict lt (16 * set + way)).settle
        | .inv =>
          let (_, s) := s.tileTake lt l.line
          let t := s.tile lt
          let s := s.setTile lt { t with wb := t.wb ++ [⟨l.line, false, []⟩] }
          some (s.send (mkMsg .evC (.tile lt) (.llc (llcOf d l.line)) l.line l.walled)).settle

/-- An LLC line or victim-buffer entry already taken from its array leaves the slice without its data: the die drops the line at the
home with EvC (R306). -/
def State.sliceForget (s : State) (lt : Nat) (l : CacheLine) : State :=
  (s.llcOut lt { l with st := .s }).settle

/-- Whether a slice is being flushed, or has work in progress on a line (R303, R307). -/
def State.sliceBusy (s : State) (lt line : Nat) : Bool :=
  let x := s.slice lt
  (x.txn line).isSome || x.cq.any (fun m => m.line == line) || x.wb.any (fun (e : WbEnt) => e.line == line)

/-- The clean of a slice's line by set and way: to the memory of this socket; a line of another socket leaves the slice, as `out` says, since
no message cleans it there (entry 16). -/
def State.setClean (s : State) (w : CmoWho) (lt line : Nat) (out : State) : State :=
  if (s.remoteHome line).isSome then out else s.cmoSlice .cln w lt line

/-- CMO.SET on an LLC entry. -/
def State.setLlc (s : State) (op : CmoOp) (w : CmoWho) (lt set way : Nat) : Option State :=
  let x := s.slice lt
  if x.flushing || field (s.reg (ltDie lt) (llcUnit lt) LLC_WAY_DIS []) 32 16 != 0 then Option.none
  else if set ≥ 2048 ∨ s.llcOff lt way then some s
  else
    match tfind x.lines (16 * set + way) with
    | none => some s
    | some l =>
      if !w.sees l.walled then some s
      else if s.sliceBusy lt l.line then Option.none
      else
        match op with
        | .cln => some (s.setClean w lt l.line (s.llcFlushKeys lt [16 * set + way]))
        | .cli => some (s.llcFlushKeys lt [16 * set + way])
        | .inv =>
          let s := s.llcCheck lt (16 * set + way)
          let (_, s) := s.tilesTake lt l
          some ((s.llcDel lt (16 * set + way)).sliceForget lt l)

/-- CMO.SET on a victim-buffer entry, counted from the oldest. -/
def State.setVb (s : State) (op : CmoOp) (w : CmoWho) (lt n : Nat) : Option State :=
  let x := s.slice lt
  if x.flushing || field (s.reg (ltDie lt) (llcUnit lt) LLC_WAY_DIS []) 32 16 != 0 then Option.none
  else
    match if n < 64 then x.vb[n]? else Option.none with
    | none => some s
    | some l =>
      if !w.sees l.walled then some s
      else if s.sliceBusy lt l.line then Option.none
      else
        let out := fun (s : State) =>
          let s := s.vbCheck lt l.line
          let y := s.slice lt
          let l := (y.vb[n]?).getD l
          ((s.setSlice lt { y with vb := y.vb.eraseIdx n }).llcOut lt l).settle
        match op with
        | .cln => some (s.setClean w lt l.line (out s))
        | .cli => some (out s)
        | .inv => some ((s.setSlice lt { x with vb := x.vb.eraseIdx n }).sliceForget lt l)

/-- CMO.SET at the cache that its operand names (Table 9-5). -/
def State.cmoSetAt (s : State) (op : CmoOp) (lc : Nat) (v : BitVec 64) : Option State :=
  let c := s.core lc
  let w : CmoWho := { walled := c.walled, pl3 := decide (c.pl = 3) }
  let set := field v 12 11
  let way := field v 8 4
  let lt := lcTile lc
  let sl := 32 * ltDie lt + field v 3 5
  let cache := field v 0 3
  if cache = 1 then some (s.setL1 op lc false set way)
  else if cache = 2 then some (s.setL1 op lc true set way)
  else if cache = 3 then s.setL2 op w lt set way
  else if cache = 4 ∧ c.pl ≥ 2 then s.setLlc op w sl set way
  else if cache = 5 ∧ c.pl ≥ 2 then s.setVb op w sl set
  else some s

/-- CMO.SET (R156, R305 to R307). -/
def State.cmoSetBody (s : State) (lc : Nat) (o : ROp) : MRes Bool :=
  let c := s.core lc
  let ga := c.getG o.ra
  if o.rd ≠ 0 ∨ o.rb ≠ 0 ∨ o.md.toNat ≥ 3 then (.error (.exc .illegal), s)
  else if c.pl = 0 then (.error (.exc .privilege), s)
  else if ga.isPoison then (.error (.exc (Exc.poison (wordCode ga))), s)
  else
    s.logDo lc (cmoEnt ga.val.toNat (setOp o.md).drops) (fun (s : State) =>
      match s.cmoSetAt (setOp o.md) lc ga.val with
      | none => (.error .stall, s)
      | some s => (.ok false, s.setCore lc (s.core lc).advance))

/-! ## Prefetch and fences -/

/-- PREF.L and PREF.S (R157): no architectural effect. -/
def prefCore (o : IOp) (c : Core) : CoreRes :=
  let base := c.getG o.ra
  if o.rd ≠ 0 then .error .illegal
  else if base.isPoison then .error (Exc.poison (wordCode base))
  else .ok c.advance

/-- R152: a fence; with `stores` it waits until every older store has been written. -/
def State.fenceBody (s : State) (lc : Nat) (stores : Bool) (o : ROp) : MRes Bool :=
  if o.rd ≠ 0 ∨ o.ra ≠ 0 ∨ o.rb ≠ 0 ∨ o.md ≠ 0 then (.error (.exc .illegal), s)
  else
    match if stores then s.sbEmpty lc else (true, s) with
    | (false, s) => (.error .stall, s)
    | (true, s) => (.ok false, s.setCore lc (s.core lc).advance)

end Sys2Proof.Machine
end

