-- ==== Sys2Proof/Machine/CoreMaint.lean ====
section
/-! DEFINITION. Cache maintenance, prefetch hints and fences (class 0xA). -/
set_option autoImplicit false
namespace Sys2Proof.Machine

/-- CMO.CLN: dirty copies written back, copies stay (R155, R302, R303). -/
def execCmoCln (lc : Nat) (o : IOp) (s : State) : Host.Outcome State Fault Refusal :=
  .next (s.runInstr lc (fun (s : State) => s.cmoBody lc .cln o))

/-- CMO.INV: copies discarded (R155, R302, R303). -/
def execCmoInv (lc : Nat) (o : IOp) (s : State) : Host.Outcome State Fault Refusal :=
  .next (s.runInstr lc (fun (s : State) => s.cmoBody lc .inv o))

/-- CMO.CLI: dirty copies written back, copies discarded (R155, R302, R303). -/
def execCmoCli (lc : Nat) (o : IOp) (s : State) : Host.Outcome State Fault Refusal :=
  .next (s.runInstr lc (fun (s : State) => s.cmoBody lc .cli o))

/-- PREF.L: a hint without architectural effect (R157). -/
def execPrefL (lc : Nat) (o : IOp) (s : State) : Host.Outcome State Fault Refusal :=
  runCore lc (fun (c : Core) => prefCore o c) s

/-- PREF.S: a hint without architectural effect (R157). -/
def execPrefS (lc : Nat) (o : IOp) (s : State) : Host.Outcome State Fault Refusal :=
  runCore lc (fun (c : Core) => prefCore o c) s

/-- CMO.SET (R156, R305 to R307). -/
def execCmoSet (lc : Nat) (o : ROp) (s : State) : Host.Outcome State Fault Refusal :=
  .next (s.runInstr lc (fun (s : State) => s.cmoSetBody lc o))

/-- FENCE.L: every older load is complete already (R152). -/
def execFenceL (lc : Nat) (o : ROp) (s : State) : Host.Outcome State Fault Refusal :=
  .next (s.runInstr lc (fun (s : State) => s.fenceBody lc false o))

/-- FENCE.S: older stores, pushes and CMOs complete (R152). -/
def execFenceS (lc : Nat) (o : ROp) (s : State) : Host.Outcome State Fault Refusal :=
  .next (s.runInstr lc (fun (s : State) => s.fenceBody lc true o))

/-- FENCE.A: every older access completes (R152). -/
def execFenceA (lc : Nat) (o : ROp) (s : State) : Host.Outcome State Fault Refusal :=
  .next (s.runInstr lc (fun (s : State) => s.fenceBody lc true o))

/-- FENCE.I: older stores complete; later instructions are fetched anew (R153). -/
def execFenceI (lc : Nat) (o : ROp) (s : State) : Host.Outcome State Fault Refusal :=
  .next (s.runInstr lc (fun (s : State) => s.fenceBody lc true o))

/-- FENCE.D: every device access has completed at its target (R152). -/
def execFenceD (lc : Nat) (o : ROp) (s : State) : Host.Outcome State Fault Refusal :=
  .next (s.runInstr lc (fun (s : State) => s.fenceBody lc false o))

end Sys2Proof.Machine
end

