-- ==== Sys2Proof/Machine/VecMem.lean ====
section
/-! DEFINITION. Vector memory instructions (class 0xE, R163, R164, R171, R172). -/
set_option autoImplicit false
namespace Sys2Proof.Machine

/-- A vector memory access: its register, the address of each active lane, the bytes of a lane, whether it is weak, and whether a load
clears inactive lanes. -/
structure VAcc where
  reg : BitVec 5
  lanes : List (Nat × BitVec 64)
  size : Nat
  weak : Bool
  zero : Bool
  deriving DecidableEq, Repr

/-- A lane of an access: its number, its address, its parts, what it sees of their lines, and the lines it reads from the caches. -/
structure Lane where
  num : Nat
  va : BitVec 64
  parts : List MPart
  view : Tbl (List Word)
  lines : List Nat
  deriving DecidableEq, Repr

/-- The parts of each lane of an access, taken in order from its translated parts. -/
def laneParts (size : Nat) (lanes : List (Nat × BitVec 64)) (ps : List MPart) : List Lane :=
  match lanes with
  | [] => []
  | (i, va) :: r =>
    let n := (pageParts va size).length
    { num := i, va := va, parts := ps.take n, view := [], lines := [] } :: laneParts size r (ps.drop n)

/-- What each lane sees: a lane of a load forwards or waits by itself (R230), a lane of a store reads its lines for their tag bytes. -/
def State.laneViews (s : State) (lc : Nat) (write : Bool) (ls : List Lane) : MRes (List Lane) :=
  match ls with
  | [] => (.ok [], s)
  | l :: r =>
    match (if write then
        (match s.viewLines lc (partLines l.parts) [] with
         | (.error f, s) => (.error f, s)
         | (.ok t, s) => (.ok (t, partLines l.parts), s))
      else s.loadView lc l.parts : MRes (Tbl (List Word) × List Nat)) with
    | (.error f, s) => (.error f, s)
    | (.ok (t, lines), s) =>
      match s.laneViews lc write r with
      | (.error f, s) => (.error f, s)
      | (.ok ls, s) => (.ok ({ l with view := t, lines := lines } :: ls), s)

/-- The tag checks of the lanes (R72, R172): the fault of the lowest lane, or each lane's deferred fault. -/
def laneTags (c : Core) (write : Bool) (base : Word) (poison : Nat → Bool) (ls : List Lane) : Except Exc (List (Option Touch)) :=
  match ls with
  | [] => .ok []
  | l :: r =>
    match tagCheck c write base l.va (poison l.num) (touches l.view l.parts) with
    | .error e => .error e
    | .ok d =>
      match laneTags c write base poison r with
      | .error e => .error e
      | .ok ds => .ok (d :: ds)

/-- What both directions do before any lane is performed (R172): translation of every lane, what each lane sees, the tag checks. -/
def State.vecFront (s : State) (lc : Nat) (write : Bool) (base : Word) (a : VAcc) (poison : Nat → Bool) :
    MRes (List Lane × List (Option Touch)) :=
  match s.xlatParts lc { fetch := false, write := write } .typeFault (a.lanes.flatMap (fun l => pageParts l.2 a.size)) [] [] with
  | (.error f, s) => (.error f, s)
  | (.ok ps, s) =>
    match s.laneViews lc write (laneParts a.size a.lanes ps) with
    | (.error f, s) => (.error f, s)
    | (.ok ls, s) =>
      match laneTags (s.core lc) write base poison ls with
      | .error e => (.error (.exc e), s)
      | .ok ds => (.ok (ls, ds), s)

/-- The lines that lanes read from the caches, each once. -/
def laneLines (ls : List Lane) : List Nat :=
  ls.foldl (fun acc l => l.lines.foldl (fun acc x => if acc.contains x then acc else acc ++ [x]) acc) []

/-- The deferred faults, splits and lines of the lanes of a vector access at its retirement. -/
def State.vecRetire (s : State) (lc : Nat) (write : Bool) (a : VAcc) (ls : List Lane) (ds : List (Option Touch)) : State :=
  let s := s.addEvs lc (a.lanes.flatMap (fun l => splitEvents l.2 a.size))
  let s := ds.foldl (fun (s : State) d => s.deferTag lc write d) s
  s.retireLines lc (laneLines ls)

/-- A vector load: the active lanes as LD.D or zero-extended, the others kept or cleared (R164, R171). -/
def State.vecLoad (s : State) (lc : Nat) (base : Word) (a : VAcc) : MRes Bool :=
  match s.vecFront lc false base a (fun _ => false) with
  | (.error f, s) => (.error f, s)
  | (.ok (ls, ds), s) =>
    let s := s.addEvs lc ((s.core lc).missEvents (laneLines ls))
    let s := s.vecRetire lc false a ls ds
    let c := s.core lc
    let c := foldN 8 (fun (c : Core) i =>
      match ls.find? (fun l => l.num == i) with
      | some l => c.setV a.reg i (loadResult c.pl (if a.size = 8 then .whole else .zx) a.size l.view l.parts)
      | none => if a.zero then c.setV a.reg i Word.zero else c) c
    (.ok false, (s.setCore lc c.advance).addEvs lc [0x005])

/-- A vector store: the active lanes in ascending order, so that a higher lane's bytes remain (R172), each in a store-buffer entry of its
own (Table 7-1). -/
def State.vecStore (s : State) (lc : Nat) (base : Word) (a : VAcc) : MRes Bool :=
  let c := s.core lc
  let w := fun (i : Nat) => stWord c.pl false (c.getV a.reg i)
  match s.vecFront lc true base a (fun i => (w i).isPoison) with
  | (.error f, s) => (.error f, s)
  | (.ok (ls, ds), s) =>
    match s.sbMake lc ls.length with
    | (false, s) => (.error .stall, s)
    | (true, s) =>
      let s := s.sbPut lc (ls.map (fun l => storeEntry (s.core lc) l.view l.parts a.size (w l.num) a.weak))
      let s := s.vecRetire lc true a ls ds
      (.ok false, (s.setCore lc (s.core lc).advance).addEvs lc [0x006])

/-- VLD and VST, the I12 forms: all eight lanes, 64-bit, ordered (R163). -/
def State.vecImm (s : State) (lc : Nat) (o : IOp) (store : Bool) : MRes Bool :=
  let base := (s.core lc).getG o.ra
  if base.isPoison then (.error (.exc (Exc.poison (wordCode base))), s)
  else
    let a : VAcc :=
      { reg := o.rd, lanes := (List.range 8).map (fun i => (i, formAddr base.val (simm12 o.imm + v64 (8 * i)))),
        size := 8, weak := false, zero := false }
    if store then s.vecStore lc base a else s.vecLoad lc base a

/-- How the R forms place their lanes (Table 5-13): contiguous, by a stride, or by an index lane. -/
inductive VForm where
  | cont | stride | index
  deriving DecidableEq, Repr

/-- The bytes of a lane by ES (Table 5-10). -/
def esBytes (es : Nat) : Nat := 8 / 2 ^ es

/-- The R forms: fields that must be 0, poison address operands, the governing predicate, then the access. -/
def State.vecReg (s : State) (lc : Nat) (o : ROp) (f : VForm) (store : Bool) : MRes Bool :=
  let c := s.core lc
  let base := c.getG o.ra
  let pn : BitVec 3 := o.md.extractLsb' 4 3
  let es := field (v64 o.md.toNat) 2 2
  let weak := o.md.getLsbD 1
  let z := o.md.getLsbD 0
  let active := (List.range 8).filter (fun i => (c.getP pn).getLsbD i)
  let addrs := match f with
    | .cont => [base]
    | .stride => [base, c.getG o.rb]
    | .index => base :: active.map (fun i => c.getV o.rb i)
  if (f = .cont ∧ (o.rb ≠ 0 ∨ es ≠ 0)) ∨ (store ∧ z) then (.error (.exc .illegal), s)
  else
    match firstPoison addrs with
    | some code => (.error (.exc (Exc.poison code.toNat)), s)
    | none =>
      if c.getPZ pn ≠ 0 then (.error (.exc (Exc.poison (c.getPZ pn).toNat)), s)
      else
        let off := fun (i : Nat) => match f with
          | .cont => v64 (8 * i)
          | .stride => v64 i * (c.getG o.rb).val
          | .index => (c.getV o.rb i).val
        let a : VAcc :=
          { reg := o.rd, lanes := active.map (fun i => (i, formAddr base.val (off i))), size := esBytes es, weak := weak, zero := z }
        if store then s.vecStore lc base a else s.vecLoad lc base a

end Sys2Proof.Machine
end

