-- ==== Sys2Proof/Machine/CoreVecMem.lean ====
section
/-! DEFINITION. Vector memory instructions (class 0xE). -/
set_option autoImplicit false
namespace Sys2Proof.Machine

/-- VLD (Table 5-13). -/
def execVld (lc : Nat) (o : IOp) (s : State) : Host.Outcome State Fault Refusal :=
  .next (s.runInstr lc (fun (s : State) => s.vecImm lc o false))

/-- VST (Table 5-13). -/
def execVst (lc : Nat) (o : IOp) (s : State) : Host.Outcome State Fault Refusal :=
  .next (s.runInstr lc (fun (s : State) => s.vecImm lc o true))

/-- VLDP (Table 5-13, R171, R172). -/
def execVldp (lc : Nat) (o : ROp) (s : State) : Host.Outcome State Fault Refusal :=
  .next (s.runInstr lc (fun (s : State) => s.vecReg lc o .cont false))

/-- VSTP (Table 5-13, R171, R172). -/
def execVstp (lc : Nat) (o : ROp) (s : State) : Host.Outcome State Fault Refusal :=
  .next (s.runInstr lc (fun (s : State) => s.vecReg lc o .cont true))

/-- VLDS (Table 5-13, R171, R172). -/
def execVlds (lc : Nat) (o : ROp) (s : State) : Host.Outcome State Fault Refusal :=
  .next (s.runInstr lc (fun (s : State) => s.vecReg lc o .stride false))

/-- VSTS (Table 5-13, R171, R172). -/
def execVsts (lc : Nat) (o : ROp) (s : State) : Host.Outcome State Fault Refusal :=
  .next (s.runInstr lc (fun (s : State) => s.vecReg lc o .stride true))

/-- VLDX (Table 5-13, R171, R172). -/
def execVldx (lc : Nat) (o : ROp) (s : State) : Host.Outcome State Fault Refusal :=
  .next (s.runInstr lc (fun (s : State) => s.vecReg lc o .index false))

/-- VSTX (Table 5-13, R171, R172). -/
def execVstx (lc : Nat) (o : ROp) (s : State) : Host.Outcome State Fault Refusal :=
  .next (s.runInstr lc (fun (s : State) => s.vecReg lc o .index true))

end Sys2Proof.Machine
end

