-- ==== Sys2Proof/Machine/CtlCmds.lean ====
section
/-! DEFINITION. The control space and counter rounds as commands (02_control_space.md, 12_mesh_trellis.md, 16_walled_world.md, 18_counters_probes.md). -/
set_option autoImplicit false
namespace Sys2Proof.Machine

/-- The control-space offset of a guarded register (R51): ERB_INJ_CTL of a node, or WW_WDOG_KICK. -/
def guardKey (node : Option (Nat × Nat)) : Nat :=
  match node with
  | some (d, u) => regKey d u ERB_INJ_CTL []
  | none => regKey 15 2 WW_WDOG_KICK []

/-- The trace buffer of a stop emptied: the next entry goes to place 0 (R558). -/
def State.traceClear (s : State) (die st : Nat) : State :=
  (s.stopSet die st CNT_TRC_CTL CNT_TRC_CTL CNT_TRC_CTL_I [] CNT_TRC_CTL_FULL 0).stopSet die st CNT_TRC_CTL CNT_TRC_CTL CNT_TRC_CTL_I []
    CNT_TRC_CTL_PTR 0

/-- A root broadcast write of the register at an offset of every node of the kind of a node (R395, R396). -/
def execBwr (die unit off : Nat) (v : BitVec 64) (s : State) : Host.Outcome State Fault Refusal :=
  .next (s.broadcast die unit off v)

/-- A write of a control-space register (R41 to R56); `crc` as ctlAccess has it (R397). -/
def execRegisterWrite (w : CtlWho) (off size : Nat) (v : BitVec 64) (crc : Nat) (s : State) : Host.Outcome State Fault Refusal :=
  .next (s.ctlAccess w off size (some v) crc)

/-- A read of a control-space register (R42, R43, R48); `crc` as ctlAccess has it (R397). -/
def execRegisterRead (w : CtlWho) (off size crc : Nat) (s : State) : Host.Outcome State Fault Refusal :=
  .next (s.ctlAccess w off size none crc)

/-- An access without a completion (R44). -/
def execTrellisTimeout (w : CtlWho) (off : Nat) (write : Bool) (s : State) : Host.Outcome State Fault Refusal :=
  .next (s.trellisTimeout w off write)

/-- A replay on a node's link (R397, R584); `fails` counts the replays of the beat that have failed. -/
def execTrellisReplay (die unit fails : Nat) (s : State) : Host.Outcome State Fault Refusal :=
  .next (s.trellisReplay die unit fails)

/-- A write of 1 to TRL_NODE_CTL.SNAP (R50). -/
def execSnap (w : CtlWho) (die unit : Nat) (s : State) : Host.Outcome State Fault Refusal :=
  .next (s.ctlPut w die unit TRL_NODE_CTL [] 1)

/-- A SNAP ends, or finds its clock stopped (R50). -/
def execSnapDone (die unit : Nat) (stopped : Bool) (s : State) : Host.Outcome State Fault Refusal :=
  .next (s.snapDone die unit stopped)

/-- A write of 1 to TRL_NODE_CTL.LOCK (R54). -/
def execLock (w : CtlWho) (die unit : Nat) (s : State) : Host.Outcome State Fault Refusal :=
  .next (s.ctlPut w die unit TRL_NODE_CTL [] 2)

/-- The first write of a guarded pair, at G (R51, R52). -/
def execGuardArm (w : CtlWho) (node : Option (Nat × Nat)) (v : BitVec 64) (s : State) : Host.Outcome State Fault Refusal :=
  .next (s.ctlAccess w (guardKey node) 8 (some v) 0)

/-- The second write of a guarded pair, at G + 8 (R51, R52). -/
def execGuardCommit (w : CtlWho) (node : Option (Nat × Nat)) (v : BitVec 64) (s : State) : Host.Outcome State Fault Refusal :=
  .next (s.ctlAccess w (guardKey node + 8) 8 (some v) 0)

/-- The window of an armed pair passes (R52). -/
def execGuardWindowExpiry (node : Option (Nat × Nat)) (s : State) : Host.Outcome State Fault Refusal :=
  .next (s.guardExpire (guardKey node))

/-- A write of 1 to TRL_BUSERR_INFO.VALID (R56). -/
def execBuserrClear (w : CtlWho) (s : State) : Host.Outcome State Fault Refusal :=
  .next (s.ctlPut w 15 0 TRL_BUSERR_INFO [] (v64 (2 ^ 63)))

/-- A write of WW_RANGEn (R497, R504). -/
def execWwRangeWrite (w : CtlWho) (n : Nat) (v : BitVec 64) (s : State) : Host.Outcome State Fault Refusal :=
  onUnit (n < 16) (s.ctlPut w 15 2 WW_RANGE [n] v)

/-- A write of WW_CTL (R502, R504). -/
def execMoncoreWrite (w : CtlWho) (v : BitVec 64) (s : State) : Host.Outcome State Fault Refusal :=
  .next (s.ctlPut w 15 2 WW_CTL [] v)

/-- A write of WW_WDOG_CTL with EN set (R508). -/
def execWatchdogStart (w : CtlWho) (v : BitVec 64) (s : State) : Host.Outcome State Fault Refusal :=
  .next (s.ctlPut w 15 2 WW_WDOG_CTL [] (setBit v 0 true))

/-- A write of GH_MEXT_CTL with GO set (R567). -/
def execMeasurementExtend (w : CtlWho) (slot : Nat) (s : State) : Host.Outcome State Fault Refusal :=
  .next (s.ctlPut w 15 1 GH_MEXT_CTL [] (v64 (slot % 16 + 16)))

/-- The root comes to announce a round; on a following socket the one that socket 0 commands (R551, R552, R556). -/
def execRound (remote : Option (Nat × Nat)) (s : State) : Host.Outcome State Fault Refusal :=
  .next (s.round remote)

/-- Every unit latches its counters at the tick and writes its record, but for the units named (R552 to R555). -/
def execRoundLatch (late : List Nat) (s : State) : Host.Outcome State Fault Refusal :=
  .next (s.roundLatch late)

/-- The root writes the header of a round (R554). -/
def execRoundHeaderWrite (s : State) : Host.Outcome State Fault Refusal :=
  .next (s.roundHeader)

/-- CNT_TRC_CTL.CLEAR of a stop: the trace buffer is emptied and FULL cleared (R558). -/
def execClear (die st : Nat) (s : State) : Host.Outcome State Fault Refusal :=
  onUnit (die < 10) (s.traceClear die st)

end Sys2Proof.Machine
end

