-- ==== Sys2Proof/Machine/CoreBranch.lean ====
section
/-! DEFINITION. Branches of a core as they retire: the jump itself is Alu's, and here stand its updates of the predictor (R222 to
R226, Table 4-16) and the events it counts. -/
set_option autoImplicit false
namespace Sys2Proof.Machine

/-- The dimensions of Table 7-3 and Table 7-1. -/
def corePred : PredDims :=
  { base := 16384, tagged := 2048, hist := [(4, 10), (9, 10), (18, 11), (36, 11), (72, 12), (144, 12)], btb := 4096, ras := 64 }

/-- The kinds of branch (Table 7-4), with what the predictor needs of each. -/
inductive BrKind where
  | cond (hint taken : Bool)
  | direct (call : Bool)
  | jrl (rd ra : BitVec 5)
  | ret

/-- The target that the target buffer holds for a branch. -/
def Predictor.btbHit (p : Predictor) (pc : Nat) : Option Nat :=
  match tfind p.btb (pc / 4 % 4096) with
  | some x => if x / 2 ^ 58 = pc then some (x % 2 ^ 58) else none
  | none => none

/-- Whether a branch that goes on at `next` was mispredicted (R222, R223). -/
def Predictor.missed (p : Predictor) (k : BrKind) (pc next : Nat) : Bool :=
  let btbBad := match p.btbHit pc with
    | some t => t != next
    | none => false
  match k with
  | .cond hint taken => p.predict corePred pc hint != taken || (taken && btbBad)
  | .direct _ => btbBad
  | .jrl _ _ => btbBad
  | .ret => match p.ras with
    | t :: _ => t != next
    | [] => btbBad

/-- The predictor after a branch retires (R224, Table 4-16). -/
def Predictor.retired (p : Predictor) (k : BrKind) (pc next : Nat) : Predictor :=
  match k with
  | .cond hint taken =>
    let p := p.branch corePred pc hint taken
    if taken then p.target corePred pc next else p
  | .direct call =>
    let p := p.target corePred pc next
    if call then p.call corePred (pcAdd pc 4) else p
  | .jrl rd ra =>
    let p := p.target corePred pc next
    if rd ≠ 31 then p
    else if ra = 31 then p.ret.call corePred (pcAdd pc 4)
    else p.call corePred (pcAdd pc 4)
  | .ret => p.ret.target corePred pc next

/-- The frame of a branch: the jump, its predictor updates and its events. -/
def runBranch (lc : Nat) (kind : Core → BrKind) (f : Core → CoreRes) (s : State) : Host.Outcome State Fault Refusal :=
  .next (s.runInstr lc (fun (s : State) =>
    let c := s.core lc
    match f c with
    | .error e => (.error (.exc e), s)
    | .ok c' =>
      let k := kind c
      let misp := if c.pred.missed k c.pc c'.pc then [0x004, 0x081] else []
      (.ok false, s.setCore lc { c' with pred := c.pred.retired k c.pc c'.pc, evs := c'.evs ++ 0x003 :: misp })))

/-- Whether BT or BF of pn branches. -/
def condTaken (want : Bool) (n : BitVec 3) (c : Core) : Bool := (c.getP n).getLsbD 0 == want

/-- B and BL: the link of BL (R127), and the jump. -/
def branchAlways (link : Bool) (off : BitVec 22) (c : Core) : CoreRes :=
  let t := branchTarget c.pc off
  .ok (if link then { c.setG 31 (Word.data (v64 (pcAdd c.pc 4))) with pc := t } else { c with pc := t })

/-- JRL with the fields of its word: RB and MOD must be 0 (R123). -/
def jrlOp (o : ROp) (c : Core) : CoreRes :=
  if o.rb ≠ 0 ∨ o.md ≠ 0 then .error .illegal else jumpReg (some o.rd) o.ra c

/-- RET: RD, RB and MOD must be 0 (R123). -/
def retOp (o : ROp) (c : Core) : CoreRes :=
  if o.rd ≠ 0 ∨ o.rb ≠ 0 ∨ o.md ≠ 0 then .error .illegal else jumpReg none o.ra c

/-- LI, ADDPC and ADDPC.H: a data-class result (R113, R114). -/
def immPc (o : I17Op) (f : Nat → BitVec 64) (c : Core) : CoreRes := .ok (c.finish o.rd (Word.data (f c.pc)))

/-- MOVK.k (R113, R114): IMM17[16] must be 0; gd is an operand. -/
def movkOp (k : BitVec 2) (o : I17Op) (c : Core) : CoreRes :=
  let d := c.getG o.rd
  if o.imm.toNat ≥ 65536 then .error .illegal
  else .ok (c.finish o.rd (withPoison [d] (Word.data (movk d.val k.toNat o.imm.toNat))))

/-- MOV (R112): all 72 bits; a system class becomes data at PL0 (R65). -/
def movOp (o : ROp) (c : Core) : CoreRes := aluR o false true (fun _ _ => none) (fun a _ => moved c.pl a) c

end Sys2Proof.Machine
end

