-- ==== Sys2Proof/Machine/Integer.lean ====
section
/-! DEFINITION. Meanings of the integer instructions (04_ecyen_encoding_integer.md): classes 0x1 to 0x5. -/
set_option autoImplicit false
namespace Sys2Proof.Machine

/-- ADD (R109, R110, R112). -/
def execAdd (lc : Nat) (o : ROp) (s : State) : Host.Outcome State Fault Refusal :=
  runCore lc (aluO o addOvf addWords) s

/-- SUB (R109, R110). -/
def execSub (lc : Nat) (o : ROp) (s : State) : Host.Outcome State Fault Refusal :=
  runCore lc (aluO o subOvf (fun a b => Word.data (a.val - b.val))) s

/-- ADDW (R109, R110). -/
def execAddw (lc : Nat) (o : ROp) (s : State) : Host.Outcome State Fault Refusal :=
  runCore lc (aluO o addwOvf (fun a b => Word.data (sext32 (a.val + b.val)))) s

/-- SUBW (R109, R110). -/
def execSubw (lc : Nat) (o : ROp) (s : State) : Host.Outcome State Fault Refusal :=
  runCore lc (aluO o subwOvf (fun a b => Word.data (sext32 (a.val - b.val)))) s

/-- AND (R109). -/
def execAnd (lc : Nat) (o : ROp) (s : State) : Host.Outcome State Fault Refusal :=
  runCore lc (aluV o (fun a b => a &&& b)) s

/-- OR (R109). -/
def execOr (lc : Nat) (o : ROp) (s : State) : Host.Outcome State Fault Refusal :=
  runCore lc (aluV o (fun a b => a ||| b)) s

/-- XOR (R109). -/
def execXor (lc : Nat) (o : ROp) (s : State) : Host.Outcome State Fault Refusal :=
  runCore lc (aluV o (fun a b => a ^^^ b)) s

/-- ANDN (R109). -/
def execAndn (lc : Nat) (o : ROp) (s : State) : Host.Outcome State Fault Refusal :=
  runCore lc (aluV o (fun a b => a &&& ~~~ b)) s

/-- ORN (R109). -/
def execOrn (lc : Nat) (o : ROp) (s : State) : Host.Outcome State Fault Refusal :=
  runCore lc (aluV o (fun a b => a ||| ~~~ b)) s

/-- XNOR (R109). -/
def execXnor (lc : Nat) (o : ROp) (s : State) : Host.Outcome State Fault Refusal :=
  runCore lc (aluV o (fun a b => ~~~ (a ^^^ b))) s

/-- MIN (R109). -/
def execMin (lc : Nat) (o : ROp) (s : State) : Host.Outcome State Fault Refusal :=
  runCore lc (aluV o minS) s

/-- MAX (R109). -/
def execMax (lc : Nat) (o : ROp) (s : State) : Host.Outcome State Fault Refusal :=
  runCore lc (aluV o maxS) s

/-- MINU (R109). -/
def execMinu (lc : Nat) (o : ROp) (s : State) : Host.Outcome State Fault Refusal :=
  runCore lc (aluV o minU) s

/-- MAXU (R109). -/
def execMaxu (lc : Nat) (o : ROp) (s : State) : Host.Outcome State Fault Refusal :=
  runCore lc (aluV o maxU) s

/-- MUL (R109, R110). -/
def execMul (lc : Nat) (o : ROp) (s : State) : Host.Outcome State Fault Refusal :=
  runCore lc (aluO o mulOvf (fun a b => Word.data (a.val * b.val))) s

/-- MULH (R109). -/
def execMulh (lc : Nat) (o : ROp) (s : State) : Host.Outcome State Fault Refusal :=
  runCore lc (aluV o mulh) s

/-- MULHU (R109). -/
def execMulhu (lc : Nat) (o : ROp) (s : State) : Host.Outcome State Fault Refusal :=
  runCore lc (aluV o mulhu) s

/-- MULHSU (R109). -/
def execMulhsu (lc : Nat) (o : ROp) (s : State) : Host.Outcome State Fault Refusal :=
  runCore lc (aluV o mulhsu) s

/-- MULW (R109, R110). -/
def execMulw (lc : Nat) (o : ROp) (s : State) : Host.Outcome State Fault Refusal :=
  runCore lc (aluO o mulwOvf (fun a b => Word.data (sext32 (a.val * b.val)))) s

/-- DIV (R109 to R111). -/
def execDiv (lc : Nat) (o : ROp) (s : State) : Host.Outcome State Fault Refusal :=
  runCore lc (aluD o divOvf divS) s

/-- DIVU (R109 to R111). -/
def execDivu (lc : Nat) (o : ROp) (s : State) : Host.Outcome State Fault Refusal :=
  runCore lc (aluD o (fun _ _ => false) divU) s

/-- REM (R109 to R111). -/
def execRem (lc : Nat) (o : ROp) (s : State) : Host.Outcome State Fault Refusal :=
  runCore lc (aluD o (fun _ _ => false) remS) s

/-- REMU (R109 to R111). -/
def execRemu (lc : Nat) (o : ROp) (s : State) : Host.Outcome State Fault Refusal :=
  runCore lc (aluD o (fun _ _ => false) remU) s

/-- ADDI (R113, R114). -/
def execAddi (lc : Nat) (o : IOp) (s : State) : Host.Outcome State Fault Refusal :=
  runCore lc (immI o (fun a i => addWords a (Word.data i))) s

/-- ADDIW (R113). -/
def execAddiw (lc : Nat) (o : IOp) (s : State) : Host.Outcome State Fault Refusal :=
  runCore lc (immI o (fun a i => Word.data (sext32 (a.val + i)))) s

/-- ANDI (R113). -/
def execAndi (lc : Nat) (o : IOp) (s : State) : Host.Outcome State Fault Refusal :=
  runCore lc (immI o (fun a i => Word.data (a.val &&& i))) s

/-- ORI (R113). -/
def execOri (lc : Nat) (o : IOp) (s : State) : Host.Outcome State Fault Refusal :=
  runCore lc (immI o (fun a i => Word.data (a.val ||| i))) s

/-- XORI (R113). -/
def execXori (lc : Nat) (o : IOp) (s : State) : Host.Outcome State Fault Refusal :=
  runCore lc (immI o (fun a i => Word.data (a.val ^^^ i))) s

/-- LI (R113). -/
def execLi (lc : Nat) (o : I17Op) (s : State) : Host.Outcome State Fault Refusal :=
  runCore lc (immPc o (fun _ => simm17 o.imm)) s

/-- ADDPC (R113, R114). -/
def execAddpc (lc : Nat) (o : I17Op) (s : State) : Host.Outcome State Fault Refusal :=
  runCore lc (immPc o (fun pc => v64 ((v64 pc + simm17 o.imm * 4).toNat % 2 ^ 58))) s

/-- ADDPC.H (R113, R114). -/
def execAddpcH (lc : Nat) (o : I17Op) (s : State) : Host.Outcome State Fault Refusal :=
  runCore lc (immPc o (fun pc => v64 ((v64 (pc / 4096 * 4096) + simm17 o.imm * 4096).toNat % 2 ^ 58))) s

/-- MOVK.k (R113, R114). -/
def execMovk (lc : Nat) (k : BitVec 2) (o : I17Op) (s : State) : Host.Outcome State Fault Refusal :=
  runCore lc (movkOp k o) s

/-- MOV (R109, R112). -/
def execMov (lc : Nat) (o : ROp) (s : State) : Host.Outcome State Fault Refusal :=
  runCore lc (movOp o) s

/-- CLZ (R109). -/
def execClz (lc : Nat) (o : ROp) (s : State) : Host.Outcome State Fault Refusal :=
  runCore lc (aluU o clz64) s

/-- CTZ (R109). -/
def execCtz (lc : Nat) (o : ROp) (s : State) : Host.Outcome State Fault Refusal :=
  runCore lc (aluU o ctz64) s

/-- POPC (R109). -/
def execPopc (lc : Nat) (o : ROp) (s : State) : Host.Outcome State Fault Refusal :=
  runCore lc (aluU o pop64) s

/-- REV (R109). -/
def execRev (lc : Nat) (o : ROp) (s : State) : Host.Outcome State Fault Refusal :=
  runCore lc (aluU o rev64) s

/-- SHL (R115, R116). -/
def execShl (lc : Nat) (o : ROp) (s : State) : Host.Outcome State Fault Refusal :=
  runCore lc (shiftR o shl64 (fun b => b.toNat % 64)) s

/-- SHR (R115, R116). -/
def execShr (lc : Nat) (o : ROp) (s : State) : Host.Outcome State Fault Refusal :=
  runCore lc (shiftR o shr64 (fun b => b.toNat % 64)) s

/-- SRA (R115, R116). -/
def execSra (lc : Nat) (o : ROp) (s : State) : Host.Outcome State Fault Refusal :=
  runCore lc (shiftR o sra64 (fun b => b.toNat % 64)) s

/-- ROR (R115, R116). -/
def execRor (lc : Nat) (o : ROp) (s : State) : Host.Outcome State Fault Refusal :=
  runCore lc (shiftR o ror64 (fun b => b.toNat % 64)) s

/-- SHLW (R115, R116). -/
def execShlw (lc : Nat) (o : ROp) (s : State) : Host.Outcome State Fault Refusal :=
  runCore lc (shiftR o shlw (fun b => b.toNat % 32)) s

/-- SHRW (R115, R116). -/
def execShrw (lc : Nat) (o : ROp) (s : State) : Host.Outcome State Fault Refusal :=
  runCore lc (shiftR o shrw (fun b => b.toNat % 32)) s

/-- SRAW (R115, R116). -/
def execSraw (lc : Nat) (o : ROp) (s : State) : Host.Outcome State Fault Refusal :=
  runCore lc (shiftR o sraw (fun b => b.toNat % 32)) s

/-- SHLI (R115). -/
def execShli (lc : Nat) (o : ROp) (s : State) : Host.Outcome State Fault Refusal :=
  runCore lc (shiftI o 6 shl64) s

/-- SHRI (R115). -/
def execShri (lc : Nat) (o : ROp) (s : State) : Host.Outcome State Fault Refusal :=
  runCore lc (shiftI o 6 shr64) s

/-- SRAI (R115). -/
def execSrai (lc : Nat) (o : ROp) (s : State) : Host.Outcome State Fault Refusal :=
  runCore lc (shiftI o 6 sra64) s

/-- RORI (R115). -/
def execRori (lc : Nat) (o : ROp) (s : State) : Host.Outcome State Fault Refusal :=
  runCore lc (shiftI o 6 ror64) s

/-- SHLIW (R115). -/
def execShliw (lc : Nat) (o : ROp) (s : State) : Host.Outcome State Fault Refusal :=
  runCore lc (shiftI o 5 shlw) s

/-- SHRIW (R115). -/
def execShriw (lc : Nat) (o : ROp) (s : State) : Host.Outcome State Fault Refusal :=
  runCore lc (shiftI o 5 shrw) s

/-- SRAIW (R115). -/
def execSraiw (lc : Nat) (o : ROp) (s : State) : Host.Outcome State Fault Refusal :=
  runCore lc (shiftI o 5 sraw) s

/-- EXT (R117). -/
def execExt (lc : Nat) (o : IOp) (s : State) : Host.Outcome State Fault Refusal :=
  runCore lc (extOp o extU) s

/-- EXTS (R117). -/
def execExts (lc : Nat) (o : IOp) (s : State) : Host.Outcome State Fault Refusal :=
  runCore lc (extOp o extS) s

/-- INS (R117). -/
def execIns (lc : Nat) (o : IOp) (s : State) : Host.Outcome State Fault Refusal :=
  runCore lc (insOp o) s

/-- CMP.cc (R118 to R120). -/
def execCmpCc (lc : Nat) (cc : BitVec 3) (o : ROp) (s : State) : Host.Outcome State Fault Refusal :=
  runCore lc (cmpG cc o) s

/-- CMPI.cc. -/
def execCmpiCc (lc : Nat) (cc : BitVec 3) (o : IOp) (s : State) : Host.Outcome State Fault Refusal :=
  runCore lc (cmpiG cc o) s

/-- CMPP.cc (R120). -/
def execCmppCc (lc : Nat) (cc : BitVec 3) (o : ROp) (s : State) : Host.Outcome State Fault Refusal :=
  runCore lc (cmppG cc o) s

/-- CMPPI.cc. -/
def execCmppiCc (lc : Nat) (cc : BitVec 3) (o : IOp) (s : State) : Host.Outcome State Fault Refusal :=
  runCore lc (cmppiG cc o) s

/-- SEL (R121). -/
def execSel (lc : Nat) (o : ROp) (s : State) : Host.Outcome State Fault Refusal :=
  runCore lc (selG o) s

/-- PAND (R122). -/
def execPand (lc : Nat) (o : ROp) (s : State) : Host.Outcome State Fault Refusal :=
  runCore lc (predOp o (fun a b => a &&& b)) s

/-- POR (R122). -/
def execPor (lc : Nat) (o : ROp) (s : State) : Host.Outcome State Fault Refusal :=
  runCore lc (predOp o (fun a b => a ||| b)) s

/-- PXOR (R122). -/
def execPxor (lc : Nat) (o : ROp) (s : State) : Host.Outcome State Fault Refusal :=
  runCore lc (predOp o (fun a b => a ^^^ b)) s

/-- PANDN (R122). -/
def execPandn (lc : Nat) (o : ROp) (s : State) : Host.Outcome State Fault Refusal :=
  runCore lc (predOp o (fun a b => a &&& ~~~ b)) s

/-- MOVP (R122). -/
def execMovp (lc : Nat) (o : ROp) (s : State) : Host.Outcome State Fault Refusal :=
  runCore lc (movpG o) s

/-- PMOV (R122). -/
def execPmov (lc : Nat) (o : ROp) (s : State) : Host.Outcome State Fault Refusal :=
  runCore lc (pmovG o) s

/-- BT (R123, R124). -/
def execBt (lc : Nat) (n : BitVec 3) (h : Bool) (off : BitVec 22) (s : State) : Host.Outcome State Fault Refusal :=
  runBranch lc (fun c => .cond h (condTaken true n c)) (condBranch true n off) s

/-- BF (R123, R124). -/
def execBf (lc : Nat) (n : BitVec 3) (h : Bool) (off : BitVec 22) (s : State) : Host.Outcome State Fault Refusal :=
  runBranch lc (fun c => .cond h (condTaken false n c)) (condBranch false n off) s

/-- B (R123). -/
def execB (lc : Nat) (off : BitVec 22) (s : State) : Host.Outcome State Fault Refusal :=
  runBranch lc (fun _ => .direct false) (branchAlways false off) s

/-- BL (R123, R127). -/
def execBl (lc : Nat) (off : BitVec 22) (s : State) : Host.Outcome State Fault Refusal :=
  runBranch lc (fun _ => .direct true) (branchAlways true off) s

/-- JRL (R126, R127). -/
def execJrl (lc : Nat) (o : ROp) (s : State) : Host.Outcome State Fault Refusal :=
  runBranch lc (fun _ => .jrl o.rd o.ra) (jrlOp o) s

/-- RET (R126). -/
def execRet (lc : Nat) (o : ROp) (s : State) : Host.Outcome State Fault Refusal :=
  runBranch lc (fun _ => .ret) (retOp o) s

end Sys2Proof.Machine
end

