-- ==== Sys2Proof/Machine/IoCmds.lean ====
section
/-! DEFINITION. I/O commands: inbound requests, configuration, function level reset, invalidation, hot-plug and links (15_io_root_complex.md). -/
set_option autoImplicit false
namespace Sys2Proof.Machine

/-- R465: a configuration request; the answer of a read goes to its sender. -/
def State.cfgRequest (s : State) (rid d : Nat) (write : Option (BitVec 32)) (be : Nat) (walled : Bool) : State :=
  match write with
  | some v => s.cfgWrite rid d v (be % 16) walled
  | none =>
    match s.cfgTarget rid with
    | .below rp => (s.mmioAsk .config rp (rid * 4096 + 4 * d) 4 true).2
    | .fn => s.emit (.cfg rid d (s.cfgGet rid d))
    | .absent => s.emit (.cfg rid d 0xFFFFFFFF)

/-- R463: requests that the root ports do not support. -/
def State.pcieMessage (s : State) (rp rid kind : Nat) : State :=
  if !s.rpRuns rp then s
  else
    match kind with
    | 0 => s.pkgWake.rpAer rp 20
    | 1 => s.pkgWake
    | _ => s.pkgWake.emit (.tlpCompletion rid 1 [] false)

/-- An untranslated memory request at a root port (R477), classified after its translation (R467, R478). -/
def execTlpMemoryRequest (t : Tlp) (s : State) : Host.Outcome State Fault Refusal :=
  onUnit (t.rp < 40) (s.tlpArrive t false)

/-- A translated memory request (R478). -/
def execTranslatedRequest (t : Tlp) (s : State) : Host.Outcome State Fault Refusal :=
  onUnit (t.rp < 40) (s.tlpArrive t true)

/-- An ATS Translation Request (R478). -/
def execTranslationRequest (rp rid : Nat) (pasid : Option Nat) (addr : Nat) (s : State) : Host.Outcome State Fault Refusal :=
  onUnit (rp < 40) (s.translationReq rp rid pasid addr)

/-- A configuration read or write of a dword with its byte enables (R465, R496). -/
def execConfigurationRequest (rid d : Nat) (write : Option (BitVec 32)) (be : Nat) (walled : Bool) (s : State) : Host.Outcome State Fault Refusal :=
  onUnit (rid < 65536 ∧ d < 1024) (s.cfgRequest rid d write be walled)

/-- A configuration write that clears Bus Master Enable (R484, R485). -/
def execBmeClear (rid : Nat) (walled : Bool) (s : State) : Host.Outcome State Fault Refusal :=
  onUnit (rid < 65536) (s.bmeClear rid walled)

/-- A function level reset begins (R486). -/
def execFlr (rid : Nat) (s : State) : Host.Outcome State Fault Refusal :=
  onUnit (rid < 65536) (s.flrStart rid)

/-- The requests of a function in FLR have ended: steps 3 to 5 of R486. -/
def execFlrDone (rid : Nat) (s : State) : Host.Outcome State Fault Refusal :=
  onUnit (rid < 65536) (s.flrDone rid)

/-- IOM_INV ADDR over the range of 2^bits bytes at a (R480). -/
def execAddr (i rid : Nat) (pasid : Option Nat) (a bits : Nat) (s : State) : Host.Outcome State Fault Refusal :=
  onUnit (i < 2) (s.invCommand i 1 rid pasid (some (a, bits)))

/-- IOM_INV FUNCTION (R480). -/
def execFunction (i rid : Nat) (pasid : Option Nat) (s : State) : Host.Outcome State Fault Refusal :=
  onUnit (i < 2) (s.invCommand i 2 rid pasid none)

/-- IOM_INV SYNC (R479, R480). -/
def execSync (i : Nat) (s : State) : Host.Outcome State Fault Refusal :=
  onUnit (i < 2) (s.invCommand i 3 0 none none)

/-- IOM_INV UNBLOCK (R480). -/
def execUnblock (i rid : Nat) (s : State) : Host.Outcome State Fault Refusal :=
  onUnit (i < 2) (s.invCommand i 4 rid none none)

/-- The last ATS invalidation completion of the command in progress (R480). -/
def execInvalidationComplete (i : Nat) (s : State) : Host.Outcome State Fault Refusal :=
  onUnit (i < 2) (s.invCome i)

/-- The invalidation timeout passes (R480). -/
def execAtsTimeout (i : Nat) (s : State) : Host.Outcome State Fault Refusal :=
  onUnit (i < 2) (s.invTimeout i)

/-- An Invalidate Request at a kiosk cluster (R481). -/
def execInvalidateRequest (c : Nat) (range : Option (Nat × Nat)) (pasid : Option Nat) (s : State) : Host.Outcome State Fault Refusal :=
  onUnit (c < 16) (s.atsInval c range pasid)

/-- IOM_PWIN_CTL.COMMIT (R483). -/
def execCommit (i : Nat) (s : State) : Host.Outcome State Fault Refusal :=
  onUnit (i < 2) (s.pwinCommit i)

/-- A completion timeout of the oldest downstream read of a root port (R468). -/
def execMmioCompletionTimeout (rp : Nat) (s : State) : Host.Outcome State Fault Refusal :=
  onUnit (rp < 40) (s.mmioTimeout rp)

/-- A CXL.mem read without a response within the completion timeout (R464). -/
def execCxlTimeout (line : Nat) (s : State) : Host.Outcome State Fault Refusal :=
  .next (s.cxlLate line)

/-- A hot-plug sideband frame of an x16 port (R488, R489). -/
def execHotPlugFrame (port bits : Nat) (s : State) : Host.Outcome State Fault Refusal :=
  onUnit (port < 10) (s.slotFrame port bits)

/-- A Slot Control write (R489). -/
def execSlotControlWrite (rp v : Nat) (s : State) : Host.Outcome State Fault Refusal :=
  onUnit (rp < 40) (s.slotControl rp v)

/-- Eight failed replays in a row on a Footbridge link (R490). -/
def execLinkRetrain (l : Nat) (s : State) : Host.Outcome State Fault Refusal :=
  onUnit (l < 6) (s.fbRetrain l)

/-- The third failed retrain in a row (R494). -/
def execLinkDown (l : Nat) (s : State) : Host.Outcome State Fault Refusal :=
  onUnit (l < 6) (s.fbDown l)

/-- A completion at a root port for a downstream request (R468, R486). -/
def execPcieCompletion (rp status : Nat) (data : List (BitVec 64)) (poisoned : Bool) (s : State) : Host.Outcome State Fault Refusal :=
  onUnit (rp < 40) (s.pcieCompletion rp status data poisoned)

/-- What Table 15-2 does not support: 0 a Page Request, discarded and logged; 1 an INTx message, discarded; 2 an I/O request, completed with Unsupported Request. -/
def execPcieMessage (rp rid kind : Nat) (s : State) : Host.Outcome State Fault Refusal :=
  onUnit (rp < 40 ∧ kind < 3) (s.pcieMessage rp rid kind)

/-- A CXL.mem read response (R80, R82), its lower or upper half marked poisoned. -/
def execCxlMemResponse (line : Nat) (data : List (BitVec 64)) (lo hi : Bool) (s : State) : Host.Outcome State Fault Refusal :=
  .next (s.cxlData line (cxlWords data lo hi))

/-- A root port link trains with a device of a speed and width, or goes down (R463, R489). -/
def execRootPortLinkChange (rp : Nat) (up : Bool) (speed width : Nat) (s : State) : Host.Outcome State Fault Refusal :=
  onUnit (rp < 40) (s.rpLink rp up speed width)

/-- A Footbridge link trains (R490, R492, R493): the far socket and link, the sockets that the peer reaches by one link, and whether the ranges agree. -/
def execFootbridgeLinkTrained (l peer plink near : Nat) (same : Bool) (s : State) : Host.Outcome State Fault Refusal :=
  onUnit (l < 6 ∧ peer < 8 ∧ plink < 6) (s.fbTrained l peer plink near same)

end Sys2Proof.Machine
end

