-- ==== Sys2Proof/Machine/KioskCmds.lean ====
section
/-! DEFINITION. Instructions of the kiosks that reach no memory, and the events of the kiosks (14_kiosk_engines.md). -/
set_option autoImplicit false
namespace Sys2Proof.Machine

/-- The local address of LDL and STL (R436, R440, R441). -/
def State.kLocalAddr (s : State) (k : Nat) (o : KI) : Except KExc Nat :=
  let a := s.kr k o.ra
  let t := (a.val + o.imm.signExtend 64).toNat % 65536
  if a.isPoison then .error (KExc.poison a) else if t % 8 ≠ 0 then .error (KExc.align (v64 t)) else .ok t

/-- A queue operation of a hub kiosk counted when it has been done. -/
def kQop (k : Nat) (f : State → KRes) (s : State) : KRes :=
  match f s with
  | (s, .ok .stay) => (s, .ok .stay)
  | (s, .ok n) => (s.kCount k 4, .ok n)
  | (s, .error e) => (s, .error e)

/-- R450: the oldest fault of the running program's long operations is taken. -/
def State.kImprecise (s : State) (k : Nat) : State :=
  if !s.kRuns k || s.kBegun k then s
  else match (s.ksk k).lfault with
    | some f => s.kTakeFault k f false
    | none => s

/-- R456: an interrupt is taken at an instruction boundary, or while no context runs; a tile kiosk abandons the instruction in M for it, a
hub kiosk lets it complete (R457, R458). -/
def State.kSample (s : State) (k : Nat) : State :=
  if !s.kOn k || !s.kEn k || s.kStat k KSK_STATUS_DFAULT || s.kStat k KSK_STATUS_INTERR ||
      s.kStat k KSK_STATUS_SRAM_CLR || (decide (k ≥ 256) && s.kRuns k && s.kBegun k) then s
  else match (s.ksk k).irq with
    | some c => s.kInterrupt k c
    | none => s

/-- R456: TIMER is set when the timebase has reached KTIMER. -/
def State.kTimer (s : State) (k : Nat) : State :=
  if s.time ≥ ((s.ksk k).kc 7).toNat then s.setKsk k ((s.ksk k).pend 1) else s

/-- R434: dispatch; a late notification is reported to the timed service. -/
def State.kDispatchLate (s : State) (k : Nat) (late : Option Nat) : State :=
  let s' := s.kDispatch k
  match late with
  | some n => if k ≥ 256 ∧ n < 64 ∧ s'.ksk k ≠ s.ksk k then s'.conError n .late else s'
  | none => s'

/-- R442: a wake; the tile of a tile kiosk is woken first (R531). -/
def State.kWakeTile (s : State) (k n : Nat) : State :=
  if k < 256 ∧ !s.tileOpen k ∧ s.urnAns.any (fun a => a.who == .kiosk k n) then s.wakeTile k else s.kWake k n

/-- ADD (Table 14-3). -/
def execKioskAdd (k : Nat) (o : KR) (s : State) : Host.Outcome State Fault Refusal :=
  kAlu k o (addWords) s

/-- SUB (Table 14-3). -/
def execKioskSub (k : Nat) (o : KR) (s : State) : Host.Outcome State Fault Refusal :=
  kAluV k o (fun a b => a - b) s

/-- AND (Table 14-3). -/
def execKioskAnd (k : Nat) (o : KR) (s : State) : Host.Outcome State Fault Refusal :=
  kAluV k o (fun a b => a &&& b) s

/-- OR (Table 14-3). -/
def execKioskOr (k : Nat) (o : KR) (s : State) : Host.Outcome State Fault Refusal :=
  kAluV k o (fun a b => a ||| b) s

/-- XOR (Table 14-3). -/
def execKioskXor (k : Nat) (o : KR) (s : State) : Host.Outcome State Fault Refusal :=
  kAluV k o (fun a b => a ^^^ b) s

/-- ANDN (Table 14-3). -/
def execKioskAndn (k : Nat) (o : KR) (s : State) : Host.Outcome State Fault Refusal :=
  kAluV k o (fun a b => a &&& ~~~ b) s

/-- SHL (Table 14-3). -/
def execKioskShl (k : Nat) (o : KR) (s : State) : Host.Outcome State Fault Refusal :=
  kAluV k o (fun a b => shl64 a (field b 0 6)) s

/-- SHR (Table 14-3). -/
def execKioskShr (k : Nat) (o : KR) (s : State) : Host.Outcome State Fault Refusal :=
  kAluV k o (fun a b => shr64 a (field b 0 6)) s

/-- SRA (Table 14-3). -/
def execKioskSra (k : Nat) (o : KR) (s : State) : Host.Outcome State Fault Refusal :=
  kAluV k o (fun a b => sra64 a (field b 0 6)) s

/-- MIN (Table 14-3). -/
def execKioskMin (k : Nat) (o : KR) (s : State) : Host.Outcome State Fault Refusal :=
  kAluV k o (minS) s

/-- MAX (Table 14-3). -/
def execKioskMax (k : Nat) (o : KR) (s : State) : Host.Outcome State Fault Refusal :=
  kAluV k o (maxS) s

/-- MINU (Table 14-3). -/
def execKioskMinu (k : Nat) (o : KR) (s : State) : Host.Outcome State Fault Refusal :=
  kAluV k o (minU) s

/-- MAXU (Table 14-3). -/
def execKioskMaxu (k : Nat) (o : KR) (s : State) : Host.Outcome State Fault Refusal :=
  kAluV k o (maxU) s

/-- SLT (Table 14-3). -/
def execSlt (k : Nat) (o : KR) (s : State) : Host.Outcome State Fault Refusal :=
  kAluV k o (fun a b => v64 (decide (a.toInt < b.toInt)).toNat) s

/-- SLTU (Table 14-3). -/
def execSltu (k : Nat) (o : KR) (s : State) : Host.Outcome State Fault Refusal :=
  kAluV k o (fun a b => v64 (decide (a.toNat < b.toNat)).toNat) s

/-- MUL (Table 14-3). -/
def execKioskMul (k : Nat) (o : KR) (s : State) : Host.Outcome State Fault Refusal :=
  kAluV k o (fun a b => a * b) s

/-- MULHU (Table 14-3). -/
def execKioskMulhu (k : Nat) (o : KR) (s : State) : Host.Outcome State Fault Refusal :=
  kAluV k o (mulhu) s

/-- MOV: system class becomes data at KP0 (Table 14-3). -/
def execKioskMov (k : Nat) (o : KR) (s : State) : Host.Outcome State Fault Refusal :=
  kAluU k o (fun l a => moved l a) s

/-- CLZ (Table 14-3). -/
def execKioskClz (k : Nat) (o : KR) (s : State) : Host.Outcome State Fault Refusal :=
  kAluU k o (fun _ a => Word.data (clz64 a.val)) s

/-- POPC (Table 14-3). -/
def execKioskPopc (k : Nat) (o : KR) (s : State) : Host.Outcome State Fault Refusal :=
  kAluU k o (fun _ a => Word.data (pop64 a.val)) s

/-- REV (Table 14-3). -/
def execKioskRev (k : Nat) (o : KR) (s : State) : Host.Outcome State Fault Refusal :=
  kAluU k o (fun _ a => Word.data (rev64 a.val)) s

/-- DIV, a long operation (R449). -/
def execKioskDiv (k : Nat) (o : KR) (s : State) : Host.Outcome State Fault Refusal :=
  kDivide k o .div s

/-- DIVU, a long operation (R449). -/
def execKioskDivu (k : Nat) (o : KR) (s : State) : Host.Outcome State Fault Refusal :=
  kDivide k o .divu s

/-- REM, a long operation (R449). -/
def execKioskRem (k : Nat) (o : KR) (s : State) : Host.Outcome State Fault Refusal :=
  kDivide k o .rem s

/-- REMU, a long operation (R449). -/
def execKioskRemu (k : Nat) (o : KR) (s : State) : Host.Outcome State Fault Refusal :=
  kDivide k o .remu s

/-- ADDI (Table 14-4). -/
def execKioskAddi (k : Nat) (o : KI) (s : State) : Host.Outcome State Fault Refusal :=
  kImm k o (addWords) s

/-- ANDI (Table 14-4). -/
def execKioskAndi (k : Nat) (o : KI) (s : State) : Host.Outcome State Fault Refusal :=
  kImm k o (fun a b => Word.data (a.val &&& b.val)) s

/-- ORI (Table 14-4). -/
def execKioskOri (k : Nat) (o : KI) (s : State) : Host.Outcome State Fault Refusal :=
  kImm k o (fun a b => Word.data (a.val ||| b.val)) s

/-- XORI (Table 14-4). -/
def execKioskXori (k : Nat) (o : KI) (s : State) : Host.Outcome State Fault Refusal :=
  kImm k o (fun a b => Word.data (a.val ^^^ b.val)) s

/-- SHLI (Table 14-4). -/
def execKioskShli (k : Nat) (o : KI) (s : State) : Host.Outcome State Fault Refusal :=
  kShiftI k o shl64 s

/-- SHRI (Table 14-4). -/
def execKioskShri (k : Nat) (o : KI) (s : State) : Host.Outcome State Fault Refusal :=
  kShiftI k o shr64 s

/-- SRAI (Table 14-4). -/
def execKioskSrai (k : Nat) (o : KI) (s : State) : Host.Outcome State Fault Refusal :=
  kShiftI k o sra64 s

/-- LI (Table 14-4). -/
def execKioskLi (k : Nat) (o : KI) (s : State) : Host.Outcome State Fault Refusal :=
  runKiosk k [o.rd] none false false (fun s =>
    if o.ra ≠ 0 then (s, .error .illegal) else s.kDone k o.rd (Word.data (o.imm.signExtend 64))) s

/-- LIH (Table 14-4): rd is read as an operand. -/
def execLih (k : Nat) (o : KI) (s : State) : Host.Outcome State Fault Refusal :=
  runKiosk k [o.rd] none false false (fun s =>
    if o.ra ≠ 0 then (s, .error .illegal)
    else
      let d := s.kr k o.rd
      s.kDone k o.rd (withPoison [d] (Word.data (movk d.val (o.imm.toNat / 2 ^ 16) (o.imm.toNat % 2 ^ 16))))) s

/-- LDL (R441): a local word, 8-byte aligned, with its tag byte. -/
def execLdl (k : Nat) (o : KI) (s : State) : Host.Outcome State Fault Refusal :=
  runKiosk k [o.rd, o.ra] none false false (fun s =>
    match s.kLocalAddr k o with
    | .error e => (s, .error e)
    | .ok a =>
      let (w, s) := s.kLocal k a
      s.kDone k o.rd (ldtWord (s.kLevel k) w)) s

/-- STL (R433, R441): system class needs KP1. -/
def execStl (k : Nat) (o : KI) (s : State) : Host.Outcome State Fault Refusal :=
  runKiosk k [o.rd, o.ra] none false false (fun s =>
    match s.kLocalAddr k o with
    | .error e => (s, .error e)
    | .ok a =>
      let w := s.kr k o.rd
      if w.isSystem ∧ !s.kp1 k then (s, .error .privilege) else (s.kLocalStore k a w, .ok .seq)) s

/-- CLASS (R440). -/
def execKioskClass (k : Nat) (o : KR) (s : State) : Host.Outcome State Fault Refusal :=
  kTag k o false (fun a => Word.data (v64 a.tag.toNat)) s

/-- MKDATA (R440). -/
def execKioskMkdata (k : Nat) (o : KR) (s : State) : Host.Outcome State Fault Refusal :=
  kTag k o false (fun a => Word.data a.val) s

/-- MKPTR (R433). -/
def execKioskMkptr (k : Nat) (o : KR) (s : State) : Host.Outcome State Fault Refusal :=
  kTag k o true (fun a => Word.pointer a.val) s

/-- MKSYS with payload 0x01 (R433). -/
def execKioskMksys (k : Nat) (o : KR) (s : State) : Host.Outcome State Fault Refusal :=
  kTag k o true (fun a => Word.system a.val 0x01) s

/-- POISON with code 0x07 (R440): RA must be 0 too. -/
def execKioskPoison (k : Nat) (o : KR) (s : State) : Host.Outcome State Fault Refusal :=
  runKiosk k [o.rd] none false false (fun s =>
    if o.ra ≠ 0 ∨ o.rb ≠ 0 ∨ o.fn.toNat ≥ 8 then (s, .error .illegal) else s.kDone k o.rd (Word.poison 0x07)) s

/-- B.cc (R440, R446, R447): both operands are consumed. -/
def execBCc (k : Nat) (o : KB) (s : State) : Host.Outcome State Fault Refusal :=
  runKiosk k [o.ra, o.rb] none true false (fun s =>
    let a := s.kr k o.ra
    let b := s.kr k o.rb
    match [a, b].find? Word.isPoison with
    | some w => (s, .error (KExc.poison w))
    | none =>
      let taken := condHolds o.cond a.val b.val
      let pc := s.kPc k
      let s := s.kPredict k (fun p => p.branch kPredDims pc o.h taken)
      (s, .ok (if taken then .slot (kTarget pc o.off.toInt) else if o.a then .annul else .slot (pc + 8)))) s

/-- J (R446): RD must be 0. -/
def execJ (k : Nat) (o : KJ) (s : State) : Host.Outcome State Fault Refusal :=
  runKiosk k [] none true false (fun s =>
    if o.rd ≠ 0 then (s, .error .illegal) else (s, .ok (.slot (kTarget (s.kPc k) o.off.toInt)))) s

/-- JAL (R446). -/
def execJal (k : Nat) (o : KJ) (s : State) : Host.Outcome State Fault Refusal :=
  runKiosk k [o.rd] none true false (fun s =>
    let pc := s.kPc k
    (s.setKr k o.rd (Word.data (v64 ((pc + 8) % 65536))), .ok (.slot (kTarget pc o.off.toInt)))) s

/-- JR (R446): a poison target is consumed, a misaligned one raises ALIGN. -/
def execJr (k : Nat) (o : KR) (s : State) : Host.Outcome State Fault Refusal :=
  runKiosk k [o.rd, o.ra] none true false (fun s =>
    let a := s.kr k o.ra
    let pc := s.kPc k
    let t := field a.val 0 16
    if o.rb ≠ 0 ∨ o.fn ≠ 0 then (s, .error .illegal)
    else if a.isPoison then (s, .error (KExc.poison a))
    else if t % 4 ≠ 0 then (s, .error (KExc.align (v64 t)))
    else
      let s := s.kPredict k (fun p => p.target kPredDims pc t)
      (s.setKr k o.rd (Word.data (v64 ((pc + 8) % 65536))), .ok (.slot t))) s

/-- KQPUSH (R442). -/
def execKqpush (k : Nat) (o : KR) (s : State) : Host.Outcome State Fault Refusal :=
  runKiosk k [o.rd, o.ra, o.rb] none false false (kQop k (fun s => s.kPush k o)) s

/-- KQPOP (R442). -/
def execKqpop (k : Nat) (o : KR) (s : State) : Host.Outcome State Fault Refusal :=
  runKiosk k [o.rd, o.ra, o.rb] none false false (kQop k (fun s => s.kPop k o)) s

/-- KQPEEK (R442). -/
def execKqpeek (k : Nat) (o : KR) (s : State) : Host.Outcome State Fault Refusal :=
  runKiosk k [o.rd, o.ra, o.rb] none false false (kQop k (fun s => s.kPeek k o)) s

/-- KQWAIT (R442); it may not stand in a delay slot (R439). -/
def execKqwait (k : Nat) (o : KR) (s : State) : Host.Outcome State Fault Refusal :=
  runKiosk k [o.rd, o.ra, o.rb] none true false (kQop k (fun s => s.kWaitQ k o)) s

/-- KRDC (R444). -/
def execKrdc (k : Nat) (o : KR) (s : State) : Host.Outcome State Fault Refusal :=
  runKiosk k [o.rd] none false false (fun s =>
    if o.ra ≠ 0 ∨ o.rb ≠ 0 then (s, .error .illegal)
    else match kcrRead (o.fn.toNat / 64) with
      | none => (s, .error .illegal)
      | some kp1 =>
        if kp1 ∧ !s.kp1 k then (s, .error .privilege) else s.kDone k o.rd (Word.data (s.kcrValue k (o.fn.toNat / 64)))) s

/-- KWRC (R433, R440, R444): the value of ra is written; every register but KSCRATCH needs KP1. -/
def execKwrc (k : Nat) (o : KR) (s : State) : Host.Outcome State Fault Refusal :=
  runKiosk k [o.ra] none false false (fun s =>
    let n := o.fn.toNat / 64
    let a := s.kr k o.ra
    if o.rd ≠ 0 ∨ o.rb ≠ 0 ∨ (kcrRead n).isNone then (s, .error .illegal)
    else if n ≠ 0x0A ∧ !s.kp1 k then (s, .error .privilege)
    else if a.isPoison then (s, .error (KExc.poison a))
    else (s.setKsk k ((s.ksk k).kcrWrite n a.val), .ok .seq)) s

/-- KRET (R453, R458). The handler ends, or goes on with the next pending cause. -/
def execKret (k : Nat) (o : KR) (s : State) : Host.Outcome State Fault Refusal :=
  runKiosk k [] none true false (fun s =>
    if o.rd ≠ 0 ∨ o.ra ≠ 0 ∨ o.rb ≠ 0 ∨ o.fn.toNat / 64 ≠ 0 then (s, .error .illegal)
    else if !s.kp1 k then (s, .error .privilege)
    else if !(s.ksk k).handler then (s, .error .illegal)
    else (s.kReturn k, .ok .done)) s

/-- YIELD ends the running context's slice (R444). In a handler there is no slice to end. -/
def execYield (k : Nat) (o : KR) (s : State) : Host.Outcome State Fault Refusal :=
  runKiosk k [] none true false (fun s =>
    if o.rd ≠ 0 ∨ o.ra ≠ 0 ∨ o.rb ≠ 0 ∨ o.fn.toNat / 64 ≠ 0 then (s, .error .illegal)
    else if (s.ksk k).handler then (s, .ok .seq)
    else
      let q := s.ksk k
      ((s.setKsk k (q.setPos q.cur ((q.at q.cur).step .seq))).kSliceEnd k, .ok .done)) s

/-- HALT (R438, R444): it waits for the older stores, then the context stops with CODE 0x0. A handler is not a context: it goes on. -/
def execHalt (k : Nat) (o : KR) (s : State) : Host.Outcome State Fault Refusal :=
  runKiosk k [] none true false (fun s =>
    if o.rd ≠ 0 ∨ o.ra ≠ 0 ∨ o.rb ≠ 0 ∨ o.fn.toNat / 64 ≠ 0 then (s, .error .illegal)
    else if s.kStoresOut k then (s, .ok .stay)
    else
      let q := s.ksk k
      if q.handler then (s, .ok .seq)
      else ((s.setKsk k (q.setPos q.cur ((q.at q.cur).step .seq))).kHalted k q.cur 0, .ok .done)) s

/-- The fault of a long operation is taken at the boundary where its program stands (R450). -/
def execKioskImpreciseException (k : Nat) (s : State) : Host.Outcome State Fault Refusal :=
  onUnit (k < 512) (s.kImprecise k)

/-- An uncorrectable error of register files or pipeline state (R455). -/
def execKioskInternalError (k : Nat) (s : State) : Host.Outcome State Fault Refusal :=
  onUnit (k < 512) (if s.kGone k then s else s.kInternal k)

/-- A pending enabled interrupt is sampled (R456 to R458). -/
def execKioskInterruptEntry (k : Nat) (s : State) : Host.Outcome State Fault Refusal :=
  onUnit (k < 512) (s.kSample k)

/-- KTIME has reached KTIMER (R456). -/
def execKtimerExpiry (k : Nat) (s : State) : Host.Outcome State Fault Refusal :=
  onUnit (k < 512) (s.kTimer k)

/-- The next READY context is dispatched (R434); `late` is a contract whose notification came later than its period. -/
def execContextDispatch (k : Nat) (late : Option Nat) (s : State) : Host.Outcome State Fault Refusal :=
  onUnit (k < 512) (s.kDispatchLate k late)

/-- The running context reaches the end of its slice (R434). -/
def execSliceEnd (k : Nat) (s : State) : Host.Outcome State Fault Refusal :=
  onUnit (k < 512) (s.kSliceEnd k)

/-- The Urn answers the waiting program n of a kiosk (4 is the handler), or its timeout has passed (R442, R531). -/
def execKioskWake (k n : Nat) (s : State) : Host.Outcome State Fault Refusal :=
  onUnit (k < 512 && n < 5) (s.kWakeTile k n)

/-- A write to KSK_DOORBELL (R456). -/
def execKskDoorbell (k : Nat) (v : BitVec 64) (s : State) : Host.Outcome State Fault Refusal :=
  onUnit (k < 512) (s.kDoorbell k v)

/-- KSK_CTL.RESET (R460). -/
def execKioskReset (k : Nat) (s : State) : Host.Outcome State Fault Refusal :=
  onUnit (k < 512) (s.kReset k)

/-- A write to KSK_CTL.EN (R460). -/
def execKioskEnable (k : Nat) (en : Bool) (s : State) : Host.Outcome State Fault Refusal :=
  onUnit (k < 512) (s.kEnable k en)

/-- A write to KSK_CTL.WORLD in a world (R432). -/
def execKioskWorldChange (k : Nat) (world walled : Bool) (s : State) : Host.Outcome State Fault Refusal :=
  onUnit (k < 512) (s.kWorld k world walled)

/-- The zeroing of the SRAMs ends (R432). -/
def execSramClrDone (k : Nat) (s : State) : Host.Outcome State Fault Refusal :=
  onUnit (k < 512) (s.setKStat k KSK_STATUS_SRAM_CLR false)

/-- KSK_CTXn.GO (Table 14-1). -/
def execGo (k n : Nat) (s : State) : Host.Outcome State Fault Refusal :=
  onUnit (k < 512 && n < 4) (s.kGo k n)

/-- KSK_CTXn.STOP (R460). -/
def execStop (k n : Nat) (s : State) : Host.Outcome State Fault Refusal :=
  onUnit (k < 512 && n < 4) (s.kStop k n)

end Sys2Proof.Machine
end

