-- ==== Sys2Proof/Machine/KioskMem.lean ====
section
/-! DEFINITION. Memory accesses of the kiosks (R436 to R438, R441, R448, R481, R485), their bulk and block operations (R442, R443), and the
completion of long operations (R449 to R451, R455). -/
set_option autoImplicit false
namespace Sys2Proof.Machine

/-! ## Reaching an address -/

/-- Why a part of an access is not performed. -/
inductive KStop where
  | exc (e : KExc)
  | wait
  deriving DecidableEq, Repr

/-- The result of a part of an access. -/
abbrev KPart (α : Type) := Except KStop α × State

/-- An exception that names the failing part. -/
def KExc.at (code info addr : Nat) : KExc := { code := code, info := info, addr := some (v64 addr), half := false }

/-- The memory address of R436: bits [63:58] of the register are ignored. -/
def kMemAddr (base : Word) (off : BitVec 64) : Nat := (base.val + off).toNat % 2 ^ 58

/-- R436: whether a window of a tile kiosk permits a part for a context (4 for a handler, which matches any window). -/
def twinHas (r : BitVec 64) (write : Bool) (ctx addr size : Nat) : Bool :=
  let lg := field r 0 6
  within 12 lg 51 && bitOf r (if write then 7 else 6) && (ctx == 4 || natBit (field r 8 4) ctx) &&
    addr / 2 ^ lg == field r 12 40 * 4096 / 2 ^ lg && (addr + size - 1) / 2 ^ lg == addr / 2 ^ lg

/-- Cluster of a hub kiosk. -/
def kskCluster (k : Nat) : Nat := (k - 256) / 16

/-- The context whose windows, PASID and records an access of a program uses: a handler's accesses count for the context that it
interrupts. -/
def State.kCtx (s : State) (k ctx : Nat) : Nat := if ctx = 4 then (s.ksk k).running.getD (s.ksk k).last else ctx

/-- R485: a blocked write counted in the cluster's function. -/
def State.ferr (s : State) (k ctx : Nat) : State :=
  let r := clRid (kskCluster k)
  let n := s.cfgF r 0x84 0 16
  let s := if n = 0 then (s.setCfgF r 0x84 16 4 (kskJ k)).setCfgF r 0x84 20 2 (s.kCtx k ctx) else s
  let first : Bool := s.cfgF r 0x84 31 1 == 0
  let s := (s.setCfgF r 0x84 0 16 (satAdd n 1 16)).setCfgF r 0x84 31 1 1
  if first then s.msixSend r 16 else s

/-- R481: an address of a hub kiosk translated through the cluster's 64-entry cache or a Translation Request. -/
def State.kTranslate (s : State) (k ctx : Nat) (write : Bool) (addr : Nat) : KPart Nat :=
  let c := kskCluster k
  let i := c / 8
  let rid := clRid c
  let pasid := s.kf k KSK_CTX KSK_CTX_H [s.kCtx k ctx] KSK_CTX_PASID
  let bad : KStop := .exc (KExc.at 5 0 addr)
  match (tget s.io.atc [] c).find? (fun e => e.pasid == pasid && e.page == addr / 2 ^ e.bits) with
  | some e => if (if write then e.w else e.r) then (.ok (e.pa + addr % 2 ^ e.bits), s) else (.error bad, s)
  | none =>
    match s.atsOk i rid with
    | (.error .stall, s) => (.error .wait, s)
    | (.error r, s) => (.error bad, s.iomFault i rid (r == .integrity))
    | (.ok _, s) =>
      match s.ioTranslate i rid pasid addr with
      | (.ok pa bits r w _, s) =>
        if !s.kWalled k && s.walledMem pa then (.error bad, s)
        else
          let e : AtcEnt := { pasid := pasid, page := addr / 2 ^ bits, bits := bits, pa := pa / 2 ^ bits * 2 ^ bits, r := r, w := w }
          let l := tget s.io.atc [] c ++ [e]
          let s := { s with io := { s.io with atc := tset s.io.atc [] c (l.drop (l.length - 64)) } }
          if (if write then w else r) then (.ok pa, s) else (.error bad, s)
      | (.refused, s) => (.error bad, s)
      | (.integrity, s) => (.error bad, s.iomFault i rid true)
      | (.stall, s) => (.error .wait, s)

/-- A part of an access brought to its physical address (R436): through a window or a translation; then the mesh stop's check of
Table 16-2. -/
def State.kReach (s : State) (k ctx : Nat) (write : Bool) (addr size : Nat) : KPart Nat :=
  let stop := fun (s : State) (pa : Nat) =>
    if !s.kWalled k && s.walledMem pa then ((.error (.exc (KExc.at 4 1 addr)), s.rangeViol 2 k pa) : KPart Nat) else (.ok pa, s)
  if k < 256 then
    if (List.range 4).any (fun m => twinHas (s.reg (kskDie k) (kskUnit k) KSK_TWIN [m]) write ctx addr size) then stop s addr
    else (.error (.exc (KExc.at 4 0 addr)), s)
  else if !s.bme (clRid (kskCluster k)) then (.error (.exc (KExc.at 8 0 addr)), if write then s.ferr k ctx else s)
  else
    match s.kTranslate k ctx write addr with
    | (.error e, s) => (.error e, s)
    | (.ok pa, s) => stop s pa

/-! ## Device memory -/

/-- The initiator of a kiosk's control-space accesses (TRL_BUSERR_INFO). -/
def State.kWho (s : State) (k : Nat) : CtlWho :=
  if k < 256 then { kind := 2, num := k, walled := s.kWalled k } else { kind := 3, num := k - 256, walled := s.kWalled k }

/-- The outcome of a bus error. -/
def kBus (r addr : Nat) : KStop := .exc (KExc.at 7 r addr)

/-- A device access as a core would make it. -/
def State.kDirect (s : State) (k prog addr pa size : Nat) (write : Option (BitVec 64)) : KPart (BitVec 64) :=
  match write with
  | none =>
    match s.devRead (s.kWho k) (.kiosk k prog) pa size with
    | (.ok v, s) => (.ok v, s)
    | (.bus r, s) => (.error (kBus r addr), s)
    | (.wait, s) => (.error .wait, s)
  | some v =>
    match s.devWrite (s.kWho k) pa size v with
    | (0, s) => (.ok 0, s)
    | (r, s) => (.error (kBus r addr), s)

/-- R482: a hub kiosk's access to an address that a root port or a cluster claims: through a window that admits its cluster. -/
def State.kPeer (s : State) (k prog addr pa size : Nat) (write : Option (BitVec 64)) : KPart (BitVec 64) :=
  let c := kskCluster k
  let refuse := fun (s : State) => ((.error (.exc (KExc.at 5 0 addr)), s.iomFault (c / 8) (clRid c) false) : KPart (BitVec 64))
  match s.peerWindow (c / 8) (20 + c % 8) pa with
  | none => refuse s
  | some target =>
    let die := target / 32
    let n := target % 32
    if n < 20 then
      match write with
      | some v => (.ok 0, (s.emit (.peer target pa size true [v])).portTlp (20 * die + n) true size)
      | none =>
        match s.mmioAsk (.kiosk k prog) (20 * die + n) pa size false with
        | (some v, s) => (.ok (v &&& allOnes size), s)
        | (none, s) => (.error .wait, s)
    else
      match s.barHas (clRid (8 * die + n - 20)) 4 0x400000 pa with
      | none => refuse s
      | some off =>
        if n ≥ 28 then refuse s
        else
          let at' := clusterOff (8 * die + n - 20) off
          match write with
          | some v =>
            match s.ctlWrite (s.kWho k) at' size v with
            | (0, s) => (.ok 0, s)
            | (r, s) => (.error (kBus r addr), s)
          | none =>
            match s.ctlRead (s.kWho k) at' size with
            | (.ok v, s) => (.ok v, s)
            | (.error r, s) => (.error (kBus r addr), s)

/-- A hub kiosk's device access as its translated request is classified (R478). -/
def State.kHubDev (s : State) (k prog addr pa size : Nat) (write : Option (BitVec 64)) : KPart (BitVec 64) :=
  let c := kskCluster k
  let i := c / 8
  let refuse := ((.error (.exc (KExc.at 5 0 addr)), s.iomFault i (clRid c) false) : KPart (BitVec 64))
  match s.classify pa with
  | .control _ => s.kDirect k prog addr pa size write
  | .msi off =>
    match write with
    | some v => (.ok 0, s.msiWindow i (clRid c) off (v.toNat % 2 ^ 32) (size == 4))
    | none => (.ok (allOnes size), s.unclaimed i)
  | .mmio _ =>
    match s.claimOf pa with
    | .below _ | .cluster _ _ => s.kPeer k prog addr pa size write
    | .pfBell h _ | .vf h _ _ => (.ok 0, if write.isSome then s.dbDrop h else s)
    | .clusterMsix _ _ | .pfMsix _ _ | .rootBar _ _ | .none => refuse
  | .ecam _ | .cxl _ _ | .dram _ _ _ | .remote _ | .unmapped => refuse

/-- A device access (R437): naturally aligned, but for the control space, whose own rules answer with a bus error. `whole` is the size
of the access of which this is a part: device accesses are never split (R448). -/
def State.kDev (s : State) (k prog addr pa size whole : Nat) (write : Option (BitVec 64)) : KPart (BitVec 64) :=
  let control : Bool := match s.classify pa with
    | .control _ => true
    | .msi _ | .ecam _ | .mmio _ | .cxl _ _ | .dram _ _ _ | .remote _ | .unmapped => false
  if control ∧ (size = whole ∨ addr % 8 ≠ 0) then
    if k < 256 then s.kDirect k prog addr pa whole write else s.kHubDev k prog addr pa whole write
  else if size ≠ whole ∨ pa % size ≠ 0 then (.error (.exc (KExc.at 3 0 addr)), s)
  else if k < 256 then s.kDirect k prog addr pa size write
  else s.kHubDev k prog addr pa size write

/-! ## Parts of accesses -/

/-- Whether a kiosk's program may read a line: the answer to an abandoned instruction's read of it is dropped first, once it has come
(R457). -/
def State.kFresh (s : State) (k line : Nat) : Bool × State :=
  let q := s.ksk k
  let known := fun (s : State) => s.setKsk k { s.ksk k with stale := q.stale.filter (fun l => l != line) }
  if !q.stale.contains line then (true, s)
  else
    match s.takeAnswer (kskAgent k) line .data with
    | some (_, s) => (true, known (s.iselRead k line false 1))
    | none => if s.asked (kskAgent k) .rdNC line then (false, s) else (true, known s)

/-- A line read for a kiosk's program, or for its block engine (5). -/
def State.kReadLine (s : State) (k prog line : Nat) : Option (List Word) × State :=
  if prog = 5 then s.ncRead (kskEngine k) line (s.kWalled k)
  else
    match s.kFresh k line with
    | (false, s) => (none, s)
    | (true, s) => s.ncRead (kskAgent k) line (s.kWalled k)

/-- Bytes [lo + n - 1 : lo] of a word as a mask of its line. -/
def partMask (pa n : Nat) : Nat := (2 ^ n - 1) * 2 ^ (pa % 128)

/-- A read of bytes of one word (R437): the stored word where all eight are read, otherwise its bytes or poison. `prog` is the program that
reads, 5 the block engine for context ctx. A read that overlaps a store without its Cmp waits (R438). -/
def State.kGetPart (s : State) (k prog ctx addr size whole : Nat) : KPart Word :=
  match s.kReach k ctx false addr size with
  | (.error e, s) => (.error e, s)
  | (.ok pa, s) =>
    if (s.classify pa).isDevice then
      match s.kDev k prog addr pa size whole none with
      | (.ok v, s) => (.ok (Word.data v), s)
      | (.error e, s) => (.error e, s)
    else if (s.kStores k).any (fun m => m.line == pa / 128 && m.mask &&& partMask pa size != 0) then (.error .wait, s)
    else
      match s.kReadLine k prog (pa / 128) with
      | (none, s) => (.error .wait, s)
      | (some ws, s) =>
        let w := ws.getD (pa % 128 / 8) Word.zero
        (.ok (if size = 8 then w else if w.isPoison then Word.poison w.aux else Word.data (v64 (field w.val (8 * (pa % 8)) (8 * size)))), s.kCount k 2)

/-- A write of bytes of one word: all eight with their class, otherwise the low bytes of a value (R441). -/
def State.kPutPart (s : State) (k prog ctx addr size whole : Nat) (w : Word) : KPart Unit :=
  match s.kReach k ctx true addr size with
  | (.error e, s) => (.error e, s)
  | (.ok pa, s) =>
    if (s.classify pa).isDevice then
      if w.isPoison then (.error (.exc (KExc.poison w)), s)
      else
        match s.kDev k prog addr pa size whole (some (v64 (w.val.toNat % 2 ^ (8 * size)))) with
        | (.ok _, s) => (.ok (), s)
        | (.error e, s) => (.error e, s)
    else if (s.kStores k).length ≥ 8 then (.error .wait, s)
    else
      let n := pa % 128 / 8
      let x := if size = 8 ∨ w.isPoison then w else Word.data (v64 (w.val.toNat % 2 ^ (8 * size) * 2 ^ (8 * (pa % 8))))
      let ws := List.replicate n Word.zero ++ [x] ++ List.replicate (15 - n) Word.zero
      let a := if prog = 5 then kskEngine k else kskAgent k
      (.ok (), (s.ncWrite a (pa / 128) ws (partMask pa size) (s.kWalled k)).kCount k 3)

/-- The parts of an access by 8-byte word (R448): address and length. -/
def kParts (addr size : Nat) : List (Nat × Nat) :=
  if addr % 8 + size ≤ 8 then [(addr, size)] else [(addr, 8 - addr % 8), ((addr + 8 - addr % 8) % 2 ^ 58, size - (8 - addr % 8))]

/-- R448: a tile kiosk checks every part before it sends any. -/
def State.kCheckAll (s : State) (k ctx : Nat) (write : Bool) (ps : List (Nat × Nat)) : KPart Unit :=
  match ps with
  | [] => (.ok (), s)
  | (a, n) :: r =>
    match s.kReach k ctx write a n with
    | (.error e, s) => (.error e, s)
    | (.ok _, s) => s.kCheckAll k ctx write r

/-- The exception of an upper part of a hub kiosk's access has HALF set. -/
def KStop.upper (e : KStop) (hub : Bool) : KStop :=
  match e with
  | .exc x => .exc { x with half := hub }
  | .wait => .wait

/-- How a stopped access ends its instruction. -/
def kStopRes (s : State) (e : KStop) : KRes :=
  match e with
  | .exc x => (s, .error x)
  | .wait => (s, .ok .stay)

/-- The word of a load of two parts: poison with the lower code, otherwise the bytes (R132, R441). -/
def joinParts (a b : Word) (n : Nat) : Word := withPoison [a, b] (Word.data (v64 (a.val.toNat + b.val.toNat * 2 ^ (8 * n))))

/-- The lower part of the access in M performed, or not again where it has been already (R448). -/
def State.kLower (s : State) (k : Nat) (f : State → KPart Word) : KPart Word :=
  match (s.ksk k).half with
  | some w => (.ok w, s)
  | none => f s

/-- What M keeps of its access: the word of a lower part while the upper part waits. -/
def State.kHalf (s : State) (k : Nat) (w : Option Word) : State := s.setKsk k { s.ksk k with half := w }

/-- The upper part of an access after its lower one, whose word M keeps while the upper part waits. -/
def State.kUpper (_s : State) (k : Nat) (w : Word) (r : KPart Word) (f : Word → State → KRes) : KRes :=
  match r with
  | (.error .wait, s) => (s.kHalf k (some w), .ok .stay)
  | (.error e, s) => kStopRes (s.kHalf k none) (e.upper (decide (k ≥ 256)))
  | (.ok v, s) => f v (s.kHalf k none)

/-- A written part as a part that gives a word. -/
def KPart.written (r : KPart Unit) : KPart Word :=
  match r with
  | (.error e, s) => (.error e, s)
  | (.ok _, s) => (.ok Word.zero, s)

/-- Whether parts are checked before any is sent: those of a tile kiosk. -/
def State.kPre (s : State) (k ctx : Nat) (write : Bool) (ps : List (Nat × Nat)) : KPart Unit :=
  if k < 256 ∧ ps.length > 1 then s.kCheckAll k ctx write ps else (.ok (), s)

/-- LDM (R437, R441, R448). -/
def State.kLdm (s : State) (k : Nat) (o : KI) (size : Nat) : KRes :=
  let a := s.kr k o.ra
  if a.isPoison then (s, .error (KExc.poison a))
  else
    let ctx := (s.ksk k).cur
    let ps := kParts (kMemAddr a (o.imm.signExtend 64)) size
    match s.kPre k ctx false ps with
    | (.error e, s) => kStopRes s e
    | (.ok _, s) =>
      match ps with
      | [] => (s, .ok .stay)
      | [(x, n)] =>
        match s.kGetPart k ctx ctx x n size with
        | (.error e, s) => kStopRes s e
        | (.ok w, s) => s.kDone k o.rd (if size = 8 then ldtWord (s.kLevel k) w else w)
      | (x, n) :: (y, m) :: _ =>
        match s.kLower k (fun (s : State) => s.kGetPart k ctx ctx x n size) with
        | (.error e, s) => kStopRes s e
        | (.ok w, s) => s.kUpper k w (s.kGetPart k ctx ctx y m size) (fun v s => s.kDone k o.rd (joinParts w v n))

/-- The bytes of a stored value from a byte on. -/
def Word.bytesFrom (w : Word) (n : Nat) : Word := if w.isPoison then w else Word.data (v64 (w.val.toNat / 2 ^ (8 * n)))

/-- STM (R433, R437, R441, R448): system class is written only at KP1. -/
def State.kStm (s : State) (k : Nat) (o : KI) (size : Nat) : KRes :=
  let a := s.kr k o.ra
  let w := s.kr k o.rd
  if a.isPoison then (s, .error (KExc.poison a))
  else if size = 8 ∧ w.isSystem ∧ !s.kp1 k then (s, .error .privilege)
  else
    let ctx := (s.ksk k).cur
    let ps := kParts (kMemAddr a (o.imm.signExtend 64)) size
    match s.kPre k ctx true ps with
    | (.error e, s) => kStopRes s e
    | (.ok _, s) =>
      match ps with
      | [] => (s, .ok .stay)
      | [(x, n)] =>
        match s.kPutPart k ctx ctx x n size (if size = 8 then sttWord (s.kLevel k) w else Word.bytesFrom w 0) with
        | (.error e, s) => kStopRes s e
        | (.ok _, s) => (s, .ok .seq)
      | (x, n) :: (y, m) :: _ =>
        match s.kLower k (fun (s : State) => (s.kPutPart k ctx ctx x n size (Word.bytesFrom w 0)).written) with
        | (.error e, s) => kStopRes s e
        | (.ok v, s) => s.kUpper k v (s.kPutPart k ctx ctx y m size (Word.bytesFrom w n)).written (fun _ s => (s, .ok .seq))

/-! ## Issue of bulk and block operations -/

/-- KQBPUSH and KQBPOP at issue (R442): poison handle and entry address, local alignment. A KQBPUSH waits for older stores (R451). -/
def State.kBulk (s : State) (k : Nat) (o : KR) (kind : KLongKind) : KRes :=
  let a := s.kr k o.ra
  let b := s.kr k o.rb
  match kqCheck (decide (o.fn.toNat % 4 ≠ 0 ∨ o.fn.toNat ≥ 4096)) false a b with
  | some e => (s, .error e)
  | none =>
    if kind = .bpush ∧ s.kStoresOut k then (s, .ok .stay)
    else s.kIssue k kind o.rd a b Word.zero (o.fn.toNat / 4 + 1)

/-- The poison operands that a block operation consumes: its addresses and its length (R440). -/
def blockUses (kind : KLongKind) (a b d : Word) : List Word :=
  match kind with
  | .bfill => [b, d]
  | .bcrc => [a, d]
  | .bcopy | .bhash | .div | .divu | .rem | .remu | .bpush | .bpop => [a, b, d]

/-- BCOPY, BFILL, BCRC and BHASH at issue (R443). -/
def State.kBlock (s : State) (k : Nat) (o : KR) (kind : KLongKind) : KRes :=
  let a := s.kr k o.ra
  let b := s.kr k o.rb
  let d := s.kr k o.rd
  if o.fn.toNat ≥ 16 ∨ (kind = .bcrc ∧ o.rb ≠ 0) ∨ (kind = .bhash ∧ o.fn.getLsbD 3) then (s, .error .illegal)
  else
    match (blockUses kind a b d).find? Word.isPoison with
    | some w => (s, .error (KExc.poison w))
    | none =>
      let n := d.val.toNat
      if n > 65536 ∨ (kind = .bfill ∧ (n % 8 ≠ 0 ∨ b.val.toNat % 8 ≠ 0)) then (s, .error .illegal)
      else if kind = .bfill ∧ a.isSystem ∧ !s.kp1 k then (s, .error .privilege)
      else if kind = .bhash ∧ b.val.toNat % 8 ≠ 0 then (s, .error (KExc.align b.val))
      else s.kIssue k kind o.rd a b d o.fn.toNat

/-! ## Performing a long operation -/

/-- R455: with INTERR set every word written carries poison 0x06. -/
def State.kMark (s : State) (k : Nat) (w : Word) : Word := if s.kStat k KSK_STATUS_INTERR then Word.poison 0x06 else w

/-- Bytes of one word read by the block engine, from memory or the data SRAM, as the level reads them. -/
def State.kGet (s : State) (k : Nat) (l : KLong) (mem : Bool) (addr size : Nat) : KPart Word :=
  let lv := if l.kp1 then 1 else 0
  if mem then
    match s.kGetPart k 5 l.ctx addr size size with
    | (.ok w, s) => (.ok (if size = 8 then ldtWord lv w else w), s)
    | (.error e, s) => (.error e, s)
  else
    let (w, s) := s.kLocal k addr
    (.ok (if size = 8 then ldtWord lv w else if w.isPoison then Word.poison w.aux else Word.data (v64 (field w.val (8 * (addr % 8)) (8 * size)))), s)

/-- Bytes of one word written by the block engine. -/
def State.kPut (s : State) (k : Nat) (l : KLong) (mem : Bool) (addr size : Nat) (w : Word) : KPart Unit :=
  let w := s.kMark k w
  if mem then s.kPutPart k 5 l.ctx addr size size w
  else if size = 8 then (.ok (), s.kLocalStore k addr w)
  else
    let old := tget (s.ksk k).dsram Word.zero (addr % 65536 / 8)
    let new := if w.isPoison then storeSubPoison old w.aux
      else storeSub old (v64 (w.val.toNat % 2 ^ (8 * size) * 2 ^ (8 * (addr % 8)))) ((2 ^ size - 1) * 2 ^ (addr % 8))
    (.ok (), s.kLocalPut k addr new)

/-- The address of an operand of a block operation in its space. -/
def blockAddr (mem : Bool) (w : Word) : Nat := w.val.toNat % if mem then 2 ^ 58 else 65536

/-- The bytes of the next step of a copy: within one source and one destination word, and no more than the distance by which the
destination follows the source, so that overlapping ranges copy in ascending byte order (R443). -/
def copyStep (srcMem dstMem : Bool) (src dst left : Nat) : Nat :=
  let room := min left (min (8 - src % 8) (8 - dst % 8))
  if srcMem = dstMem ∧ src < dst then min room (dst - src) else room

/-- BCOPY and BFILL: steps until the length is done, a part fails, or something has not arrived (fuel). -/
def State.kCopy (s : State) (k : Nat) (l : KLong) (fuel : Nat) : KLong × Option KStop × State :=
  match fuel with
  | 0 => (l, none, s)
  | f + 1 =>
    let left := l.d.val.toNat
    let fill : Bool := l.kind == .bfill
    let sm := natBit l.fn 2
    let dm := natBit l.fn 3
    let src := blockAddr sm l.a
    let dst := blockAddr dm l.b
    let n := if fill then 8 else copyStep sm dm src dst left
    if left = 0 then (l, none, s)
    else
      match if fill then ((.ok (sttWord (if l.kp1 then 1 else 0) l.a), s) : KPart Word) else s.kGet k l sm src n with
      | (.error e, s) => (l, some e, s)
      | (.ok w, s) =>
        match s.kPut k l dm dst n w with
        | (.error e, s) => (l, some e, s)
        | (.ok _, s) =>
          s.kCopy k { l with a := if fill then l.a else Word.data (l.a.val + v64 n), b := Word.data (l.b.val + v64 n), d := Word.data (v64 (left - n)) } f

/-- The value bytes of a block and its first poison code (fuel). -/
def State.kBytes (s : State) (k : Nat) (l : KLong) (addr left : Nat) (acc : List Nat) (bad : Option (BitVec 6)) (fuel : Nat) :
    KPart (List Nat × Option (BitVec 6)) :=
  match fuel with
  | 0 => (.ok (acc, bad), s)
  | f + 1 =>
    if left = 0 then (.ok (acc, bad), s)
    else
      let n := min left (8 - addr % 8)
      match s.kGet k l (natBit l.fn 2) addr n with
      | (.error e, s) => (.error e, s)
      | (.ok w, s) =>
        s.kBytes k l (addr + n) (left - n) (acc ++ (List.range n).map (fun i => field w.val (8 * i) 8))
          (if bad = none ∧ w.isPoison then some w.aux else bad) f

/-- KQBPUSH and KQBPOP: entries moved until one fails or the count is done (fuel); the status that ended it. -/
def State.kEntries (s : State) (k : Nat) (l : KLong) (fuel : Nat) : KLong × Option Nat × State :=
  match fuel with
  | 0 => (l, some 0, s)
  | f + 1 =>
    let q := field l.a.val 0 16
    let n := s.qWords q
    let loc := field l.b.val 0 16 + 8 * n * l.moved
    let lv := if l.kp1 then 1 else 0
    let req : QReq := { who := .kiosk k l.ctx, walled := s.kWalled k, pl := lv, vmid := none }
    if l.moved ≥ l.fn then (l, some 0, s)
    else if l.kind = .bpush then
      let (ws, s) := s.kLocals k loc n
      match s.urnPush req q (ws.map (fun w => s.kMark k (sttWord lv w))) false false with
      | (.waits, s) => (l, none, s)
      | (.done st _, s) => if st = 0 ∨ st = 3 then s.kEntries k { l with moved := l.moved + 1 } f else (l, some st, s)
    else
      match s.urnPop req q false false with
      | (.waits, s) => (l, none, s)
      | (.done st ws, s) =>
        if st ≠ 0 then (l, some st, s)
        else
          let s := foldN ws.length (fun (s : State) i => s.kLocalStore k (loc + 8 * i) (s.kMark k (sttWord lv (ldtWord lv (ws.getD i Word.zero))))) s
          s.kEntries k { l with moved := l.moved + 1 } f

/-- The end of a long operation: its destination written, a context that waited for it stopped (R451, R460). -/
def State.kLongEnd (s : State) (k : Nat) (l : KLong) (w : Word) (fault : Option KExc) : State :=
  let q := s.ksk k
  let q := { q with longs := q.longs.filter (fun x => x.kind.unit != l.kind.unit) }
  let q := q.setWord l.dest (s.kMark k w)
  let q := match fault with
    | some e => { q with lfaults := q.lfaults ++ [{ ctx := l.ctx, pc := l.pc, code := e.code, info := e.info, addr := e.addr }] }
    | none => q
  (s.setKsk k q).kStopPoll k

/-- A long operation that waits keeps what it has done. -/
def State.kLongKeep (s : State) (k : Nat) (l : KLong) : State :=
  let q := s.ksk k
  s.setKsk k { q with longs := q.longs.map (fun x => if x.kind.unit = l.kind.unit then l else x) }

/-- The result of a division (Table 4-9). -/
def kDivResult (l : KLong) : Word :=
  withPoison [l.a, l.b] (Word.data (match l.kind with
    | .div => divS l.a.val l.b.val
    | .divu => divU l.a.val l.b.val
    | .rem => remS l.a.val l.b.val
    | .remu | .bpush | .bpop | .bcopy | .bfill | .bcrc | .bhash => remU l.a.val l.b.val))

/-- A value that the spec does not state for rd: BHASH, and a block read that fails. -/
def State.kOpen (s : State) : Word × State :=
  let (n, s) := s.takeFree
  (Word.data (Config.freeValue n), s)

/-- A long operation performed (R442, R443, R449). -/
def State.kLongDo (s : State) (k : Nat) (l : KLong) : State :=
  match l.kind with
  | .div | .divu | .rem | .remu => s.kLongEnd k l (kDivResult l) none
  | .bpush | .bpop =>
    match s.kEntries k l (l.fn + 1) with
    | (l, none, s) => s.kLongKeep k l
    | (l, some st, s) => s.kLongEnd k l (Word.data (v64 (l.moved + st * 2 ^ 16))) none
  | .bcopy | .bfill =>
    match s.kCopy k l 65537 with
    | (l, some .wait, s) => s.kLongKeep k l
    | (l, some (.exc e), s) => s.kLongEnd k l (Word.data l.d.val) (some e)
    | (l, none, s) => s.kLongEnd k l (Word.data 0) none
  | .bcrc | .bhash =>
    if l.d.val = 0 then s.kLongEnd k l (Word.data 0) none
    else
      match s.kBytes k l (blockAddr (natBit l.fn 2) l.a) l.d.val.toNat [] none 65537 with
      | (.error .wait, s) => s
      | (.error (.exc e), s) =>
        let (w, s) := s.kOpen
        s.kLongEnd k l w (some e)
      | (.ok (bs, bad), s) =>
        let mark := fun (w : Word) => match bad with
          | some code => Word.poison code
          | none => w
        if l.kind = .bcrc then s.kLongEnd k l (mark (Word.data (v64 (crc32cRun 0xFFFFFFFF bs ^^^ 0xFFFFFFFF)))) none
        else
          let dig := sha256 bs
          let s := foldN 4 (fun (s : State) j =>
            let v := (List.range 8).foldl (fun n i => n + dig.getD (8 * j + i) 0 * 2 ^ (8 * i)) 0
            s.kLocalStore k (blockAddr false l.b + 8 * j) (s.kMark k (mark (Word.data (v64 v))))) s
          let (w, s) := s.kOpen
          s.kLongEnd k l w none

/-- R449: the operation of a unit completes: 0 the divider, 1 the block engine, 2 the bulk-queue engine. -/
def State.kLongComplete (s : State) (k unit : Nat) : State :=
  if !s.kOn k then s
  else
    match (s.ksk k).longs.find? (fun l => l.kind.unit == unit) with
    | none => s
    | some l => s.kLongDo k l

/-- FENCE.K (R451): it completes when its context has no long operation and no store without its Cmp. -/
def State.kFence (s : State) (k : Nat) (o : KR) : KRes :=
  let q := s.ksk k
  if o.rd ≠ 0 ∨ o.ra ≠ 0 ∨ o.rb ≠ 0 ∨ o.fn ≠ 0 then (s, .error .illegal)
  else if q.longs.any (fun l => l.ctx == q.cur) || s.kStoresOut k then (s, .ok .stay)
  else (s, .ok .seq)

end Sys2Proof.Machine
end

