-- ==== Sys2Proof/Machine/KioskMemCmds.lean ====
section
/-! DEFINITION. Memory, bulk and block instructions of the kiosks, and the completion of their long operations (R436 to R451). -/
set_option autoImplicit false
namespace Sys2Proof.Machine

/-- LDM.B: a byte, zero-extended (R437, R441). -/
def execLdmB (k : Nat) (o : KI) (s : State) : Host.Outcome State Fault Refusal :=
  runKiosk k [o.rd, o.ra] none false false (fun s => s.kLdm k o 1) s

/-- LDM.H: a half-word, zero-extended (R437, R441). -/
def execLdmH (k : Nat) (o : KI) (s : State) : Host.Outcome State Fault Refusal :=
  runKiosk k [o.rd, o.ra] none false false (fun s => s.kLdm k o 2) s

/-- LDM.W: a word, zero-extended (R437, R441). -/
def execLdmW (k : Nat) (o : KI) (s : State) : Host.Outcome State Fault Refusal :=
  runKiosk k [o.rd, o.ra] none false false (fun s => s.kLdm k o 4) s

/-- LDM.D: a doubleword with its class (R441). -/
def execLdmD (k : Nat) (o : KI) (s : State) : Host.Outcome State Fault Refusal :=
  runKiosk k [o.rd, o.ra] none false false (fun s => s.kLdm k o 8) s

/-- STM.B: a byte (R438, R441). -/
def execStmB (k : Nat) (o : KI) (s : State) : Host.Outcome State Fault Refusal :=
  runKiosk k [o.rd, o.ra] none false false (fun s => s.kStm k o 1) s

/-- STM.H: a half-word (R438, R441). -/
def execStmH (k : Nat) (o : KI) (s : State) : Host.Outcome State Fault Refusal :=
  runKiosk k [o.rd, o.ra] none false false (fun s => s.kStm k o 2) s

/-- STM.W: a word (R438, R441). -/
def execStmW (k : Nat) (o : KI) (s : State) : Host.Outcome State Fault Refusal :=
  runKiosk k [o.rd, o.ra] none false false (fun s => s.kStm k o 4) s

/-- STM.D: a doubleword with its class (R433, R441). -/
def execStmD (k : Nat) (o : KI) (s : State) : Host.Outcome State Fault Refusal :=
  runKiosk k [o.rd, o.ra] none false false (fun s => s.kStm k o 8) s

/-- KQBPUSH, a long operation (R442, R449). -/
def execKqbpush (k : Nat) (o : KR) (s : State) : Host.Outcome State Fault Refusal :=
  runKiosk k [o.rd, o.ra, o.rb] (some 2) false false (kQop k (fun s => s.kBulk k o .bpush)) s

/-- KQBPOP, a long operation (R442, R449). -/
def execKqbpop (k : Nat) (o : KR) (s : State) : Host.Outcome State Fault Refusal :=
  runKiosk k [o.rd, o.ra, o.rb] (some 2) false false (kQop k (fun s => s.kBulk k o .bpop)) s

/-- BCOPY, a long operation (R443, R449). -/
def execBcopy (k : Nat) (o : KR) (s : State) : Host.Outcome State Fault Refusal :=
  runKiosk k [o.rd, o.ra, o.rb] (some 1) false false (fun s => s.kBlock k o .bcopy) s

/-- BFILL, a long operation (R443, R449). -/
def execBfill (k : Nat) (o : KR) (s : State) : Host.Outcome State Fault Refusal :=
  runKiosk k [o.rd, o.ra, o.rb] (some 1) false false (fun s => s.kBlock k o .bfill) s

/-- BCRC, a long operation (R443, R449). -/
def execBcrc (k : Nat) (o : KR) (s : State) : Host.Outcome State Fault Refusal :=
  runKiosk k [o.rd, o.ra, o.rb] (some 1) false false (fun s => s.kBlock k o .bcrc) s

/-- BHASH, a long operation (R443, R449). -/
def execBhash (k : Nat) (o : KR) (s : State) : Host.Outcome State Fault Refusal :=
  runKiosk k [o.rd, o.ra, o.rb] (some 1) false false (fun s => s.kBlock k o .bhash) s

/-- FENCE.K (R450, R451). -/
def execFenceK (k : Nat) (o : KR) (s : State) : Host.Outcome State Fault Refusal :=
  runKiosk k [] none false true (fun s => s.kFence k o) s

/-- A long operation completes (R449, R455). -/
def execLongOperationComplete (k unit : Nat) (s : State) : Host.Outcome State Fault Refusal :=
  onUnit (k < 512 ∧ unit < 3) (s.kLongComplete k unit)

end Sys2Proof.Machine
end

