-- ==== Sys2Proof/Machine/LifeCmds.lean ====
section
/-! DEFINITION. The life of the part, the watchdog and the fatal paths of the Gatehouse as commands (20_errors_ras_life.md, 16_walled_world.md). -/
set_option autoImplicit false
namespace Sys2Proof.Machine

/-- The periodic measurement of a tile (R598). -/
def execAgeMeasurement (lt raw : Nat) (s : State) : Host.Outcome State Fault Refusal :=
  onUnit (lt < 256) (s.ageMeasure lt raw)

/-- The ramp after 1 s without a level change (R599). -/
def execGuardbandRamp (lt : Nat) (s : State) : Host.Outcome State Fault Refusal :=
  onUnit (lt < 256) (s.guardbandRamp lt)

/-- A second of wear at a junction temperature, or an hour's credit (R600). -/
def execWearUpdate (lt tj : Nat) (hour : Bool) (s : State) : Host.Outcome State Fault Refusal :=
  onUnit (lt < 256) (s.wearUpdate lt tj hour)

/-- A write of GK_RETIRE_CMD with GO, and the results of the tests it makes (R603). -/
def execRetire (v : BitVec 64) (results : List Bool) (s : State) : Host.Outcome State Fault Refusal :=
  .next ((s.retireWrite v).retireRun results)

/-- The Gatehouse writes the lifetime record (R604); whether the write succeeds. -/
def execLifetimeRecordWrite (ok : Bool) (s : State) : Host.Outcome State Fault Refusal :=
  .next (s.lifeWrite ok)

/-- The remaining time falls to WARN_MS (R508). -/
def execWdogWarn (s : State) : Host.Outcome State Fault Refusal :=
  .next (s.wdogWarn)

/-- The count reaches PERIOD_MS (R508, R509). -/
def execWatchdogExpiry (s : State) : Host.Outcome State Fault Refusal :=
  .next (s.wdogExpire)

/-- The scrub of Walled memory has ended (R509). -/
def execWalledScrubDone (s : State) : Host.Outcome State Fault Refusal :=
  .next (s.scrubDone)

/-- An internal rail has been out of range for 10 µs in M4 to M10 (R590). -/
def execInternalRailOutOfRange (s : State) : Host.Outcome State Fault Refusal :=
  .next (s.railOut)

/-- An uncorrectable error in Gatehouse state (R590). -/
def execGatehouseStateError (s : State) : Host.Outcome State Fault Refusal :=
  .next (s.ghStateError)

end Sys2Proof.Machine
end

