-- ==== Sys2Proof/Machine/MemoryCmds.lean ====
section
/-! DEFINITION. Memory channels and Groundskeeper as commands (11_memory_ecc.md). -/
set_option autoImplicit false
namespace Sys2Proof.Machine

/-- Symbol errors that a stored line shows from now on, each symbol's in place of what it showed before, and the devices that fail with
them. -/
def State.rawErrors (s : State) (ch chline : Nat) (errs : List (Nat × Nat)) (bad : List Nat) : State :=
  if errs = [] then s
  else
    let c := s.chan ch
    let old := tget c.raw ⟨[], false, []⟩ chline
    s.setChan ch { c with raw := tset c.raw ⟨[], false, []⟩ chline { old with
      syms := errNorm (old.syms.filter (fun e => !errs.any (fun x => x.1 == e.1)) ++ errs), bad := (old.bad ++ bad).eraseDups } }

/-- A line read at a channel (R345 to R350, R357): symbol errors that the stored line has from now on, and the devices that a probe
would find failing. A channel has no line at or beyond its capacity (R355): nothing is read there. -/
def execChannelRead (ch chline : Nat) (errs : List (Nat × Nat)) (bad : List Nat) (walled : Bool) (s : State) : Host.Outcome State Fault Refusal :=
  onUnit (ch < 16) (if chline < s.chanLines ch then ((s.rawErrors ch chline errs bad).chanRead ch chline bad false walled).2 else s)

/-- A line write at a channel (R357 to R359), to a line that it has (R355). -/
def execChannelWrite (ch chline : Nat) (ws : List Word) (mask : Nat) (walled : Bool) (s : State) : Host.Outcome State Fault Refusal :=
  onUnit (ch < 16) (if chline < s.chanLines ch then s.chanWrite ch chline ws mask walled else s)

/-- The next background fill write of a FILLING granule (R358). -/
def execGranuleFillWrite (ch g : Nat) (s : State) : Host.Outcome State Fault Refusal :=
  onUnit (ch < 16) (s.fillWrite ch g)

/-- The Groundskeeper initialises the next INVALID granule (R360). -/
def execGranuleInit (ch : Nat) (s : State) : Host.Outcome State Fault Refusal :=
  onUnit (ch < 16) (s.granuleInit ch)

/-- A patrol read (R361); `errs` stand in the line that it reads, `late` says that the pass has outlasted its period. -/
def execPatrolRead (ch : Nat) (errs : List (Nat × Nat)) (bad : List Nat) (late : Bool) (s : State) : Host.Outcome State Fault Refusal :=
  onUnit (ch < 16) ((s.rawErrors ch (((s.chan ch).patrolNext).getD 0) errs bad).patrol ch bad late)

/-- Periodic ZQ calibration of a rank (R362). -/
def execZqCalibration (ch rank : Nat) (s : State) : Host.Outcome State Fault Refusal :=
  onUnit (ch < 16) (s.calibrate ch rank true)

/-- Periodic DQS oscillator read of a rank (R362). -/
def execDqsOscillatorRead (ch rank : Nat) (s : State) : Host.Outcome State Fault Refusal :=
  onUnit (ch < 16) (s.calibrate ch rank false)

/-- Periodic temperature read of a DIMM, in tenths of a °C (R363). -/
def execDimmTemperatureRead (ch dimm t10 : Nat) (s : State) : Host.Outcome State Fault Refusal :=
  onUnit (ch < 16) (s.dimmTemp ch dimm t10)

/-- A write to MEM_MARK (R346). -/
def execMemMarkWrite (ch : Nat) (v : BitVec 64) (s : State) : Host.Outcome State Fault Refusal :=
  onUnit (ch < 16) (s.markWrite ch v)

/-- A write to MEM_RANGEn (R353); a locked register keeps its value (R54). -/
def execMemRangeWrite (n : Nat) (v : BitVec 64) (s : State) : Host.Outcome State Fault Refusal :=
  onUnit (n < 4) (if s.flag 8 0 TRL_NODE_CTL [] TRL_NODE_CTL_LOCK then s.addFld 8 0 TRL_NODE_STATUS [] TRL_NODE_STATUS_LOCK_VIOL 1 else s.memRangeWrite n v)

end Sys2Proof.Machine
end

