-- ==== Sys2Proof/Machine/MeshCmds.lean ====
section
/-! DEFINITION. The mesh as commands (12_mesh_trellis.md). -/
set_option autoImplicit false
namespace Sys2Proof.Machine

/-- A write to a register of a bank. -/
def State.bankWrite (s : State) (die bank : Nat) (tilemap : Bool) (idx : Nat) (v : BitVec 64) : State :=
  if tilemap then s.writeBank die bank MESH_TILEMAP [bank, idx] v else s.writeBank die bank MESH_ROUTE [bank] v

/-- A flit arrives at a stop (R379, R389); `err` errors are found by its check, `late` is the contract of a timed flit past its slot. -/
def execFlitReceive (die st port : Nat) (f : Flit) (err : Nat) (late : Option Nat) (s : State) : Host.Outcome State Fault Refusal :=
  onUnit (die < 10) (s.flitReceive die st port f err late)

/-- A failed flit is replayed (R379). -/
def execFlitReplay (die st port err : Nat) (late : Option Nat) (s : State) : Host.Outcome State Fault Refusal :=
  onUnit (die < 10) (s.flitReplay die st port err late)

/-- A write to a route register, or a tile-map register, of a bank (R390). -/
def execMeshRouteWrite (die bank : Nat) (tilemap : Bool) (idx : Nat) (v : BitVec 64) (s : State) : Host.Outcome State Fault Refusal :=
  onUnit (die < 8 && bank < 2 && (if tilemap then idx < 4 else idx < 1)) (s.bankWrite die bank tilemap idx v)

/-- MESH_FLIP_CTL.GO written 1 (R391). -/
def execMeshFlipGo (s : State) : Host.Outcome State Fault Refusal :=
  .next s.flipGo

/-- The held channels have drained (R391). -/
def execFlipDrainDone (s : State) : Host.Outcome State Fault Refusal :=
  .next s.flipDrained

/-- The drain limit passes (R391). -/
def execFlipTimeout (s : State) : Host.Outcome State Fault Refusal :=
  .next s.flipTimeout

/-- No flit of the old epoch remains (R391). -/
def execFlipDone (s : State) : Host.Outcome State Fault Refusal :=
  .next s.flipDone

/-- A root POLL of a stop (R395): it answers with its drain state. -/
def execPoll (die st : Nat) (s : State) : Host.Outcome State Fault Refusal :=
  onUnit (die < 10) (s.emit (.poll die st (s.heldFlits.filter (fun x => x.die == die && x.stop == st)).length (s.prevFlits die st)))

end Sys2Proof.Machine
end

