-- ==== Sys2Proof/Machine/MgmtCmds.lean ====
section
/-! DEFINITION. The management port, GPIO and JTAG as commands (19_boot_selftest.md, 21_package_electrical.md). -/
set_option autoImplicit false
namespace Sys2Proof.Machine

/-- SPDM GET_VERSION (R568). -/
def execGetVersion (s : State) : Host.Outcome State Fault Refusal :=
  .next (s.spdmVersion)

/-- SPDM GET_CAPABILITIES (R568). -/
def execGetCapabilities (s : State) : Host.Outcome State Fault Refusal :=
  .next (s.spdmCapabilities)

/-- SPDM NEGOTIATE_ALGORITHMS (R568): whether the request offers ECDSA P-384 and SHA-384. -/
def execNegotiateAlgorithms (p384 sha : Bool) (s : State) : Host.Outcome State Fault Refusal :=
  .next (s.spdmAlgorithms p384 sha)

/-- SPDM GET_DIGESTS (R568). -/
def execGetDigests (s : State) : Host.Outcome State Fault Refusal :=
  .next (s.spdmDigests)

/-- SPDM GET_CERTIFICATE (R568). -/
def execGetCertificate (slot off len : Nat) (s : State) : Host.Outcome State Fault Refusal :=
  .next (s.spdmCertificate slot off len)

/-- SPDM CHALLENGE (R568). -/
def execChallenge (slot : Nat) (nonce : List Nat) (s : State) : Host.Outcome State Fault Refusal :=
  .next (s.spdmChallenge slot nonce)

/-- SPDM GET_MEASUREMENTS (R568). -/
def execGetMeasurements (block : Nat) (nonce : List Nat) (sign : Bool) (s : State) : Host.Outcome State Fault Refusal :=
  .next (s.spdmMeasurements block nonce sign)

/-- An authorisation: public key, message and signature (R574). -/
def execVendorDefinedRequest (key msg : List Nat) (r sg : Nat) (s : State) : Host.Outcome State Fault Refusal :=
  .next (s.spdmVendor key msg r sg)

/-- The filtered input of a pin has changed (R579, R622). -/
def execGpioInputChange (pin : Nat) (level : Bool) (s : State) : Host.Outcome State Fault Refusal :=
  onUnit (pin < 32) (s.gpioChange pin level)

/-- ENTDAA gives a dynamic address (R620). -/
def execEntdaa (addr : Nat) (s : State) : Host.Outcome State Fault Refusal :=
  onUnit (addr < 128) (s.entdaa addr)

/-- SETDASA gives a dynamic address (R620). -/
def execSetdasa (static addr : Nat) (s : State) : Host.Outcome State Fault Refusal :=
  onUnit (static < 128 && addr < 128) (s.setdasa static addr)

/-- The TAP instruction (R621). -/
def execIdcode (s : State) : Host.Outcome State Fault Refusal :=
  .next (s.tapIns .idcode)

/-- The TAP instruction (R621). -/
def execBypass (s : State) : Host.Outcome State Fault Refusal :=
  .next (s.tapIns .bypass)

/-- The TAP instruction (R621). -/
def execSamplePreload (s : State) : Host.Outcome State Fault Refusal :=
  .next (s.tapIns .sample)

/-- The TAP instruction (R621). -/
def execExtest (s : State) : Host.Outcome State Fault Refusal :=
  .next (s.tapIns .extest)

/-- The TAP instruction (R621). -/
def execIntest (s : State) : Host.Outcome State Fault Refusal :=
  .next (s.tapIns .intest)

/-- TRST_N, or five cycles of TMS high (R621). -/
def execTapReset (s : State) : Host.Outcome State Fault Refusal :=
  .next (s.tapReset)

end Sys2Proof.Machine
end

