-- ==== Sys2Proof/Machine/Pipeline.lean ====
section
/-! DEFINITION. Events of the cores and arbours (07_core_pipeline.md, 08_arbour_lockstep.md, 06_privilege_translation.md). -/
set_option autoImplicit false
namespace Sys2Proof.Machine

/-- R231, R239: what a squash leaves behind. -/
def State.orderSquash (s : State) (lc : Nat) : State :=
  if !s.coreRuns lc then s
  else
    (s.coreEv lc 0x083).shelfDiscard lc (s.core lc).walled

/-- An interrupt with its INFO taken at the boundary where the core stands, when it is the one that may be taken now. -/
def State.interruptTaken (s : State) (lc info : Nat) : State :=
  if s.coreRuns lc ∧ s.irqNow lc = some info then s.takeExc lc (Exc.interrupt info) (s.core lc).pc else s

/-- R194, R195: timer k fires: ENk clears; timer 2 with IMO = 0 sets P2, any other firing pushes its entry. A firing in T3 raises a
wake (R532), and so does one in T1 or T2 (DEDUCED, entry 71). -/
def State.timerFire (s : State) (lc k : Nat) : State :=
  let c := s.core lc
  let ctl := c.sysr 0x03A
  if !within 1 k 2 ∨ !s.coreExists lc ∨ !bitOf ctl (k - 1) ∨ s.time < (c.sysr (0x037 + k)).toNat then s
  else
    let ctl := setBit ctl (k - 1) false
    let direct : Bool := k == 2 && !c.imo
    let s := s.setCore lc (c.setSys 0x03A (if direct then setBit ctl 2 true else ctl))
    let s := if direct then s else (s.iqPush lc k 0 0).1
    if within 1 (s.tileSt (lcTile lc)) 3 then s.wakeTile (lcTile lc) else s

/-- R414: the oldest state message for a core is applied when its number is later than that of the last one; a tile that is not in
T0 is woken, and only the latest message waits at its stop (R531). -/
def State.stateMessage (s : State) (lc : Nat) : State :=
  match (s.stateMsgs.filter (fun (m : StateMsg) => m.lc == lc)).reverse, s.stateMsgs.find? (fun (m : StateMsg) => m.lc == lc) with
  | latest :: _, some first =>
    if !s.tileOpen (lcTile lc) then
      ({ s with stateMsgs := s.stateMsgs.filter (fun (m : StateMsg) => m.lc != lc) ++ [latest] }).wakeTile (lcTile lc)
    else
      let s := { s with stateMsgs := s.stateMsgs.erase first }
      s.setCore lc ((s.core lc).pendApply first.seq first.pending)
  | _, _ => s

/-- A committed store at a place of the store buffer is written to the L2 and L1D (R227, R278), when nothing older must precede it
(R148, R150). -/
def execStoreBufferWrite (lc n : Nat) (s : State) : Host.Outcome State Fault Refusal :=
  onUnit (lc < 512) (s.sbWriteNth lc n)

/-- A load and every younger instruction are squashed (R231): nothing of them has retired, so the fill shelf is discarded (R239) and the
events are counted; the core goes on at the load. -/
def execMemOrderSquash (lc : Nat) (s : State) : Host.Outcome State Fault Refusal :=
  onUnit (lc < 512) (s.orderSquash lc)

/-- A pending queue interrupt is taken at an instruction boundary (R191). -/
def execInterruptTaken (lc : Nat) (s : State) : Host.Outcome State Fault Refusal :=
  onUnit (lc < 512) (s.interruptTaken lc 0)

/-- A direct timer-2 interrupt is taken (R195). -/
def execDirectTimer2Interrupt (lc : Nat) (s : State) : Host.Outcome State Fault Refusal :=
  onUnit (lc < 512) (s.interruptTaken lc 2)

/-- Timer k of a core has reached its compare value (R194, R195, R532). -/
def execTimerFire (lc k : Nat) (s : State) : Host.Outcome State Fault Refusal :=
  onUnit (lc < 512) (s.timerFire lc k)

/-- A state message of the Urn arrives at the tile of a core (R414, R531). -/
def execPendingStateMessage (lc : Nat) (s : State) : Host.Outcome State Fault Refusal :=
  onUnit (lc < 512) (s.stateMessage lc)

/-- The throttle level takes effect in the cores of a tile (R246). -/
def execThrottleLevelChange (lt : Nat) (s : State) : Host.Outcome State Fault Refusal :=
  onUnit (lt < 256) (s.throttle lt)

/-- A mismatch of a safe-mode arbour (R263 to R267). -/
def execMismatch (lt : Nat) (m : Mismatch) (s : State) : Host.Outcome State Fault Refusal :=
  onUnit (lt < 256) (s.mismatch lt m)

/-- No copy of core B arrived in time, which is a mismatch of the pair comparison (R257). -/
def execPairTimeout (lt : Nat) (s : State) : Host.Outcome State Fault Refusal :=
  onUnit (lt < 256) (s.mismatch lt
    { pair := true, resync := 0, both := false, lines := [], replay := false })

/-- A debug request splits a safe-mode arbour (R269). -/
def execDebugSplit (lt : Nat) (s : State) : Host.Outcome State Fault Refusal :=
  onUnit (lt < 256) (s.debugSplit lt)

end Sys2Proof.Machine
end

