-- ==== Sys2Proof/Machine/PowerCmds.lean ====
section
/-! DEFINITION. Power domains, levels, governor, sleep and clocks as commands (17_power_clocks.md). -/
set_option autoImplicit false
namespace Sys2Proof.Machine

/-- A write to PWR_DOM_CTL (R505, R525, R526, R529). -/
def execPwrDomTarget (w : CtlWho) (dom : Nat) (v : BitVec 64) (s : State) : Host.Outcome State Fault Refusal :=
  onUnit ((domCls dom).isSome) (s.domCtlWrite w dom v)

/-- A write to PWR_TILE_PERF (R520). -/
def execPwrTilePerfReq (lt : Nat) (v : BitVec 64) (s : State) : Host.Outcome State Fault Refusal :=
  onUnit (lt < 256) (s.perfWrite lt v)

/-- A write to PWR_DOM_VOTE (R505, R529). -/
def execPwrDomVote (w : CtlWho) (dom : Nat) (v : BitVec 64) (s : State) : Host.Outcome State Fault Refusal :=
  onUnit ((domCls dom).isSome) (s.domVoteWrite w dom v)

/-- A domain has been idle for TIMER_US (R529). -/
def execIdleTimerExpiry (dom : Nat) (s : State) : Host.Outcome State Fault Refusal :=
  onUnit ((domCls dom).isSome) (s.idleExpiry dom)

/-- The change in progress of a domain completes (R527, R530 to R532); the records of a domain that goes off are retained first (R586). -/
def execDomainChangeComplete (dom : Nat) (s : State) : Host.Outcome State Fault Refusal :=
  onUnit ((domCls dom).isSome) (s.domChangeDone dom)

/-- The level change of a tile completes (R522), at its present guardband voltage (R599). -/
def execLevelChangeComplete (lt : Nat) (s : State) : Host.Outcome State Fault Refusal :=
  onUnit (lt < 256) (s.levelComplete lt)

/-- A wake request for a domain (R531); any wake request ends a package sleep (R534, R535). -/
def execWake (dom : Nat) (s : State) : Host.Outcome State Fault Refusal :=
  onUnit ((domCls dom).isSome) (s.wakeEvent dom)

/-- The stop of a domain meets a packet for it (R531): a snoop, a queue answer or another. -/
def execHeldPacket (dom : Nat) (packet : List Flit) (snoop answer : Bool) (s : State) : Host.Outcome State Fault Refusal :=
  onUnit ((domCls dom).isSome) (s.heldPacket dom packet snoop answer)

/-- A tick of the current governor (R515 to R517) with the voltages in mV, the input current in 0.1 A, the delivered power and the demand
in mW. -/
def execGovernorTick (vin v5 iin pin demand : Nat) (s : State) : Host.Outcome State Fault Refusal :=
  .next (s.govTick vin v5 iin pin demand)

/-- The 5.0 V rail has reached 5.4 V: the input fall limit is suspended (R513). -/
def execFallOvr (s : State) : Host.Outcome State Fault Refusal :=
  .next (s.fallOvr)

/-- A millisecond of the package cap with its average input power in W (R521). -/
def execPackageCapTick (avg : Nat) (s : State) : Host.Outcome State Fault Refusal :=
  .next (s.pkgCapTick avg)

/-- A tick of a tile's thermal cap with its junction temperature in °C (R521). -/
def execThermalCapTick (lt tj : Nat) (s : State) : Host.Outcome State Fault Refusal :=
  onUnit (lt < 256) (s.thermalTick lt tj)

/-- Entry into Idle Sleep (R534). -/
def execM6Entry (s : State) : Host.Outcome State Fault Refusal :=
  .next (s.m6Entry)

/-- A wake event ends Idle Sleep (R534). -/
def execM6Exit (s : State) : Host.Outcome State Fault Refusal :=
  .next (s.m6Exit)

/-- A write of 1 to PWR_PKG_CTL.M7_REQ (R505, R535). -/
def execM7Req (w : CtlWho) (s : State) : Host.Outcome State Fault Refusal :=
  .next (s.m7Req w)

/-- Every core is idle: entry into Deep Sleep, or a refusal (R535). -/
def execM7Entry (s : State) : Host.Outcome State Fault Refusal :=
  .next (s.m7Entry)

/-- 10 ms have passed since M7_REQ was written (R535). -/
def execM7RefusalTimeout (s : State) : Host.Outcome State Fault Refusal :=
  .next (s.m7Timeout)

/-- A wake event ends Deep Sleep (R535). -/
def execM7Exit (s : State) : Host.Outcome State Fault Refusal :=
  .next (s.m7Exit)

/-- A write to CLK_CD or CLK_IOD of a die (R537). -/
def execClockChange (die : Nat) (v : BitVec 64) (s : State) : Host.Outcome State Fault Refusal :=
  onUnit (die < 10) (s.clockWrite die v)

/-- The clock of a die restarts at its new frequency (R537). -/
def execClockChangeDone (die : Nat) (s : State) : Host.Outcome State Fault Refusal :=
  onUnit (die < 10) (s.clockDone die)

end Sys2Proof.Machine
end

