-- ==== Sys2Proof/Machine/Protocol.lean ====
section
/-! DEFINITION. Coherence messages and timeouts as commands (10_coherence.md). -/
set_option autoImplicit false
namespace Sys2Proof.Machine

/-- A message of a kind delivered to its destination; array errors stand in the arrays before it is served. A message of another socket
is a wake event (R534). One that an older message of its channel, sender and receiver precedes has not arrived (R316). -/
def State.arrive (s : State) (k : MsgKind) (m : Msg) (errs : List CacheErr) : State :=
  let m := { m with kind := k }
  if s.net.contains m && !s.inOrder m then s
  else
    let s := match m.src with
      | .socket _ => s.pkgWake
      | .tile _ | .llc _ | .home _ | .iommu _ | .nca _ => s
    ((errs.foldl (fun (s : State) e => s.cacheErr e) s).takeMsg m).deliver m

/-- R321: the oldest refused request sent again. -/
def State.retryOne (s : State) : State :=
  match s.nacked with
  | [] => s
  | m :: rest => ({ s with nacked := rest }).send { m with retried := true }

/-- R337: the timer of a blocked line expires at a home or slice. -/
def State.cohTimeout (s : State) (a : Agent) (line : Nat) : State :=
  match a with
  | .home i => s.homeTimeout i line
  | .llc lt => s.llcTimeout lt line (fun s t => s.quarantine t)
  | .tile _ | .socket _ | .iommu _ | .nca _ => s

/-- RdS at an LLC or home (R325, R326); `errs` are the array errors that the read meets (R290). -/
def execRds (m : Msg) (errs : List CacheErr) (s : State) : Host.Outcome State Fault Refusal :=
  .next (s.arrive .rdS m errs)

/-- RdX at an LLC or home (R325, R326); `errs` are the array errors that the read meets (R290). -/
def execRdx (m : Msg) (errs : List CacheErr) (s : State) : Host.Outcome State Fault Refusal :=
  .next (s.arrive .rdX m errs)

/-- Upg at an LLC or home (R327). -/
def execUpg (m : Msg) (s : State) : Host.Outcome State Fault Refusal :=
  .next (s.arrive .upg m [])

/-- RdNC at the home (R330). -/
def execRdnc (m : Msg) (s : State) : Host.Outcome State Fault Refusal :=
  .next (s.arrive .rdNC m [])

/-- WrInv at the home (R330, R331). -/
def execWrinv (m : Msg) (s : State) : Host.Outcome State Fault Refusal :=
  .next (s.arrive .wrInv m [])

/-- WbM (R322); `errs` are the array errors that the read meets (R290). -/
def execWbm (m : Msg) (errs : List CacheErr) (s : State) : Host.Outcome State Fault Refusal :=
  .next (s.arrive .wbM m errs)

/-- EvC (R322). -/
def execEvc (m : Msg) (s : State) : Host.Outcome State Fault Refusal :=
  .next (s.arrive .evC m [])

/-- FwdS at a holder (R328). -/
def execFwds (m : Msg) (s : State) : Host.Outcome State Fault Refusal :=
  .next (s.arrive .fwdS m [])

/-- FwdX at a holder (R328). -/
def execFwdx (m : Msg) (s : State) : Host.Outcome State Fault Refusal :=
  .next (s.arrive .fwdX m [])

/-- Inv at a holder or IOMMU (R328, R329). -/
def execInv (m : Msg) (s : State) : Host.Outcome State Fault Refusal :=
  .next (s.arrive .inv m [])

/-- Data at a requester or forwarder (R315). -/
def execData (m : Msg) (s : State) : Host.Outcome State Fault Refusal :=
  .next (s.arrive .data m [])

/-- Ack (R315). -/
def execAck (m : Msg) (s : State) : Host.Outcome State Fault Refusal :=
  .next (s.arrive .ack m [])

/-- Cmp (R320). -/
def execCmp (m : Msg) (s : State) : Host.Outcome State Fault Refusal :=
  .next (s.arrive .cmp m [])

/-- A writeback acknowledgement (R317). -/
def execWback (m : Msg) (s : State) : Host.Outcome State Fault Refusal :=
  .next (s.arrive .wbAck m [])

/-- Nack at the sender of a request (R321). -/
def execNack (m : Msg) (s : State) : Host.Outcome State Fault Refusal :=
  .next (s.arrive .nack m [])

/-- A refused request is sent again, marked as retried (R321). -/
def execNackRetry (s : State) : Host.Outcome State Fault Refusal :=
  .next s.retryOne

/-- The timer of a blocked line expires at a home or LLC slice (R337, R338). -/
def execCoherenceTimeout (a : Agent) (line : Nat) (s : State) : Host.Outcome State Fault Refusal :=
  .next (s.cohTimeout a line)

end Sys2Proof.Machine
end

