-- ==== Sys2Proof/Machine/SysReg.lean ====
section
/-! DEFINITION. The system registers (Table 6-13, R214, Table 18-1): which exist, at which level, what a read returns and what a
SYSWR changes (R178, R88, R542). -/
set_option autoImplicit false
namespace Sys2Proof.Machine

/-- The lowest level that reaches system register n; none when it does not exist (R178). -/
def sysLevel (part : Part) (n : Nat) : Option Nat :=
  let l3 := if part = .a1 then some 3 else none
  match n with
  | 0x000 | 0x001 | 0x003 | 0x009 | 0x010 | 0x014 | 0x018 | 0x01C | 0x020 | 0x024 | 0x028 | 0x02C | 0x030 | 0x031 | 0x038
  | 0x03A | 0x03C | 0x03D => some 1
  | 0x002 | 0x032 => some 0
  | 0x008 | 0x011 | 0x015 | 0x019 | 0x01D | 0x021 | 0x025 | 0x029 | 0x02B | 0x02D | 0x039 | 0x05C | 0x05D => some 2
  | 0x012 | 0x016 | 0x01A | 0x01E | 0x022 | 0x026 | 0x02A => l3
  | _ => if within 0x040 n 0x04A ∨ within 0x050 n 0x058 then some 1 else none

/-- R542: counters are readable at PL0 with USER. -/
def Core.sysReadLevel (c : Core) (part : Part) (n : Nat) : Option Nat :=
  if within 0x040 n 0x04A ∧ bitOf (c.sysr 0x058) 43 then some 0 else sysLevel part n

/-- The value that SYSRD returns. -/
def State.sysRead (s : State) (lc n : Nat) : BitVec 64 :=
  let c := s.core lc
  match n with
  | 0x001 =>
    let safe := s.flag (ltDie (lcTile lc)) (ltIdx (lcTile lc)) ARB_STATUS [] ARB_STATUS_MODE
    v64 (lc % 1024 + s.socketId * 2 ^ 10 + safe.toNat * 2 ^ 13)
  | 0x002 => v64 s.time
  | 0x003 => v64 (iqNum lc)
  | 0x03C => 0
  | _ => c.sysr n

/-- The bits that a SYSWR replaces, for registers whose writable bits do not depend on the level. -/
def sysMask (n : Nat) : BitVec 64 :=
  match n with
  | 0x000 => 0x8
  | 0x001 | 0x002 | 0x003 | 0x03D => 0
  | 0x008 => 0xFFFF000F
  | 0x010 | 0x011 | 0x012 => 0x03FFFFFFFFFFF000
  | 0x014 | 0x015 | 0x016 => 0x03FFFFFFFFFFFFFC
  | 0x018 | 0x019 | 0x01A => 0xF
  | 0x01C | 0x01D | 0x01E => 0xFFFF3FFF
  | 0x028 | 0x029 | 0x02A => 0x000FFFFFFFFFC001
  | 0x02B => 0x000FFFFFFFFFC000
  | 0x02C => 0xFFFF
  | 0x02D => 0x000FFFFFFFFFFFFF
  | 0x032 => 0x1F1FFF
  | 0x058 => cntctlMask
  | 0x05C => 0x000FFFFFFFFFFF81
  | 0x05D => 0x000FFFFFFFFFFF80
  | _ => if within 0x040 n 0x04A then 0x0000FFFFFFFFFFFF else if within 0x050 n 0x057 then cntselMask else 0xFFFFFFFFFFFFFFFF

/-- Some bits of a register replaced. -/
def mergeBits (old new mask : BitVec 64) : BitVec 64 := (old &&& ~~~ mask) ||| (new &&& mask)

/-- R88: the fields of s.tagctl that a level may write; EN bit 3 only in the Walled world. -/
def tagctlMask (part : Part) (c : Core) : BitVec 64 :=
  let lvl := fun (n : Nat) => decide (c.pl ≥ max 1 n)
  let en := (List.range 4).foldl (fun m n =>
    if lvl n && (n != 3 || (c.walled && part == .a1)) then m + 2 ^ n else m) 0
  let preq := (List.range 4).foldl (fun m n => if lvl n then m + 2 ^ (4 + n) else m) 0
  v64 (en + preq + 0x300)

/-- The stored value after a SYSWR of v (R178). -/
def Core.sysWritten (c : Core) (part : Part) (n : Nat) (v : BitVec 64) : BitVec 64 :=
  let old := c.sysr n
  match n with
  | 0x030 => mergeBits old v (tagctlMask part c)
  | 0x03A =>
    let x := mergeBits old v (if c.pl ≥ 2 then 3 else 1)
    if c.pl ≥ 2 ∧ bitOf v 2 then setBit x 2 false else x
  | 0x058 =>
    let x := mergeBits old v cntctlMask
    if c.walled then x else setBit x 48 false
  | 0x05C =>
    let x := mergeBits old v 0x000FFFFFFFFFFF81
    if bitOf v 1 then setBit x 1 false else x
  | _ =>
    let x := mergeBits old v (sysMask n)
    if within 0x050 n 0x057 ∧ !c.walled then setBit x 16 false else x

/-- A SYSWR done: the register, and cold predictors for s.asid and s.hctl (R225). -/
def Core.sysWrite (c : Core) (part : Part) (n : Nat) (v : BitVec 64) : Core :=
  let c' := c.setSys n (c.sysWritten part n v)
  if n = 0x02C ∨ n = 0x008 then c'.coldPred else c'

/-- R197: the status of an IPI, none while the Urn has not answered. What another socket answers is its own. -/
def State.ipi (s : State) (lc : Nat) (v : BitVec 64) : Option Nat × State :=
  let dst := field v 0 10
  let sock := field v 10 3
  let src := s.socketId * 2 ^ 10 + lc
  if s.ipiWaits lc then (none, s)
  else match s.urnAns.find? (fun a => a.who == .ipi lc) with
  | some a => (some (if a.status = 0 then 0 else 1), { s with urnAns := s.urnAns.erase a })
  | none =>
    if sock = s.socketId then
      if !s.coreExists dst || !s.qEn (iqNum dst) then (some 1, s)
      else match s.iqAsk (.ipi lc) dst 0x03 src (field v 32 32) with
        | (s, .pushed) => (some 0, s)
        | (s, .refused) => (some 2, s)
        | (s, .waits) => (none, s)
    else if !s.fbReach sock then (some 1, s)
    else
      let s := s.emit (.footbridge sock 1 [dst, src, field v 32 32])
      let (n, s) := s.takeFree
      (some ((Config.freeValue n).toNat % 3), s)

end Sys2Proof.Machine
end

