-- ==== Sys2Proof/Machine/Tlbi.lean ====
section
/-! DEFINITION. TLB maintenance (R208 to R213): which entries an operation removes, locally or as a broadcast. -/
set_option autoImplicit false
namespace Sys2Proof.Machine

/-- Whether an operation reaches entries of a world (R208): the issuing core's, and at PL3 both. -/
def tlbiWorld (t : TlbiOp) (walled : Bool) : Bool := decide (t.level = 3) || t.walled == walled

/-- Whether a regime lies in the scope of the issuing level for TLBI.VA (Table 6-12). -/
def tlbiRegime (t : TlbiOp) (r : Nat) : Bool := r == 0 || (r == 2 && decide (t.level ≥ 2)) || (r == 3 && decide (t.level = 3))

/-- Whether an operation removes a TLB entry (Table 6-12). -/
def tlbiHits (t : TlbiOp) (e : TlbEnt) : Bool :=
  let vmOk := match t.vm with
    | some v => e.regime != 0 || e.vmid == some v
    | none => true
  tlbiWorld t e.walled && vmOk &&
    (match t.kind with
     | .va =>
       tlbiRegime t e.regime && e.vaPage == t.va / 2 ^ e.bits &&
         (match e.asid with
          | some a => a == t.id
          | none => true)
     | .asid => e.regime == 0 && e.asid == some t.id
     | .all => if t.level = 1 then e.regime == 0 else true
     | .vmid => e.regime == 0 && e.vmid == some t.id
     | .ipa =>
       e.regime == 0 && e.attr2.isSome && e.vmid == some t.id &&
         e.ipa / 2 ^ levelBits e.level2 == t.va / 2 ^ levelBits e.level2)

/-- Whether an operation removes a table entry that the walker holds (R208). The path of a global translation may be held under any
ASID. -/
def tlbiHitsWalk (t : TlbiOp) (e : WalkEnt) : Bool :=
  let r := if e.regime = 4 then 0 else e.regime
  let vmOk := match t.vm with
    | some v => r != 0 || e.vmid == some v
    | none => true
  tlbiWorld t e.walled && vmOk &&
    (match t.kind with
     | .va => e.regime != 4 && tlbiRegime t r && e.idx == t.va / 2 ^ levelBits e.level
     | .asid => e.regime == 0 && e.asid == t.id
     | .all => if t.level = 1 then r == 0 else true
     | .vmid => r == 0 && e.vmid == some t.id
     | .ipa => e.regime == 4 && e.vmid == some t.id && e.idx == t.va / 2 ^ levelBits e.level)

/-- The entries of a core that an operation covers removed. -/
def Core.tlbiDo (c : Core) (t : TlbiOp) : Core :=
  let keep := fun (l : List TlbEnt) => l.filter (fun e => !tlbiHits t e)
  { c with itlb := keep c.itlb, dtlb := keep c.dtlb, tlb := keep c.tlb, wcache := c.wcache.filter (fun e => !tlbiHitsWalk t e) }

/-- The operation of a TLBI instruction of a core. -/
def Core.tlbiOp (c : Core) (k : TlbiKind) (va id : Nat) : TlbiOp :=
  { kind := k, level := c.pl, walled := c.walled, vm := if c.pl = 1 ∧ c.vm then some c.vmid else none, va := va, id := id }

/-- The kind of a TLBI as a Footbridge message names it. -/
def tlbiCode (k : TlbiKind) : Nat :=
  match k with
  | .va => 0
  | .asid => 1
  | .all => 2
  | .vmid => 3
  | .ipa => 4

/-- A broadcast TLBI on its way to the other started cores of the package. -/
def State.tlbiSpread (s : State) (m : TlbiMsg) : State :=
  let own := fun (n : Nat) => n == m.dst || (m.sock.isNone && n == m.src)
  let targets := (s.cores.map (fun x => x.1)).filter (fun n => !own n && s.coreExists n && (s.core n).started)
  { s with tlbis := s.tlbis ++ targets.map (fun n => { m with dst := n }) }

/-- A broadcast TLBI sent to a joined socket, under a number that no other of the core's has there (entry 16). -/
def State.tlbiSend (s : State) (lc : Nat) (t : TlbiOp) (n : Nat) : State :=
  let k := 1 + (s.tlbiOuts.filter (fun x => x.src == lc && x.sock == n)).foldl (fun m x => max m x.num) 0
  State.emit { s with tlbiOuts := s.tlbiOuts ++ [⟨lc, n, k⟩] }
    (.footbridge n 2 [lc, k, tlbiCode t.kind, t.level, t.walled.toNat, (t.vm.map (· + 1)).getD 0, t.va, t.id])

/-- R209: a TLBI acts on its core, and with B = 1 goes to every other core of the package and to every joined socket. -/
def State.tlbiIssue (s : State) (lc : Nat) (t : TlbiOp) (bcast : Bool) : State :=
  let s := s.setCore lc ((s.core lc).tlbiDo t)
  if !bcast then s
  else
    (List.range 8).foldl (fun (s : State) n => if n ≠ s.socketId ∧ s.fbReach n then s.tlbiSend lc t n else s)
      (s.tlbiSpread { src := lc, sock := none, dst := lc, op := t })

/-- Whether a TLBI that a core issued is still to be done somewhere (R210): by a core of the package, or by a socket that is still
joined. -/
def State.tlbiWaits (s : State) (lc : Nat) : Bool :=
  s.tlbis.any (fun m => m.sock.isNone && m.src == lc) || s.tlbiOuts.any (fun x => x.src == lc && s.fbReach x.sock)

/-- The release-buffer entry of a broadcast TLBI (R255). -/
def tlbiEnt (t : TlbiOp) : RbEnt :=
  { kind := .tlbi, addr := t.va, size := t.id, data := [], committed := false, msg := none }

/-- The frame of a TLBI (R177, R209): the words' fields, the level, the trap of s.hctl.TTLB, poison operands; then older ordered
stores are written, and the operation is done. -/
def runTlbi (lc opn : Nat) (o : ROp) (ok : Bool) (minPl : Nat) (ops : List Word) (t : Core → TlbiOp) (s : State) : State :=
  s.runInstr lc (fun (s : State) =>
    let c := s.core lc
    if !ok ∨ o.rd ≠ 0 ∨ o.md.toNat ≥ 2 then (.error (.exc .illegal), s)
    else if c.pl < minPl then (.error (.exc .privilege), s)
    else if c.pl = 1 ∧ bitOf (c.sysr 0x008) 3 then (.error (.exc (Exc.trapped (0x800 + opn))), s)
    else match firstPoison ops with
      | some code => (.error (.exc (Exc.poison code.toNat)), s)
      | none =>
        match s.sbOrdered lc with
        | (false, s) => (.error .stall, s)
        | (true, s) =>
          match if o.md = 1 then s.rbPass (lcTile lc) (tlbiEnt (t c)) else (true, s) with
          | (false, s) => (.error .stall, s)
          | (true, s) =>
            let s := s.tlbiIssue lc (t c) (decide (o.md = 1))
            (.ok false, s.setCore lc (s.core lc).advance))

/-- Socket n is told that the last core of this package has done TLBI k of its core src. -/
def State.tlbiReport (s : State) (m : TlbiMsg) : State :=
  match m.sock with
  | none => s
  | some (n, k) =>
    if s.tlbis.any (fun x => x.sock == m.sock && x.src == m.src) then s else s.emit (.footbridge n 5 [m.src, k])

/-- A broadcast TLBI acts on the core it has reached (R210, R212): accesses that used a removed translation are performed first, and where
they cannot be yet it stays on its way. -/
def State.tlbiArrive (s : State) (m : TlbiMsg) : State :=
  match s.sbEmpty m.dst with
  | (false, s) => s
  | (true, s) =>
    if s.coreBegun m.dst then s
    else
    let s := s.setCore m.dst ((s.core m.dst).tlbiDo m.op)
    ({ s with tlbis := s.tlbis.erase m }).tlbiReport m

/-- What reaches a core as a broadcast TLBI (R209): the oldest of its source on its way to it; one that a Footbridge brings, which goes on to
the other cores; or another socket's report. -/
def State.tlbiTake (s : State) (frm : TlbiFrom) (dst : Nat) : State :=
  let oldest := fun (src : Nat) (sock : Option (Nat × Nat)) =>
    match s.tlbis.find? (fun m => m.src == src && m.sock == sock && m.dst == dst) with
    | some m => s.tlbiArrive m
    | none => s
  match frm with
  | .core src => oldest src none
  | .peer n src k => oldest src (some (n, k))
  | .link n src k op =>
    let m : TlbiMsg := { src := src, sock := some (n, k), dst := dst, op := op }
    (({ s with tlbis := s.tlbis ++ [m] }).tlbiSpread m).tlbiArrive m
  | .done n k => { s with tlbiOuts := s.tlbiOuts.erase ⟨dst, n, k⟩ }

end Sys2Proof.Machine
end

