-- ==== Sys2Proof/Machine/System.lean ====
section
/-! DEFINITION. Meanings of the system instructions (06_privilege_translation.md, class 0x0). -/
set_option autoImplicit false
namespace Sys2Proof.Machine

/-- The body of a SYSWR (R178): existence, level, the trap of s.hctl.TIPI, the poison source, then the write; its own retirement is
counted before a counter register takes its new value. -/
def State.sysWriteBody (s : State) (lc n : Nat) (ra : BitVec 5) : MRes Bool :=
  let c := s.core lc
  let a := c.getG ra
  match sysLevel s.part n with
  | none => (.error (.exc .illegal), s)
  | some l =>
    if c.pl < l then (.error (.exc .privilege), s)
    else if n = 0x03C ∧ c.pl = 1 ∧ bitOf (c.sysr 0x008) 2 then (.error (.exc (Exc.trapped 0x03C)), s)
    else if a.isPoison then (.error (.exc (Exc.poison (wordCode a))), s)
    else if n = 0x03C then
      match s.rbPass (lcTile lc) { kind := .ipi, addr := 0x03C, size := 8, data := [a], committed := false, msg := none } with
      | (false, s) => (.error .stall, s)
      | (true, s) =>
        match s.ipi lc a.val with
        | (none, s) => (.error .stall, s)
        | (some st, s) => (.ok false, s.setCore lc ((s.core lc).setSys 0x03D (v64 st)).advance)
    else
      (.ok true, s.setCore lc ((c.countRetired c.pl c.walled).sysWrite s.part n a.val).advance)

/-- The registers after ERET or WRET to a level and world (R181, R182). -/
def Core.returned (c : Core) (n t : Nat) (open' : Bool) : Core :=
  let est := c.sysr (0x017 + n)
  let st := setField (setField (c.sysr 0x000) 0 2 t) 3 1 (bitOf est 3).toNat
  let c := c.setSys 0x000 (if open' then setField st 2 1 0 else st)
  { c with pc := field (c.sysr (0x013 + n)) 2 56 * 4 }

/-- The body of ERET. -/
def State.eretBody (s : State) (lc : Nat) : MRes Bool :=
  let c := s.core lc
  let n := c.pl
  let est := c.sysr (0x017 + n)
  let t := field est 0 2
  if n = 0 then (.error (.exc .privilege), s)
  else if t > n ∨ bitOf est 2 ≠ c.walled then (.error (.exc .privilege), s)
  else
    let entry := decide (n = 2) && decide (t ≤ 1) && c.vm && bitOf (c.sysr 0x05C) 0
    let go := fun (c : Core) =>
      let c := c.returned n t false
      if t ≠ n then c.coldPred else c
    match (if entry then s.ctxLine lc 0x05D else (some none, s)) with
    | (none, s) => (.error .stall, s)
    | (some line, s) =>
      let s := s.setCore lc ((s.core lc).countRetired n c.walled)
      let s := if entry then s.ctxSwap lc 0x05C 0x05D line else s
      (.ok true, s.setCore lc (go (s.core lc)))

/-- The body of WRET. -/
def State.wretBody (s : State) (lc : Nat) : MRes Bool :=
  let c := s.core lc
  let t := field (c.sysr 0x01A) 0 2
  if c.pl ≠ 3 then (.error (.exc .privilege), s)
  else if t = 0 ∨ t = 3 then (.error (.exc .privilege), s)
  else
    let s := s.setCore lc ((c.countRetired 3 true).returned 3 t true).coldPred
    (.ok true, s.worldFlush lc true)

/-- The three calls. -/
inductive CallKind where
  | scall | hcall | wcall

/-- What a call raises (R180, Table 6-2): its own exception, or the refusal of its fields or level. -/
def callExc (part : Part) (k : CallKind) (o : IOp) (c : Core) : Exc :=
  let imm := o.imm.toNat
  if o.rd ≠ 0 ∨ o.ra ≠ 0 then Exc.illegal
  else match k with
    | .scall => if c.pl ≥ 2 then Exc.privilege else Exc.mk1 0x18 imm 0
    | .hcall => if c.pl = 0 ∨ c.pl = 3 then Exc.privilege else Exc.mk1 0x19 imm 0
    | .wcall =>
      if part = .x1 then Exc.illegal
      else if c.pl = 0 ∨ c.pl = 3 ∨ c.walled then Exc.privilege
      else Exc.mk1 0x1A imm 0

/-- MKPTR: at PL0 only for a colour that s.ptrcap allows (R179). -/
def mkptrOp (o : ROp) (c : Core) : CoreRes :=
  let a := c.getG o.ra
  if o.rb ≠ 0 ∨ o.md ≠ 0 then .error .illegal
  else if c.pl = 0 ∧ !bitOf (c.sysr 0x009) (vaColour a.val).toNat then .error .privilege
  else .ok (c.finish o.rd (withPoison [a] (Word.pointer a.val)))

/-- SYSRD (R178, R542). -/
def execSysrd (lc : Nat) (o : IOp) (s : State) : Host.Outcome State Fault Refusal :=
  .next (s.runInstr lc (fun (s : State) =>
    let c := s.core lc
    let n := o.imm.toNat
    if o.ra ≠ 0 then (.error (.exc .illegal), s)
    else match c.sysReadLevel s.part n with
      | none => (.error (.exc .illegal), s)
      | some l =>
        if c.pl < l then (.error (.exc .privilege), s)
        else (.ok false, s.setCore lc (c.finish o.rd (Word.data (s.sysRead lc n))))))

/-- SYSWR (R178); a write of s.ipi sends an IPI (R197). -/
def execSyswr (lc : Nat) (o : IOp) (s : State) : Host.Outcome State Fault Refusal :=
  .next (s.runInstr lc (fun (s : State) =>
    if o.rd ≠ 0 then (.error (.exc .illegal), s) else s.sysWriteBody lc o.imm.toNat o.ra))

/-- SYSWR to s.ipi (R197). -/
def execIpiSend (lc : Nat) (rd ra : BitVec 5) (s : State) : Host.Outcome State Fault Refusal :=
  .next (s.runInstr lc (fun (s : State) =>
    if rd ≠ 0 then (.error (.exc .illegal), s) else s.sysWriteBody lc 0x03C ra))

/-- ERET (R181), with the counter context switch of a VM entry (R546). -/
def execEret (lc : Nat) (o : ROp) (s : State) : Host.Outcome State Fault Refusal :=
  .next (s.runInstr lc (fun (s : State) =>
    if o.rd ≠ 0 ∨ o.ra ≠ 0 ∨ o.rb ≠ 0 ∨ o.md ≠ 0 then (.error (.exc .illegal), s) else s.eretBody lc))

/-- SCALL (R180). -/
def execScall (lc : Nat) (o : IOp) (s : State) : Host.Outcome State Fault Refusal :=
  .next (s.runInstr lc (fun (s : State) =>
    (.error (.exc (callExc s.part .scall o (s.core lc))), s)))

/-- HCALL (R180). -/
def execHcall (lc : Nat) (o : IOp) (s : State) : Host.Outcome State Fault Refusal :=
  .next (s.runInstr lc (fun (s : State) =>
    (.error (.exc (callExc s.part .hcall o (s.core lc))), s)))

/-- WCALL (R180, R500). -/
def execWcall (lc : Nat) (o : IOp) (s : State) : Host.Outcome State Fault Refusal :=
  .next (s.runInstr lc (fun (s : State) =>
    (.error (.exc (callExc s.part .wcall o (s.core lc))), s)))

/-- WRET (R182, R500). -/
def execWret (lc : Nat) (o : ROp) (s : State) : Host.Outcome State Fault Refusal :=
  .next (s.runInstr lc (fun (s : State) =>
    if o.rd ≠ 0 ∨ o.ra ≠ 0 ∨ o.rb ≠ 0 ∨ o.md ≠ 0 ∨ s.part ≠ .a1 then (.error (.exc .illegal), s) else s.wretBody lc))

/-- MKPTR (R179). -/
def execMkptr (lc : Nat) (o : ROp) (s : State) : Host.Outcome State Fault Refusal :=
  runCore lc (mkptrOp o) s

/-- TLBI.VA (R208). -/
def execTlbiVa (lc : Nat) (o : ROp) (s : State) : Host.Outcome State Fault Refusal :=
  .next (runTlbi lc 0x10 o (true) 1 [(s.core lc).getG o.ra, (s.core lc).getG o.rb] (fun c => c.tlbiOp .va (vaLow (c.getG o.ra).val) (field (c.getG o.rb).val 0 16)) s)

/-- TLBI.ASID (R208). -/
def execTlbiAsid (lc : Nat) (o : ROp) (s : State) : Host.Outcome State Fault Refusal :=
  .next (runTlbi lc 0x11 o (o.rb == 0) 1 [(s.core lc).getG o.ra] (fun c => c.tlbiOp .asid 0 (field (c.getG o.ra).val 0 16)) s)

/-- TLBI.ALL (R208). -/
def execTlbiAll (lc : Nat) (o : ROp) (s : State) : Host.Outcome State Fault Refusal :=
  .next (runTlbi lc 0x12 o (o.ra == 0 && o.rb == 0) 1 [] (fun c => c.tlbiOp .all 0 0) s)

/-- TLBI.VMID (R208). -/
def execTlbiVmid (lc : Nat) (o : ROp) (s : State) : Host.Outcome State Fault Refusal :=
  .next (runTlbi lc 0x13 o (o.rb == 0) 2 [(s.core lc).getG o.ra] (fun c => c.tlbiOp .vmid 0 (field (c.getG o.ra).val 0 16)) s)

/-- TLBI.IPA (R208). -/
def execTlbiIpa (lc : Nat) (o : ROp) (s : State) : Host.Outcome State Fault Refusal :=
  .next (runTlbi lc 0x14 o (true) 2 [(s.core lc).getG o.ra, (s.core lc).getG o.rb] (fun c => c.tlbiOp .ipa (field (c.getG o.ra).val 14 38 * 2 ^ 14) (field (c.getG o.rb).val 0 16)) s)

/-- A broadcast TLBI reaches a target core (R209, R212). -/
def execTlbiRemote (src : TlbiFrom) (dst : Nat) (s : State) : Host.Outcome State Fault Refusal :=
  .next (s.tlbiTake src dst)

/-- TLBSYNC (R210). -/
def execTlbsync (lc : Nat) (o : ROp) (s : State) : Host.Outcome State Fault Refusal :=
  .next (s.runInstr lc (fun (s : State) =>
    let c := s.core lc
    if o.rd ≠ 0 ∨ o.ra ≠ 0 ∨ o.rb ≠ 0 ∨ o.md ≠ 0 then (.error (.exc .illegal), s)
    else if c.pl = 0 then (.error (.exc .privilege), s)
    else if c.pl = 1 ∧ bitOf (c.sysr 0x008) 3 then (.error (.exc (Exc.trapped 0x818)), s)
    else if s.tlbiWaits lc then (.error .stall, s)
    else match s.sbEmpty lc with
      | (false, s) => (.error .stall, s)
      | (true, s) => (.ok false, s.setCore lc (s.core lc).advance)))

end Sys2Proof.Machine
end

