-- ==== Sys2Proof/Machine/UrnCmds.lean ====
section
/-! DEFINITION. The Urn and the timed service as commands (13_urn_timed_service.md). -/
set_option autoImplicit false
namespace Sys2Proof.Machine

/-- A requester of the Urn with what it brings with its message (Table 13-3). -/
def State.urnReq (s : State) (who : QWho) : QReq :=
  match who with
  | .core lc =>
    let c := s.core lc
    { who := who, walled := c.walled, pl := c.pl, vmid := if c.pl ≤ 1 ∧ c.vm then some c.vmid else none }
  | .kiosk k n => { who := who, walled := s.kWalled k, pl := if n = 4 ∨ s.kPriv k n then 1 else 0, vmid := none }
  | .function _ | .ipi _ | .hardware => { who := who, walled := false, pl := 0, vmid := none }

/-- What the Urn answers is sent to its requester (R161). -/
def State.urnServe (_ : State) (who : QWho) (q : Nat) (r : QRes × State) : State :=
  match r with
  | (.done st ws, s) => s.answer who q st ws
  | (.waits, s) => s

/-- The Urn serves a push of a core or kiosk (R404); its answer goes on its way. -/
def execUrnPush (who : QWho) (q : Nat) (ws : List Word) (wait single : Bool) (s : State) : Host.Outcome State Fault Refusal :=
  onUnit (q < 65536) (s.urnServe who q (s.urnPush (s.urnReq who) q ws wait single))

/-- The Urn serves a pop (R162, R404, R407). -/
def execUrnPop (who : QWho) (q : Nat) (wait single : Bool) (s : State) : Host.Outcome State Fault Refusal :=
  onUnit (q < 65536) (s.urnServe who q (s.urnPop (s.urnReq who) q wait single))

/-- The Urn serves a peek (R162). -/
def execUrnPeek (who : QWho) (q : Nat) (single : Bool) (s : State) : Host.Outcome State Fault Refusal :=
  onUnit (q < 65536) (s.urnServe who q (s.urnPeek (s.urnReq who) q single))

/-- The Urn registers a waiting operation, or ends it at once (R407). -/
def execUrnWait (who : QWho) (q : Nat) (s : State) : Host.Outcome State Fault Refusal :=
  onUnit (q < 65536) (s.urnServe who q (s.urnWaitOp (s.urnReq who) q))

/-- The oldest caddy entry of a half is in its ring and its slot frees (R404). -/
def execCaddyWritebackDone (h : Nat) (s : State) : Host.Outcome State Fault Refusal :=
  onUnit (h < 2) (s.caddyWriteback h)

/-- A doorbell write of a PCIe function in its world (R410); `sized` says that its size and alignment are right, `late` that it left
its root port later than R422 allows. -/
def execDoorbell (rid : Nat) (walled : Bool) (q : Nat) (ws : List (BitVec 64)) (sized late : Bool) (s : State) : Host.Outcome State Fault Refusal :=
  onUnit (q < 65536) (s.doorbell rid walled q ws sized late)

/-- A write of a function to the MSI window of an I/O die (R470). -/
def execMsi (i rid off data : Nat) (sized : Bool) (s : State) : Host.Outcome State Fault Refusal :=
  onUnit (i < 2) (s.msiWindow i rid off data sized)

/-- Held doorbells and MSIs of a half that have exceeded HOLD_US are discarded (R411). -/
def execHoldExpiry (h : Nat) (s : State) : Host.Outcome State Fault Refusal :=
  onUnit (h < 2) (s.holdExpire h)

/-- A write that sets URN_QCFG.EN (R400). -/
def execQueueEnable (q : Nat) (v : BitVec 64) (walled : Bool) (s : State) : Host.Outcome State Fault Refusal :=
  onUnit (q < 65536) (s.writeQcfg q (setBit v 0 true) walled)

/-- A write that clears URN_QCFG.EN (R402). -/
def execQueueDisable (q : Nat) (s : State) : Host.Outcome State Fault Refusal :=
  onUnit (q < 65536) (s.writeQcfg q (setBit (s.reg (8 + qHalf q) 0x030 URN_QCFG [qIdx q]) 0 false) true)

/-- A write to URN_QCFG or URN_QBASE (R399, R401). -/
def execQueueDescriptorWrite (q : Nat) (base : Bool) (v : BitVec 64) (walled : Bool) (s : State) : Host.Outcome State Fault Refusal :=
  onUnit (q < 65536) (if base then s.writeQbase q v else s.writeQcfg q v walled)

/-- TSV_CMD.ADMIT: the request that TSV_REQ0 and TSV_REQ1 hold is admitted or refused (R422, R423). -/
def execAdmitContract (walled pl3 : Bool) (s : State) : Host.Outcome State Fault Refusal :=
  .next (s.admitContract walled pl3)

/-- TSV_CMD.WITHDRAW of a contract (R427). -/
def execWithdraw (n : Nat) (s : State) : Host.Outcome State Fault Refusal :=
  onUnit (n < 64) (s.tsvWithdraw n)

end Sys2Proof.Machine
end

