-- ==== Sys2Proof/Machine/Fp.lean ====
section
/-! DEFINITION. Floating point of class 0xD (R168): four binary formats, exact computation on integers and one rounding in
the mode s.fpcsr.RM, tininess detected after rounding, subnormal flushing with FZ, canonical NaN results and the five
flags of s.fpcsr.FLAGS. -/
set_option autoImplicit false
namespace Sys2Proof.Machine

/-- A binary interchange format by its exponent and fraction widths. -/
structure FpFmt where
  eb : Nat
  mb : Nat
  deriving DecidableEq, Repr

/-- FMT codes of Table 5-10. -/
def fpFmt (code : Nat) : FpFmt :=
  match code with
  | 0 => ⟨11, 52⟩
  | 1 => ⟨8, 23⟩
  | 2 => ⟨5, 10⟩
  | _ => ⟨8, 7⟩

/-- Element size in bits. -/
def FpFmt.size (f : FpFmt) : Nat := 1 + f.eb + f.mb
/-- Exponent bias. -/
def FpFmt.bias (f : FpFmt) : Nat := 2 ^ (f.eb - 1) - 1
/-- The exponent field of infinities and NaNs. -/
def FpFmt.emaxField (f : FpFmt) : Nat := 2 ^ f.eb - 1

/-- Flags in the order of s.fpcsr.FLAGS: invalid, divide-by-zero, overflow, underflow, inexact. -/
abbrev FpFlags := Nat
def flagInvalid : FpFlags := 1
def flagDivZero : FpFlags := 2
def flagOverflow : FpFlags := 4
def flagUnderflow : FpFlags := 8
def flagInexact : FpFlags := 16

/-- The union of two flag sets. -/
def flagsOr (a b : FpFlags) : FpFlags := a ||| b

/-- The rounding state of s.fpcsr: RM and FZ. -/
structure FpEnv where
  rm : Nat
  fz : Bool
  deriving DecidableEq, Repr

/-- An unpacked operand. A finite value is (-1)^neg × m × 2^e. -/
inductive FpVal where
  | nan (signalling : Bool)
  | inf (neg : Bool)
  | fin (neg : Bool) (m : Nat) (e : Int)
  deriving DecidableEq, Repr

/-- The canonical quiet NaN of a format (R168). -/
def fpNaN (f : FpFmt) : Nat := f.emaxField * 2 ^ f.mb + 2 ^ (f.mb - 1)
/-- An infinity. -/
def fpInf (f : FpFmt) (neg : Bool) : Nat := neg.toNat * 2 ^ (f.eb + f.mb) + f.emaxField * 2 ^ f.mb
/-- A zero. -/
def fpZero (f : FpFmt) (neg : Bool) : Nat := neg.toNat * 2 ^ (f.eb + f.mb)
/-- The largest finite value. -/
def fpMax (f : FpFmt) (neg : Bool) : Nat := fpInf f neg - 1

/-- Unpacking, with subnormal operands read as zero of the same sign when FZ = 1. -/
def fpUnpack (f : FpFmt) (fz : Bool) (x : Nat) : FpVal :=
  let neg := natBit x (f.eb + f.mb)
  let ex := (x / 2 ^ f.mb) % 2 ^ f.eb
  let fr := x % 2 ^ f.mb
  if ex = f.emaxField then
    if fr = 0 then .inf neg else .nan (!natBit fr (f.mb - 1))
  else if ex = 0 then
    if fr = 0 ∨ fz then .fin neg 0 0 else .fin neg fr (1 - (f.bias : Int) - (f.mb : Int))
  else .fin neg (2 ^ f.mb + fr) ((ex : Int) - (f.bias : Int) - (f.mb : Int))

/-- Whether the magnitude is rounded up: q is the truncated value, r the remainder of a division by 2^k (k > 0). -/
def fpRoundUp (rm : Nat) (neg : Bool) (q r k : Nat) : Bool :=
  match rm with
  | 0 => decide (r > 2 ^ (k - 1)) || (decide (r = 2 ^ (k - 1)) && decide (q % 2 = 1))
  | 1 => false
  | 2 => decide (r ≠ 0) && !neg
  | _ => decide (r ≠ 0) && neg

/-- The truncated magnitude of m × 2^e in units of 2^qe, rounded, with its inexactness. -/
def fpQuant (rm : Nat) (neg : Bool) (m : Nat) (e qe : Int) : Nat × Bool :=
  if qe ≤ e then (m * 2 ^ (e - qe).toNat, false)
  else
    let k := (qe - e).toNat
    let q := m / 2 ^ k
    let r := m % 2 ^ k
    (if fpRoundUp rm neg q r k then q + 1 else q, decide (r ≠ 0))

/-- Number of bits of a natural number. -/
def natLen (m : Nat) : Nat := if m = 0 then 0 else Nat.log2 m + 1

/-- Rounding of (-1)^neg × m × 2^e, with a sticky bit below m, into a format (R168). -/
def fpRound (f : FpFmt) (env : FpEnv) (neg : Bool) (m0 : Nat) (e0 : Int) (sticky : Bool) : Nat × FpFlags :=
  let m := 2 * m0 + sticky.toNat
  let e := e0 - 1
  if m = 0 then (fpZero f neg, 0)
  else
    let p := f.mb + 1
    let emin : Int := 1 - (f.bias : Int)
    let top : Int := e + (natLen m : Int) - 1
    let unb := fpQuant env.rm neg m e (top - (f.mb : Int))
    let topR : Int := if unb.1 ≥ 2 ^ p then top + 1 else top
    let tiny := decide (topR < emin)
    let qe : Int := max (top - (f.mb : Int)) (emin - (f.mb : Int))
    let qr := fpQuant env.rm neg m e qe
    let q := qr.1
    let inexact := qr.2
    let qe' : Int := if q ≥ 2 ^ p then qe + 1 else qe
    let q' := if q ≥ 2 ^ p then q / 2 else q
    let bexp : Int := if q' < 2 ^ f.mb then 0 else qe' + (f.mb : Int) + (f.bias : Int)
    if bexp ≥ (f.emaxField : Int) then
      let toInf := match env.rm with
        | 0 => true
        | 1 => false
        | 2 => !neg
        | _ => neg
      (if toInf then fpInf f neg else fpMax f neg, flagOverflow ||| flagInexact)
    else if bexp = 0 ∧ env.fz then
      (fpZero f neg, flagUnderflow ||| flagInexact)
    else
      let bits := if bexp = 0 then q' else bexp.toNat * 2 ^ f.mb + (q' - 2 ^ f.mb)
      (neg.toNat * 2 ^ (f.eb + f.mb) + bits,
        (if inexact then flagInexact else 0) ||| (if tiny && inexact then flagUnderflow else 0))

/-- Whether some operand is a signalling NaN, as the invalid flag (R168). -/
def fpSig (v : FpVal) : FpFlags :=
  match v with
  | .nan true => flagInvalid
  | .nan false => 0
  | .inf _ => 0
  | .fin _ _ _ => 0

/-- Whether an operand is a NaN. -/
def fpIsNaN (v : FpVal) : Bool :=
  match v with
  | .nan _ => true
  | .inf _ => false
  | .fin _ _ _ => false

/-- The sign of an exact zero sum (IEEE 754): minus only when both are minus, or in the mode towards minus infinity when
the signs differ. -/
def zeroSign (rm : Nat) (na nb : Bool) : Bool := if na = nb then na else decide (rm = 3)

/-- The exact sum of two finite values, rounded. -/
def fpAddFin (f : FpFmt) (env : FpEnv) (na : Bool) (ma : Nat) (ea : Int) (nb : Bool) (mb : Nat) (eb : Int) :
    Nat × FpFlags :=
  let e := min ea eb
  let a : Int := (ma * 2 ^ (ea - e).toNat : Nat)
  let b : Int := (mb * 2 ^ (eb - e).toNat : Nat)
  let s : Int := (if na then -a else a) + (if nb then -b else b)
  if s = 0 then (fpZero f (zeroSign env.rm na nb), 0)
  else fpRound f env (decide (s < 0)) s.natAbs e false

/-- a + b on unpacked operands. -/
def fpAddV (f : FpFmt) (env : FpEnv) (a b : FpVal) : Nat × FpFlags :=
  let sg := fpSig a ||| fpSig b
  match a, b with
  | .nan _, _ => (fpNaN f, sg)
  | _, .nan _ => (fpNaN f, sg)
  | .inf na, .inf nb => if na = nb then (fpInf f na, sg) else (fpNaN f, flagInvalid)
  | .inf na, .fin _ _ _ => (fpInf f na, sg)
  | .fin _ _ _, .inf nb => (fpInf f nb, sg)
  | .fin na ma ea, .fin nb mb eb => fpAddFin f env na ma ea nb mb eb

/-- The operand with its sign inverted. -/
def fpNegV (v : FpVal) : FpVal :=
  match v with
  | .nan s => .nan s
  | .inf n => .inf (!n)
  | .fin n m e => .fin (!n) m e

/-- Whether a finite operand is zero. -/
def fpIsZero (v : FpVal) : Bool :=
  match v with
  | .nan _ => false
  | .inf _ => false
  | .fin _ m _ => decide (m = 0)

/-- The sign of an operand. -/
def fpSign (v : FpVal) : Bool :=
  match v with
  | .nan _ => false
  | .inf n => n
  | .fin n _ _ => n

/-- a × b as an exact unpacked value, with the invalid flag of 0 × infinity. -/
def fpMulExact (a b : FpVal) : FpVal × FpFlags :=
  let sg := fpSig a ||| fpSig b
  match a, b with
  | .nan _, .nan _ => (.nan false, sg)
  | .nan _, .inf _ => (.nan false, sg)
  | .nan _, .fin _ _ _ => (.nan false, sg)
  | .inf _, .nan _ => (.nan false, sg)
  | .fin _ _ _, .nan _ => (.nan false, sg)
  | .inf na, .inf nb => (.inf (xor na nb), sg)
  | .inf na, .fin nb m _ => if m = 0 then (.nan false, flagInvalid) else (.inf (xor na nb), sg)
  | .fin na m _, .inf nb => if m = 0 then (.nan false, flagInvalid) else (.inf (xor na nb), sg)
  | .fin na ma ea, .fin nb mb eb => (.fin (xor na nb) (ma * mb) (ea + eb), sg)

/-- An unpacked value rounded into a format. -/
def fpPack (f : FpFmt) (env : FpEnv) (v : FpVal) : Nat × FpFlags :=
  match v with
  | .nan _ => (fpNaN f, 0)
  | .inf n => (fpInf f n, 0)
  | .fin n m e => fpRound f env n m e false

/-- a × b. -/
def fpMul (f : FpFmt) (env : FpEnv) (x y : Nat) : Nat × FpFlags :=
  let r := fpMulExact (fpUnpack f env.fz x) (fpUnpack f env.fz y)
  let p := fpPack f env r.1
  (p.1, p.2 ||| r.2)

/-- a + b. -/
def fpAdd (f : FpFmt) (env : FpEnv) (x y : Nat) : Nat × FpFlags :=
  fpAddV f env (fpUnpack f env.fz x) (fpUnpack f env.fz y)

/-- a - b. -/
def fpSub (f : FpFmt) (env : FpEnv) (x y : Nat) : Nat × FpFlags :=
  fpAddV f env (fpUnpack f env.fz x) (fpNegV (fpUnpack f env.fz y))

/-- The fused forms of Table 5-12: (±(a × b)) ± d with one rounding; 0 × infinity raises invalid whatever the addend. -/
def fpFma (f : FpFmt) (env : FpEnv) (negProd negAdd : Bool) (x y d : Nat) : Nat × FpFlags :=
  let r := fpMulExact (fpUnpack f env.fz x) (fpUnpack f env.fz y)
  let prod := if negProd then fpNegV r.1 else r.1
  let dv := fpUnpack f env.fz d
  let s := fpAddV f env prod (if negAdd then fpNegV dv else dv)
  (s.1, s.2 ||| r.2)

/-- a ÷ b. -/
def fpDiv (f : FpFmt) (env : FpEnv) (x y : Nat) : Nat × FpFlags :=
  let a := fpUnpack f env.fz x
  let b := fpUnpack f env.fz y
  let sg := fpSig a ||| fpSig b
  match a, b with
  | .nan _, _ => (fpNaN f, sg)
  | _, .nan _ => (fpNaN f, sg)
  | .inf na, .fin nb _ _ => (fpInf f (xor na nb), sg)
  | .inf _, .inf _ => (fpNaN f, flagInvalid)
  | .fin na _ _, .inf nb => (fpZero f (xor na nb), sg)
  | .fin na ma ea, .fin nb mb eb =>
    if mb = 0 then
      if ma = 0 then (fpNaN f, flagInvalid) else (fpInf f (xor na nb), flagDivZero)
    else
      let k := f.mb + 3 + natLen mb
      fpRound f env (xor na nb) (ma * 2 ^ k / mb) (ea - eb - (k : Int)) (decide (ma * 2 ^ k % mb ≠ 0))

/-- The integer square root, one result bit per unit of fuel from the top. -/
def isqrtGo (fuel n r : Nat) : Nat :=
  match fuel with
  | 0 => r
  | k + 1 => let t := r + 2 ^ k; if t * t ≤ n then isqrtGo k n t else isqrtGo k n r

/-- Integer square root. -/
def isqrt (n : Nat) : Nat := isqrtGo (natLen n / 2 + 1) n 0

/-- The square root. -/
def fpSqrt (f : FpFmt) (env : FpEnv) (x : Nat) : Nat × FpFlags :=
  match fpUnpack f env.fz x with
  | .nan s => (fpNaN f, fpSig (.nan s))
  | .inf n => if n then (fpNaN f, flagInvalid) else (fpInf f false, 0)
  | .fin n m e =>
    if m = 0 then (fpZero f n, 0)
    else if n then (fpNaN f, flagInvalid)
    else
      let k := 2 * f.mb + 6 + (e - (2 * f.mb + 6 : Nat)).toNat % 2
      let k' := if (e - (k : Int)) % 2 = 0 then k else k + 1
      let mm := m * 2 ^ k'
      let r := isqrt mm
      fpRound f env false r ((e - (k' : Int)) / 2) (decide (r * r ≠ mm))

/-- The order of two operands that are not NaN: negative, zero or positive as an integer. -/
def fpCmpV (a b : FpVal) : Int :=
  match a, b with
  | .nan _, _ => 0
  | _, .nan _ => 0
  | .inf na, .inf nb => if na = nb then 0 else if na then -1 else 1
  | .inf na, .fin _ _ _ => if na then -1 else 1
  | .fin _ _ _, .inf nb => if nb then 1 else -1
  | .fin na ma ea, .fin nb mb eb =>
    let e := min ea eb
    let x : Int := (ma * 2 ^ (ea - e).toNat : Nat)
    let y : Int := (mb * 2 ^ (eb - e).toNat : Nat)
    (if na then -x else x) - (if nb then -y else y)

/-- minimumNumber and maximumNumber of IEEE 754-2019, with -0 below +0 (Table 5-12). -/
def fpMinMax (isMax : Bool) (f : FpFmt) (env : FpEnv) (x y : Nat) : Nat × FpFlags :=
  let a := fpUnpack f env.fz x
  let b := fpUnpack f env.fz y
  let sg := fpSig a ||| fpSig b
  let px := (fpPack f env a).1
  let py := (fpPack f env b).1
  if fpIsNaN a ∧ fpIsNaN b then (fpNaN f, sg)
  else if fpIsNaN a then (py, sg)
  else if fpIsNaN b then (px, sg)
  else
    let c := fpCmpV a b
    let aLess := decide (c < 0) || (decide (c = 0) && fpSign a && !fpSign b)
    (if aLess = isMax then py else px, sg)

/-- VFABS and VFNEG: the sign cleared or inverted, no flags; a NaN result is canonical (R168). -/
def fpSignOp (negate : Bool) (f : FpFmt) (env : FpEnv) (x : Nat) : Nat × FpFlags :=
  match fpUnpack f env.fz x with
  | .nan _ => (fpNaN f, 0)
  | .inf n => (fpInf f (negate && !n), 0)
  | .fin n m e => ((fpPack f env (.fin (negate && !n) m e)).1, 0)

/-- The relations of VFCMPP: 0 EQ, 1 LT, 2 LE, 3 UN. A signalling NaN raises invalid (R168). -/
def fpRel (rel : Nat) (f : FpFmt) (env : FpEnv) (x y : Nat) : Bool × FpFlags :=
  let a := fpUnpack f env.fz x
  let b := fpUnpack f env.fz y
  let sg := fpSig a ||| fpSig b
  let un := fpIsNaN a || fpIsNaN b
  let c := fpCmpV a b
  (match rel with
    | 0 => !un && decide (c = 0)
    | 1 => !un && decide (c < 0)
    | 2 => !un && decide (c ≤ 0)
    | _ => un, sg)

/-- Conversion between FP formats (VFCVT). -/
def fpToFp (src dst : FpFmt) (env : FpEnv) (x : Nat) : Nat × FpFlags :=
  let v := fpUnpack src env.fz x
  let p := fpPack dst env v
  (p.1, p.2 ||| fpSig v)

/-- Conversion of a 64-bit integer to an FP format (VFCVT). -/
def fpOfInt (dst : FpFmt) (env : FpEnv) (i : Int) : Nat × FpFlags :=
  fpRound dst env (decide (i < 0)) i.natAbs 0 false

/-- Conversion to a 64-bit integer in a rounding mode (R168): a NaN writes 0, a result out of range the largest or smallest
value, both with invalid. -/
def fpToInt (src : FpFmt) (env : FpEnv) (rm : Nat) (unsigned : Bool) (x : Nat) : Int × FpFlags :=
  let lo : Int := if unsigned then 0 else -(2 : Int) ^ 63
  let hi : Int := if unsigned then (2 : Int) ^ 64 - 1 else (2 : Int) ^ 63 - 1
  match fpUnpack src env.fz x with
  | .nan _ => (0, flagInvalid)
  | .inf n => (if n then lo else hi, flagInvalid)
  | .fin n m e =>
    let q := fpQuant rm n m e 0
    let v : Int := if n then -(q.1 : Int) else (q.1 : Int)
    if v < lo then (lo, flagInvalid)
    else if v > hi then (hi, flagInvalid)
    else (v, if q.2 then flagInexact else 0)

end Sys2Proof.Machine
end

