-- ==== Sys2Proof/Machine/VecAlu.lean ====
section
/-! DEFINITION. The shared core-only operations of classes 0xC and 0xD (R163 to R169): governing predicate, active and
inactive lanes, elements, poison lanes, the FP flags and the floating-point trap. -/
set_option autoImplicit false
namespace Sys2Proof.Machine

/-- The governing predicate pn, MOD[6:4] (Table 5-10). -/
def vPn (o : ROp) : BitVec 3 := o.md.extractLsb' 4 3
/-- ES or FMT, MOD[3:2]. -/
def vEs (o : ROp) : Nat := o.md.toNat / 4 % 4
/-- Z in classes 0xC and 0xD, MOD[1]. -/
def vZ (o : ROp) : Bool := o.md.getLsbD 1
/-- MOD[0]. -/
def vB0 (o : ROp) : Bool := o.md.getLsbD 0
/-- Element size of an ES code. -/
def esBits (es : Nat) : Nat := 64 / 2 ^ es

/-- Element j of a lane value. -/
def elemOf (w : BitVec 64) (size j : Nat) : Nat := field w (size * j) size

/-- A lane built from a function of its elements. -/
def mapElems (size : Nat) (f : Nat → Nat) : BitVec 64 :=
  v64 (foldN (64 / size) (fun acc j => acc + (f j % 2 ^ size) * 2 ^ (size * j)) 0)

/-- Every lane of vd poison with a code (R166). -/
def Core.poisonV (c : Core) (vd : BitVec 5) (code : BitVec 6) : Core :=
  c.setVAll vd (List.replicate 8 (Word.poison code))

/-- Lanes of a destination by R164: active lanes computed, inactive lanes kept, or zeroed with Z. -/
def laneResults (c : Core) (vd : BitVec 5) (p : BitVec 8) (z : Bool) (f : Nat → Word) : List Word :=
  (List.range 8).map (fun i => if p.getLsbD i then f i else if z then Word.zero else c.getV vd i)

/-- A class 0xC operation lane by lane, after the field rules; a poisoned predicate poisons every lane (R166). -/
def vecOp (o : ROp) (ok : Bool) (f : Nat → Word) (c : Core) : CoreRes :=
  if !ok then .error .illegal
  else if c.getPZ (vPn o) ≠ 0 then .ok (c.poisonV o.rd ((c.getPZ (vPn o)).setWidth 6)).advance
  else .ok (c.setVAll o.rd (laneResults c o.rd (c.getP (vPn o)) (vZ o) f)).advance

/-- A two-operand class 0xC operation on words (R167). -/
def vec2 (o : ROp) (f : Word → Word → Word) (c : Core) : CoreRes :=
  vecOp o (!vB0 o) (fun i => withPoison [c.getV o.ra i, c.getV o.rb i] (f (c.getV o.ra i) (c.getV o.rb i))) c

/-- A two-operand class 0xC operation on elements. -/
def vecE (o : ROp) (f : Nat → Nat → Nat → Nat) (c : Core) : CoreRes :=
  let size := esBits (vEs o)
  vec2 o (fun a b => Word.data (mapElems size (fun j => f size (elemOf a.val size j) (elemOf b.val size j)))) c

/-- A signed element value. -/
def sElem (size x : Nat) : Int := if natBit x (size - 1) then (x : Int) - (2 : Int) ^ size else x
/-- An element from an integer, modulo 2^size. -/
def toElem (size : Nat) (x : Int) : Nat := (x % (2 : Int) ^ size).toNat

/-- VADD: pointer class from pointer plus data with 64-bit elements (R167). -/
def vaddOp (o : ROp) (c : Core) : CoreRes :=
  if vEs o = 0 then vec2 o addWords c else vecE o (fun size a b => (a + b) % 2 ^ size) c

/-- The low log2(size) bits of a shift element (Table 5-11). -/
def vShift (size b : Nat) : Nat := b % size

/-- A vector predicate result: bits of the active lanes, PZ from the first poison active lane (Table 5-11). -/
def vecPred (o : ROp) (c : Core) (ops : Nat → List Word) (rel : Nat → Bool) : Core :=
  let p := c.getP (vPn o)
  let act := (List.range 8).filter (fun i => p.getLsbD i)
  match firstPoison (act.flatMap ops) with
  | some code => c.finishP (pn o.rd) 0 (code.setWidth 3)
  | none => c.finishP (pn o.rd) (BitVec.ofNat 8 (act.foldl (fun acc i => acc + (rel i).toNat * 2 ^ i) 0)) 0

/-- VCMPP.cc: ES must be 0b00, Z and MOD[0] 0, RD[4:3] 0; a poisoned governing predicate poisons pd (R166). -/
def vcmppOp (cc : BitVec 3) (o : ROp) (c : Core) : CoreRes :=
  if vEs o ≠ 0 ∨ vZ o ∨ vB0 o ∨ !pnOk o.rd then .error .illegal
  else if c.getPZ (vPn o) ≠ 0 then .ok (c.finishP (pn o.rd) 0 (c.getPZ (vPn o)))
  else .ok (vecPred o c (fun i => [c.getV o.ra i, c.getV o.rb i])
    (fun i => condHolds cc (c.getV o.ra i).val (c.getV o.rb i).val))

/-- VSPLAT (Table 5-11). -/
def vsplatOp (o : ROp) (c : Core) : CoreRes :=
  vecOp o (!vB0 o && vEs o == 0 && o.rb == 0) (fun _ => moved c.pl (c.getG o.ra)) c

/-- VGET: pn, ES and Z must be 0. -/
def vgetOp (o : ROp) (c : Core) : CoreRes :=
  if o.md ≠ 0 ∨ !pnOk o.rb then .error .illegal
  else .ok (c.finish o.rd (moved c.pl (c.getV o.ra o.rb.toNat)))

/-- VPUT: lane RB[2:0] of vd := ga. -/
def vputOp (o : ROp) (c : Core) : CoreRes :=
  if o.md ≠ 0 ∨ !pnOk o.rb then .error .illegal
  else .ok (c.setV o.rd o.rb.toNat (moved c.pl (c.getG o.ra))).advance

/-- VPERM: a poison index lane gives a poison result lane. -/
def vpermOp (o : ROp) (c : Core) : CoreRes :=
  vecOp o (!vB0 o && vEs o == 0)
    (fun i => withPoison [c.getV o.rb i] (moved c.pl (c.getV o.ra (field (c.getV o.rb i).val 0 3)))) c

/-- VREDADD: the sum of the active lanes in lane 0, lanes 1 to 7 under R96. -/
def vredaddOp (o : ROp) (c : Core) : CoreRes :=
  if vB0 o ∨ vEs o ≠ 0 ∨ vZ o ∨ o.rb ≠ 0 then .error .illegal
  else if c.getPZ (vPn o) ≠ 0 then .ok (c.poisonV o.rd ((c.getPZ (vPn o)).setWidth 6)).advance
  else
    let act := ((List.range 8).filter (fun i => (c.getP (vPn o)).getLsbD i)).map (c.getV o.ra)
    .ok (c.setVAll o.rd [withPoison act (Word.data (act.foldl (fun s w => s + w.val) 0))]).advance

/-- VSEL: the va lane where the predicate bit is 1, otherwise the vb lane; a poison operand lane poisons the result lane. -/
def vselOp (o : ROp) (c : Core) : CoreRes :=
  if vB0 o ∨ vEs o ≠ 0 ∨ vZ o then .error .illegal
  else if c.getPZ (vPn o) ≠ 0 then .ok (c.poisonV o.rd ((c.getPZ (vPn o)).setWidth 6)).advance
  else .ok (c.setVAll o.rd ((List.range 8).map (fun i =>
    let a := c.getV o.ra i
    let b := c.getV o.rb i
    withPoison [a, b] (moved c.pl (if (c.getP (vPn o)).getLsbD i then a else b))))).advance

/-- The rounding environment of s.fpcsr. -/
def Core.fpEnv (c : Core) : FpEnv := ⟨field (c.sysr 0x032) 10 2, bitOf (c.sysr 0x032) 12⟩

/-- R169: flags that no trap enable selects are ORed into FLAGS; otherwise the floating-point exception. -/
def fpCommit (c : Core) (flags : FpFlags) (done : Core → Core) : CoreRes :=
  let r := c.sysr 0x032
  if flags &&& field r 5 5 ≠ 0 then .error (Exc.fp flags)
  else .ok (done (c.setSys 0x032 (setField r 0 5 (field r 0 5 ||| flags))))

/-- Field rules of class 0xD (R165): the scalar form needs pn = p0 and Z = 0. -/
def fpOk (o : ROp) : Bool := !vB0 o || (vPn o == 0 && !vZ o)

/-- Lanes a class 0xD instruction computes: lane 0 in the scalar form, otherwise the active lanes. -/
def fpActive (o : ROp) (c : Core) : List Nat :=
  if vB0 o then [0] else (List.range 8).filter (fun i => (c.getP (vPn o)).getLsbD i)

/-- One lane of a class 0xD operation on elements, with its flags. -/
def fpLane (size : Nat) (count : Nat) (f : Nat → Nat × FpFlags) : BitVec 64 × FpFlags :=
  (v64 (foldN count (fun acc j => acc + ((f j).1 % 2 ^ size) * 2 ^ (size * j)) 0),
   foldN count (fun fl j => fl ||| (f j).2) 0)

/-- A class 0xD operation: `ops` gives the operand lanes in the order of R60 and `lane` the result of a lane without
poison. -/
def fpOp (o : ROp) (ok : Bool) (ops : Nat → List Word) (lane : Nat → BitVec 64 × FpFlags) (c : Core) : CoreRes :=
  if !ok ∨ !fpOk o then .error .illegal
  else if c.getPZ (vPn o) ≠ 0 then .ok (c.poisonV o.rd ((c.getPZ (vPn o)).setWidth 6)).advance
  else
    let act := fpActive o c
    let clean := act.filter (fun i => (firstPoison (ops i)).isNone)
    let flags := clean.foldl (fun fl i => fl ||| (lane i).2) 0
    let res (i : Nat) : Word := withPoison (ops i) (Word.data (lane i).1)
    fpCommit c flags (fun c' =>
      (if vB0 o then c'.setVAll o.rd [res 0]
       else c'.setVAll o.rd (laneResults c o.rd (c.getP (vPn o)) (vZ o) res)).advance)

/-- Number of elements a lane of a class 0xD operation computes: one in the scalar form (R165). -/
def fpCount (o : ROp) : Nat := if vB0 o then 1 else 64 / (fpFmt (vEs o)).size

/-- A two-operand FP operation on elements. -/
def fp2 (o : ROp) (f : FpFmt → FpEnv → Nat → Nat → Nat × FpFlags) (c : Core) : CoreRes :=
  let fm := fpFmt (vEs o)
  fpOp o true (fun i => [c.getV o.ra i, c.getV o.rb i])
    (fun i => fpLane fm.size (fpCount o)
      (fun j => f fm c.fpEnv (elemOf (c.getV o.ra i).val fm.size j) (elemOf (c.getV o.rb i).val fm.size j))) c

/-- A one-operand FP operation: RB must be 0. -/
def fp1 (o : ROp) (f : FpFmt → FpEnv → Nat → Nat × FpFlags) (c : Core) : CoreRes :=
  let fm := fpFmt (vEs o)
  fpOp o (o.rb == 0) (fun i => [c.getV o.ra i])
    (fun i => fpLane fm.size (fpCount o) (fun j => f fm c.fpEnv (elemOf (c.getV o.ra i).val fm.size j))) c

/-- A fused operation with vd as the addend. -/
def fp3 (o : ROp) (negProd negAdd : Bool) (c : Core) : CoreRes :=
  let fm := fpFmt (vEs o)
  fpOp o true (fun i => [c.getV o.ra i, c.getV o.rb i, c.getV o.rd i])
    (fun i => fpLane fm.size (fpCount o) (fun j =>
      fpFma fm c.fpEnv negProd negAdd (elemOf (c.getV o.ra i).val fm.size j) (elemOf (c.getV o.rb i).val fm.size j)
        (elemOf (c.getV o.rd i).val fm.size j))) c

/-- VFCMPP: FMT must be 0b00, Z and S 0, RD[4:3] 0. -/
def fpCmpOp (rel : BitVec 2) (o : ROp) (c : Core) : CoreRes :=
  let fm := fpFmt 0
  if vEs o ≠ 0 ∨ vZ o ∨ vB0 o ∨ !pnOk o.rd then .error .illegal
  else if c.getPZ (vPn o) ≠ 0 then .ok (c.finishP (pn o.rd) 0 (c.getPZ (vPn o)))
  else
    let ops (i : Nat) : List Word := [c.getV o.ra i, c.getV o.rb i]
    let r (i : Nat) := fpRel rel.toNat fm c.fpEnv (c.getV o.ra i).val.toNat (c.getV o.rb i).val.toNat
    let clean := (fpActive o c).filter (fun i => (firstPoison (ops i)).isNone)
    let flags := clean.foldl (fun fl i => fl ||| (r i).2) 0
    fpCommit c flags (fun c' => vecPred o c' ops (fun i => (r i).1))

/-- VFCVT: the source kind in RB, 0 to 3 the FP formats, 4 signed and 5 unsigned 64-bit integers. -/
def fpCvtOp (o : ROp) (c : Core) : CoreRes :=
  let fm := fpFmt (vEs o)
  let src := o.rb.toNat
  fpOp o (decide (src ≤ 5)) (fun i => [c.getV o.ra i])
    (fun i =>
      let x := (c.getV o.ra i).val
      let r := if src ≤ 3 then fpToFp (fpFmt src) fm c.fpEnv (elemOf x (fpFmt src).size 0)
        else fpOfInt fm c.fpEnv (if src = 4 then x.toInt else (x.toNat : Int))
      (v64 r.1, r.2)) c

/-- VFCVTI and VFCVTZ: element 0 converted to a 64-bit integer; RB[0] selects unsigned. -/
def fpCvtIOp (trunc : Bool) (o : ROp) (c : Core) : CoreRes :=
  let fm := fpFmt (vEs o)
  fpOp o (decide (o.rb.toNat ≤ 1)) (fun i => [c.getV o.ra i])
    (fun i =>
      let r := fpToInt fm c.fpEnv (if trunc then 1 else c.fpEnv.rm) (o.rb == 1) (elemOf (c.getV o.ra i).val fm.size 0)
      (BitVec.ofInt 64 r.1, r.2)) c

end Sys2Proof.Machine
end

