-- ==== Sys2Proof/Machine/Vector.lean ====
section
/-! DEFINITION. Meanings of the vector compute instructions (05_ecyen_memory_vector.md): classes 0xC and 0xD. -/
set_option autoImplicit false
namespace Sys2Proof.Machine

/-- A fused operation and its event VFMA_RETIRED (Table 18-2). -/
def fmaOp (o : ROp) (negProd negAdd : Bool) (c : Core) : CoreRes :=
  match fp3 o negProd negAdd c with
  | .ok c => .ok { c with evs := c.evs ++ [0x011] }
  | .error e => .error e

/-- VADD (R163, R164, R166, R167). -/
def execVadd (lc : Nat) (o : ROp) (s : State) : Host.Outcome State Fault Refusal :=
  runCore lc (vaddOp o) s

/-- VSUB (R164, R166, R167). -/
def execVsub (lc : Nat) (o : ROp) (s : State) : Host.Outcome State Fault Refusal :=
  runCore lc (vecE o (fun size a b => (a + 2 ^ size - b) % 2 ^ size)) s

/-- VMUL (R164, R166, R167). -/
def execVmul (lc : Nat) (o : ROp) (s : State) : Host.Outcome State Fault Refusal :=
  runCore lc (vecE o (fun size a b => a * b % 2 ^ size)) s

/-- VMULH (R164, R166, R167). -/
def execVmulh (lc : Nat) (o : ROp) (s : State) : Host.Outcome State Fault Refusal :=
  runCore lc (vecE o (fun size a b => toElem size (sElem size a * sElem size b / (2 : Int) ^ size))) s

/-- VMULHU (R164, R166, R167). -/
def execVmulhu (lc : Nat) (o : ROp) (s : State) : Host.Outcome State Fault Refusal :=
  runCore lc (vecE o (fun size a b => a * b / 2 ^ size)) s

/-- VAND (R167). -/
def execVand (lc : Nat) (o : ROp) (s : State) : Host.Outcome State Fault Refusal :=
  runCore lc (vec2 o (fun a b => Word.data (a.val &&& b.val))) s

/-- VOR (R167). -/
def execVor (lc : Nat) (o : ROp) (s : State) : Host.Outcome State Fault Refusal :=
  runCore lc (vec2 o (fun a b => Word.data (a.val ||| b.val))) s

/-- VXOR (R167). -/
def execVxor (lc : Nat) (o : ROp) (s : State) : Host.Outcome State Fault Refusal :=
  runCore lc (vec2 o (fun a b => Word.data (a.val ^^^ b.val))) s

/-- VANDN (R167). -/
def execVandn (lc : Nat) (o : ROp) (s : State) : Host.Outcome State Fault Refusal :=
  runCore lc (vec2 o (fun a b => Word.data (a.val &&& ~~~ b.val))) s

/-- VMIN (R167). -/
def execVmin (lc : Nat) (o : ROp) (s : State) : Host.Outcome State Fault Refusal :=
  runCore lc (vecE o (fun size a b => if sElem size a < sElem size b then a else b)) s

/-- VMAX (R167). -/
def execVmax (lc : Nat) (o : ROp) (s : State) : Host.Outcome State Fault Refusal :=
  runCore lc (vecE o (fun size a b => if sElem size a < sElem size b then b else a)) s

/-- VMINU (R167). -/
def execVminu (lc : Nat) (o : ROp) (s : State) : Host.Outcome State Fault Refusal :=
  runCore lc (vecE o (fun _ a b => min a b)) s

/-- VMAXU (R167). -/
def execVmaxu (lc : Nat) (o : ROp) (s : State) : Host.Outcome State Fault Refusal :=
  runCore lc (vecE o (fun _ a b => max a b)) s

/-- VSHL (Table 5-11). -/
def execVshl (lc : Nat) (o : ROp) (s : State) : Host.Outcome State Fault Refusal :=
  runCore lc (vecE o (fun size a b => a * 2 ^ vShift size b % 2 ^ size)) s

/-- VSHR (Table 5-11). -/
def execVshr (lc : Nat) (o : ROp) (s : State) : Host.Outcome State Fault Refusal :=
  runCore lc (vecE o (fun size a b => a / 2 ^ vShift size b)) s

/-- VSRA (Table 5-11). -/
def execVsra (lc : Nat) (o : ROp) (s : State) : Host.Outcome State Fault Refusal :=
  runCore lc (vecE o (fun size a b => toElem size (sElem size a / (2 : Int) ^ vShift size b))) s

/-- VCMPP.cc (Table 5-11). -/
def execVcmppCc (lc : Nat) (cc : BitVec 3) (o : ROp) (s : State) : Host.Outcome State Fault Refusal :=
  runCore lc (vcmppOp cc o) s

/-- VSPLAT (Table 5-11). -/
def execVsplat (lc : Nat) (o : ROp) (s : State) : Host.Outcome State Fault Refusal :=
  runCore lc (vsplatOp o) s

/-- VGET (Table 5-11). -/
def execVget (lc : Nat) (o : ROp) (s : State) : Host.Outcome State Fault Refusal :=
  runCore lc (vgetOp o) s

/-- VPUT (Table 5-11). -/
def execVput (lc : Nat) (o : ROp) (s : State) : Host.Outcome State Fault Refusal :=
  runCore lc (vputOp o) s

/-- VPERM (Table 5-11). -/
def execVperm (lc : Nat) (o : ROp) (s : State) : Host.Outcome State Fault Refusal :=
  runCore lc (vpermOp o) s

/-- VREDADD (Table 5-11). -/
def execVredadd (lc : Nat) (o : ROp) (s : State) : Host.Outcome State Fault Refusal :=
  runCore lc (vredaddOp o) s

/-- VSEL (Table 5-11). -/
def execVsel (lc : Nat) (o : ROp) (s : State) : Host.Outcome State Fault Refusal :=
  runCore lc (vselOp o) s

/-- VFADD (R168, R169). -/
def execVfadd (lc : Nat) (o : ROp) (s : State) : Host.Outcome State Fault Refusal :=
  runCore lc (fp2 o fpAdd) s

/-- VFSUB (R168, R169). -/
def execVfsub (lc : Nat) (o : ROp) (s : State) : Host.Outcome State Fault Refusal :=
  runCore lc (fp2 o fpSub) s

/-- VFMUL (R168, R169). -/
def execVfmul (lc : Nat) (o : ROp) (s : State) : Host.Outcome State Fault Refusal :=
  runCore lc (fp2 o fpMul) s

/-- VFDIV (R168, R169). -/
def execVfdiv (lc : Nat) (o : ROp) (s : State) : Host.Outcome State Fault Refusal :=
  runCore lc (fp2 o fpDiv) s

/-- VFMIN (R168, R169). -/
def execVfmin (lc : Nat) (o : ROp) (s : State) : Host.Outcome State Fault Refusal :=
  runCore lc (fp2 o (fpMinMax false)) s

/-- VFMAX (R168, R169). -/
def execVfmax (lc : Nat) (o : ROp) (s : State) : Host.Outcome State Fault Refusal :=
  runCore lc (fp2 o (fpMinMax true)) s

/-- VFSQRT (R168). -/
def execVfsqrt (lc : Nat) (o : ROp) (s : State) : Host.Outcome State Fault Refusal :=
  runCore lc (fp1 o fpSqrt) s

/-- VFMA (R168). -/
def execVfma (lc : Nat) (o : ROp) (s : State) : Host.Outcome State Fault Refusal :=
  runCore lc (fmaOp o false false) s

/-- VFMS (R168). -/
def execVfms (lc : Nat) (o : ROp) (s : State) : Host.Outcome State Fault Refusal :=
  runCore lc (fmaOp o false true) s

/-- VFNMA (R168). -/
def execVfnma (lc : Nat) (o : ROp) (s : State) : Host.Outcome State Fault Refusal :=
  runCore lc (fmaOp o true false) s

/-- VFABS (R168). -/
def execVfabs (lc : Nat) (o : ROp) (s : State) : Host.Outcome State Fault Refusal :=
  runCore lc (fp1 o (fpSignOp false)) s

/-- VFNEG (R168). -/
def execVfneg (lc : Nat) (o : ROp) (s : State) : Host.Outcome State Fault Refusal :=
  runCore lc (fp1 o (fpSignOp true)) s

/-- VFCMPP (R168, Table 5-12). -/
def execVfcmpp (lc : Nat) (rel : BitVec 2) (o : ROp) (s : State) : Host.Outcome State Fault Refusal :=
  runCore lc (fpCmpOp rel o) s

/-- VFCVT (R168). -/
def execVfcvt (lc : Nat) (o : ROp) (s : State) : Host.Outcome State Fault Refusal :=
  runCore lc (fpCvtOp o) s

/-- VFCVTI (R168). -/
def execVfcvti (lc : Nat) (o : ROp) (s : State) : Host.Outcome State Fault Refusal :=
  runCore lc (fpCvtIOp false o) s

/-- VFCVTZ (R168). -/
def execVfcvtz (lc : Nat) (o : ROp) (s : State) : Host.Outcome State Fault Refusal :=
  runCore lc (fpCvtIOp true o) s

end Sys2Proof.Machine
end

