-- ==== Sys2Proof/Machine/Dispatch.lean ====
section
/-! DEFINITION. The dispatch of the commands to their meanings: one arm per constructor of Instr. -/
namespace Sys2Proof.Machine

/-- The effect of a command on everything but the queue. -/
def exec (i : Instr) (s : State) : Host.Outcome State Fault Refusal :=
  match i with
  | .sysrd lc o => Sys2Proof.Machine.execSysrd lc o s
  | .syswr lc o => Sys2Proof.Machine.execSyswr lc o s
  | .ipiSend lc rd ra => Sys2Proof.Machine.execIpiSend lc rd ra s
  | .eret lc o => Sys2Proof.Machine.execEret lc o s
  | .scall lc o => Sys2Proof.Machine.execScall lc o s
  | .hcall lc o => Sys2Proof.Machine.execHcall lc o s
  | .wcall lc o => Sys2Proof.Machine.execWcall lc o s
  | .wret lc o => Sys2Proof.Machine.execWret lc o s
  | .mkptr lc o => Sys2Proof.Machine.execMkptr lc o s
  | .tlbiVa lc o => Sys2Proof.Machine.execTlbiVa lc o s
  | .tlbiAsid lc o => Sys2Proof.Machine.execTlbiAsid lc o s
  | .tlbiAll lc o => Sys2Proof.Machine.execTlbiAll lc o s
  | .tlbiVmid lc o => Sys2Proof.Machine.execTlbiVmid lc o s
  | .tlbiIpa lc o => Sys2Proof.Machine.execTlbiIpa lc o s
  | .tlbiRemote src dst => Sys2Proof.Machine.execTlbiRemote src dst s
  | .tlbsync lc o => Sys2Proof.Machine.execTlbsync lc o s
  | .add lc o => Sys2Proof.Machine.execAdd lc o s
  | .sub lc o => Sys2Proof.Machine.execSub lc o s
  | .addw lc o => Sys2Proof.Machine.execAddw lc o s
  | .subw lc o => Sys2Proof.Machine.execSubw lc o s
  | .and lc o => Sys2Proof.Machine.execAnd lc o s
  | .or lc o => Sys2Proof.Machine.execOr lc o s
  | .xor lc o => Sys2Proof.Machine.execXor lc o s
  | .andn lc o => Sys2Proof.Machine.execAndn lc o s
  | .orn lc o => Sys2Proof.Machine.execOrn lc o s
  | .xnor lc o => Sys2Proof.Machine.execXnor lc o s
  | .min lc o => Sys2Proof.Machine.execMin lc o s
  | .max lc o => Sys2Proof.Machine.execMax lc o s
  | .minu lc o => Sys2Proof.Machine.execMinu lc o s
  | .maxu lc o => Sys2Proof.Machine.execMaxu lc o s
  | .mul lc o => Sys2Proof.Machine.execMul lc o s
  | .mulh lc o => Sys2Proof.Machine.execMulh lc o s
  | .mulhu lc o => Sys2Proof.Machine.execMulhu lc o s
  | .mulhsu lc o => Sys2Proof.Machine.execMulhsu lc o s
  | .mulw lc o => Sys2Proof.Machine.execMulw lc o s
  | .div lc o => Sys2Proof.Machine.execDiv lc o s
  | .divu lc o => Sys2Proof.Machine.execDivu lc o s
  | .rem lc o => Sys2Proof.Machine.execRem lc o s
  | .remu lc o => Sys2Proof.Machine.execRemu lc o s
  | .mov lc o => Sys2Proof.Machine.execMov lc o s
  | .clz lc o => Sys2Proof.Machine.execClz lc o s
  | .ctz lc o => Sys2Proof.Machine.execCtz lc o s
  | .popc lc o => Sys2Proof.Machine.execPopc lc o s
  | .rev lc o => Sys2Proof.Machine.execRev lc o s
  | .addi lc o => Sys2Proof.Machine.execAddi lc o s
  | .addiw lc o => Sys2Proof.Machine.execAddiw lc o s
  | .andi lc o => Sys2Proof.Machine.execAndi lc o s
  | .ori lc o => Sys2Proof.Machine.execOri lc o s
  | .xori lc o => Sys2Proof.Machine.execXori lc o s
  | .li lc o => Sys2Proof.Machine.execLi lc o s
  | .addpc lc o => Sys2Proof.Machine.execAddpc lc o s
  | .addpcH lc o => Sys2Proof.Machine.execAddpcH lc o s
  | .movk lc k o => Sys2Proof.Machine.execMovk lc k o s
  | .shl lc o => Sys2Proof.Machine.execShl lc o s
  | .shr lc o => Sys2Proof.Machine.execShr lc o s
  | .sra lc o => Sys2Proof.Machine.execSra lc o s
  | .ror lc o => Sys2Proof.Machine.execRor lc o s
  | .shlw lc o => Sys2Proof.Machine.execShlw lc o s
  | .shrw lc o => Sys2Proof.Machine.execShrw lc o s
  | .sraw lc o => Sys2Proof.Machine.execSraw lc o s
  | .shli lc o => Sys2Proof.Machine.execShli lc o s
  | .shri lc o => Sys2Proof.Machine.execShri lc o s
  | .srai lc o => Sys2Proof.Machine.execSrai lc o s
  | .rori lc o => Sys2Proof.Machine.execRori lc o s
  | .shliw lc o => Sys2Proof.Machine.execShliw lc o s
  | .shriw lc o => Sys2Proof.Machine.execShriw lc o s
  | .sraiw lc o => Sys2Proof.Machine.execSraiw lc o s
  | .ext lc o => Sys2Proof.Machine.execExt lc o s
  | .exts lc o => Sys2Proof.Machine.execExts lc o s
  | .ins lc o => Sys2Proof.Machine.execIns lc o s
  | .cmpCc lc cc o => Sys2Proof.Machine.execCmpCc lc cc o s
  | .cmpiCc lc cc o => Sys2Proof.Machine.execCmpiCc lc cc o s
  | .cmppCc lc cc o => Sys2Proof.Machine.execCmppCc lc cc o s
  | .cmppiCc lc cc o => Sys2Proof.Machine.execCmppiCc lc cc o s
  | .sel lc o => Sys2Proof.Machine.execSel lc o s
  | .pand lc o => Sys2Proof.Machine.execPand lc o s
  | .por lc o => Sys2Proof.Machine.execPor lc o s
  | .pxor lc o => Sys2Proof.Machine.execPxor lc o s
  | .pandn lc o => Sys2Proof.Machine.execPandn lc o s
  | .movp lc o => Sys2Proof.Machine.execMovp lc o s
  | .pmov lc o => Sys2Proof.Machine.execPmov lc o s
  | .bt lc n h off => Sys2Proof.Machine.execBt lc n h off s
  | .bf lc n h off => Sys2Proof.Machine.execBf lc n h off s
  | .b lc off => Sys2Proof.Machine.execB lc off s
  | .bl lc off => Sys2Proof.Machine.execBl lc off s
  | .jrl lc o => Sys2Proof.Machine.execJrl lc o s
  | .ret lc o => Sys2Proof.Machine.execRet lc o s
  | .ldB lc m => Sys2Proof.Machine.execLdB lc m s
  | .ldBu lc m => Sys2Proof.Machine.execLdBu lc m s
  | .ldH lc m => Sys2Proof.Machine.execLdH lc m s
  | .ldHu lc m => Sys2Proof.Machine.execLdHu lc m s
  | .ldW lc m => Sys2Proof.Machine.execLdW lc m s
  | .ldWu lc m => Sys2Proof.Machine.execLdWu lc m s
  | .ldD lc m => Sys2Proof.Machine.execLdD lc m s
  | .ldt lc m => Sys2Proof.Machine.execLdt lc m s
  | .stB lc m => Sys2Proof.Machine.execStB lc m s
  | .stH lc m => Sys2Proof.Machine.execStH lc m s
  | .stW lc m => Sys2Proof.Machine.execStW lc m s
  | .stD lc m => Sys2Proof.Machine.execStD lc m s
  | .stt lc m => Sys2Proof.Machine.execStt lc m s
  | .stNt lc m => Sys2Proof.Machine.execStNt lc m s
  | .amoAdd lc o => Sys2Proof.Machine.execAmoAdd lc o s
  | .amoSwp lc o => Sys2Proof.Machine.execAmoSwp lc o s
  | .amoCas lc o => Sys2Proof.Machine.execAmoCas lc o s
  | .amoMax lc o => Sys2Proof.Machine.execAmoMax lc o s
  | .amoMin lc o => Sys2Proof.Machine.execAmoMin lc o s
  | .amoAnd lc o => Sys2Proof.Machine.execAmoAnd lc o s
  | .amoOr lc o => Sys2Proof.Machine.execAmoOr lc o s
  | .amoXor lc o => Sys2Proof.Machine.execAmoXor lc o s
  | .ldcol lc o => Sys2Proof.Machine.execLdcol lc o s
  | .stcol lc o => Sys2Proof.Machine.execStcol lc o s
  | .class lc o => Sys2Proof.Machine.execClass lc o s
  | .poison lc o => Sys2Proof.Machine.execPoison lc o s
  | .mkdata lc o => Sys2Proof.Machine.execMkdata lc o s
  | .mksys lc o => Sys2Proof.Machine.execMksys lc o s
  | .cmoCln lc o => Sys2Proof.Machine.execCmoCln lc o s
  | .cmoInv lc o => Sys2Proof.Machine.execCmoInv lc o s
  | .cmoCli lc o => Sys2Proof.Machine.execCmoCli lc o s
  | .prefL lc o => Sys2Proof.Machine.execPrefL lc o s
  | .prefS lc o => Sys2Proof.Machine.execPrefS lc o s
  | .cmoSet lc o => Sys2Proof.Machine.execCmoSet lc o s
  | .fenceL lc o => Sys2Proof.Machine.execFenceL lc o s
  | .fenceS lc o => Sys2Proof.Machine.execFenceS lc o s
  | .fenceA lc o => Sys2Proof.Machine.execFenceA lc o s
  | .fenceI lc o => Sys2Proof.Machine.execFenceI lc o s
  | .fenceD lc o => Sys2Proof.Machine.execFenceD lc o s
  | .qpush lc o => Sys2Proof.Machine.execQpush lc o s
  | .qpop lc o => Sys2Proof.Machine.execQpop lc o s
  | .qpeek lc o => Sys2Proof.Machine.execQpeek lc o s
  | .qwait lc o => Sys2Proof.Machine.execQwait lc o s
  | .queueAnswer lc => Sys2Proof.Machine.execQueueAnswer lc s
  | .qwaitTimeout lc => Sys2Proof.Machine.execQwaitTimeout lc s
  | .queueCancel lc => Sys2Proof.Machine.execQueueCancel lc s
  | .vadd lc o => Sys2Proof.Machine.execVadd lc o s
  | .vsub lc o => Sys2Proof.Machine.execVsub lc o s
  | .vmul lc o => Sys2Proof.Machine.execVmul lc o s
  | .vmulh lc o => Sys2Proof.Machine.execVmulh lc o s
  | .vmulhu lc o => Sys2Proof.Machine.execVmulhu lc o s
  | .vand lc o => Sys2Proof.Machine.execVand lc o s
  | .vor lc o => Sys2Proof.Machine.execVor lc o s
  | .vxor lc o => Sys2Proof.Machine.execVxor lc o s
  | .vandn lc o => Sys2Proof.Machine.execVandn lc o s
  | .vmin lc o => Sys2Proof.Machine.execVmin lc o s
  | .vmax lc o => Sys2Proof.Machine.execVmax lc o s
  | .vminu lc o => Sys2Proof.Machine.execVminu lc o s
  | .vmaxu lc o => Sys2Proof.Machine.execVmaxu lc o s
  | .vshl lc o => Sys2Proof.Machine.execVshl lc o s
  | .vshr lc o => Sys2Proof.Machine.execVshr lc o s
  | .vsra lc o => Sys2Proof.Machine.execVsra lc o s
  | .vcmppCc lc cc o => Sys2Proof.Machine.execVcmppCc lc cc o s
  | .vsplat lc o => Sys2Proof.Machine.execVsplat lc o s
  | .vget lc o => Sys2Proof.Machine.execVget lc o s
  | .vput lc o => Sys2Proof.Machine.execVput lc o s
  | .vperm lc o => Sys2Proof.Machine.execVperm lc o s
  | .vredadd lc o => Sys2Proof.Machine.execVredadd lc o s
  | .vsel lc o => Sys2Proof.Machine.execVsel lc o s
  | .vfadd lc o => Sys2Proof.Machine.execVfadd lc o s
  | .vfsub lc o => Sys2Proof.Machine.execVfsub lc o s
  | .vfmul lc o => Sys2Proof.Machine.execVfmul lc o s
  | .vfdiv lc o => Sys2Proof.Machine.execVfdiv lc o s
  | .vfsqrt lc o => Sys2Proof.Machine.execVfsqrt lc o s
  | .vfma lc o => Sys2Proof.Machine.execVfma lc o s
  | .vfms lc o => Sys2Proof.Machine.execVfms lc o s
  | .vfnma lc o => Sys2Proof.Machine.execVfnma lc o s
  | .vfmin lc o => Sys2Proof.Machine.execVfmin lc o s
  | .vfmax lc o => Sys2Proof.Machine.execVfmax lc o s
  | .vfabs lc o => Sys2Proof.Machine.execVfabs lc o s
  | .vfneg lc o => Sys2Proof.Machine.execVfneg lc o s
  | .vfcmpp lc rel o => Sys2Proof.Machine.execVfcmpp lc rel o s
  | .vfcvt lc o => Sys2Proof.Machine.execVfcvt lc o s
  | .vfcvti lc o => Sys2Proof.Machine.execVfcvti lc o s
  | .vfcvtz lc o => Sys2Proof.Machine.execVfcvtz lc o s
  | .vld lc o => Sys2Proof.Machine.execVld lc o s
  | .vst lc o => Sys2Proof.Machine.execVst lc o s
  | .vldp lc o => Sys2Proof.Machine.execVldp lc o s
  | .vstp lc o => Sys2Proof.Machine.execVstp lc o s
  | .vlds lc o => Sys2Proof.Machine.execVlds lc o s
  | .vsts lc o => Sys2Proof.Machine.execVsts lc o s
  | .vldx lc o => Sys2Proof.Machine.execVldx lc o s
  | .vstx lc o => Sys2Proof.Machine.execVstx lc o s
  | .storeBufferWrite lc n => Sys2Proof.Machine.execStoreBufferWrite lc n s
  | .memOrderSquash lc => Sys2Proof.Machine.execMemOrderSquash lc s
  | .interruptTaken lc => Sys2Proof.Machine.execInterruptTaken lc s
  | .directTimer2Interrupt lc => Sys2Proof.Machine.execDirectTimer2Interrupt lc s
  | .timerFire lc k => Sys2Proof.Machine.execTimerFire lc k s
  | .pendingStateMessage lc => Sys2Proof.Machine.execPendingStateMessage lc s
  | .throttleLevelChange lt => Sys2Proof.Machine.execThrottleLevelChange lt s
  | .mismatch lt m => Sys2Proof.Machine.execMismatch lt m s
  | .pairTimeout lt => Sys2Proof.Machine.execPairTimeout lt s
  | .debugSplit lt => Sys2Proof.Machine.execDebugSplit lt s
  | .rds m errs => Sys2Proof.Machine.execRds m errs s
  | .rdx m errs => Sys2Proof.Machine.execRdx m errs s
  | .upg m => Sys2Proof.Machine.execUpg m s
  | .rdnc m => Sys2Proof.Machine.execRdnc m s
  | .wrinv m => Sys2Proof.Machine.execWrinv m s
  | .wbm m errs => Sys2Proof.Machine.execWbm m errs s
  | .evc m => Sys2Proof.Machine.execEvc m s
  | .fwds m => Sys2Proof.Machine.execFwds m s
  | .fwdx m => Sys2Proof.Machine.execFwdx m s
  | .inv m => Sys2Proof.Machine.execInv m s
  | .data m => Sys2Proof.Machine.execData m s
  | .ack m => Sys2Proof.Machine.execAck m s
  | .cmp m => Sys2Proof.Machine.execCmp m s
  | .wback m => Sys2Proof.Machine.execWback m s
  | .nack m => Sys2Proof.Machine.execNack m s
  | .nackRetry => Sys2Proof.Machine.execNackRetry s
  | .coherenceTimeout a line => Sys2Proof.Machine.execCoherenceTimeout a line s
  | .wayFlushDone lt way llc => Sys2Proof.Machine.execWayFlushDone lt way llc s
  | .l2Flush lt => Sys2Proof.Machine.execL2Flush lt s
  | .llcFlush lt => Sys2Proof.Machine.execLlcFlush lt s
  | .flushDone lt llc => Sys2Proof.Machine.execFlushDone lt llc s
  | .l2WayDisWrite lt v => Sys2Proof.Machine.execL2WayDisWrite lt v s
  | .llcWayDisWrite lt v => Sys2Proof.Machine.execLlcWayDisWrite lt v s
  | .llcWalledWaysWrite lt v => Sys2Proof.Machine.execLlcWalledWaysWrite lt v s
  | .maskDone lt => Sys2Proof.Machine.execMaskDone lt s
  | .channelRead ch chline errs bad walled => Sys2Proof.Machine.execChannelRead ch chline errs bad walled s
  | .channelWrite ch chline ws mask walled => Sys2Proof.Machine.execChannelWrite ch chline ws mask walled s
  | .granuleFillWrite ch g => Sys2Proof.Machine.execGranuleFillWrite ch g s
  | .granuleInit ch => Sys2Proof.Machine.execGranuleInit ch s
  | .patrolRead ch errs bad late => Sys2Proof.Machine.execPatrolRead ch errs bad late s
  | .zqCalibration ch rank => Sys2Proof.Machine.execZqCalibration ch rank s
  | .dqsOscillatorRead ch rank => Sys2Proof.Machine.execDqsOscillatorRead ch rank s
  | .dimmTemperatureRead ch dimm t10 => Sys2Proof.Machine.execDimmTemperatureRead ch dimm t10 s
  | .memMarkWrite ch v => Sys2Proof.Machine.execMemMarkWrite ch v s
  | .memRangeWrite n v => Sys2Proof.Machine.execMemRangeWrite n v s
  | .flitReceive die st port f err late => Sys2Proof.Machine.execFlitReceive die st port f err late s
  | .flitReplay die st port err late => Sys2Proof.Machine.execFlitReplay die st port err late s
  | .meshRouteWrite die bank tilemap idx v => Sys2Proof.Machine.execMeshRouteWrite die bank tilemap idx v s
  | .meshFlipGo => Sys2Proof.Machine.execMeshFlipGo s
  | .flipDrainDone => Sys2Proof.Machine.execFlipDrainDone s
  | .flipTimeout => Sys2Proof.Machine.execFlipTimeout s
  | .flipDone => Sys2Proof.Machine.execFlipDone s
  | .poll die st => Sys2Proof.Machine.execPoll die st s
  | .bwr die unit off v => Sys2Proof.Machine.execBwr die unit off v s
  | .registerWrite w off size v crc => Sys2Proof.Machine.execRegisterWrite w off size v crc s
  | .trellisTimeout w off write => Sys2Proof.Machine.execTrellisTimeout w off write s
  | .trellisReplay die unit fails => Sys2Proof.Machine.execTrellisReplay die unit fails s
  | .snap w die unit => Sys2Proof.Machine.execSnap w die unit s
  | .snapDone die unit stopped => Sys2Proof.Machine.execSnapDone die unit stopped s
  | .lock w die unit => Sys2Proof.Machine.execLock w die unit s
  | .guardArm w node v => Sys2Proof.Machine.execGuardArm w node v s
  | .guardCommit w node v => Sys2Proof.Machine.execGuardCommit w node v s
  | .guardWindowExpiry node => Sys2Proof.Machine.execGuardWindowExpiry node s
  | .buserrClear w => Sys2Proof.Machine.execBuserrClear w s
  | .urnPush who q ws wait single => Sys2Proof.Machine.execUrnPush who q ws wait single s
  | .urnPop who q wait single => Sys2Proof.Machine.execUrnPop who q wait single s
  | .urnPeek who q single => Sys2Proof.Machine.execUrnPeek who q single s
  | .urnWait who q => Sys2Proof.Machine.execUrnWait who q s
  | .caddyWritebackDone h => Sys2Proof.Machine.execCaddyWritebackDone h s
  | .doorbell rid walled q ws sized late => Sys2Proof.Machine.execDoorbell rid walled q ws sized late s
  | .msi half rid off data sized => Sys2Proof.Machine.execMsi half rid off data sized s
  | .holdExpiry h => Sys2Proof.Machine.execHoldExpiry h s
  | .queueEnable q v walled => Sys2Proof.Machine.execQueueEnable q v walled s
  | .queueDisable q => Sys2Proof.Machine.execQueueDisable q s
  | .queueDescriptorWrite q base v walled => Sys2Proof.Machine.execQueueDescriptorWrite q base v walled s
  | .admitContract walled pl3 => Sys2Proof.Machine.execAdmitContract walled pl3 s
  | .withdraw n => Sys2Proof.Machine.execWithdraw n s
  | .kioskAdd k o => Sys2Proof.Machine.execKioskAdd k o s
  | .kioskSub k o => Sys2Proof.Machine.execKioskSub k o s
  | .kioskAnd k o => Sys2Proof.Machine.execKioskAnd k o s
  | .kioskOr k o => Sys2Proof.Machine.execKioskOr k o s
  | .kioskXor k o => Sys2Proof.Machine.execKioskXor k o s
  | .kioskAndn k o => Sys2Proof.Machine.execKioskAndn k o s
  | .kioskShl k o => Sys2Proof.Machine.execKioskShl k o s
  | .kioskShr k o => Sys2Proof.Machine.execKioskShr k o s
  | .kioskSra k o => Sys2Proof.Machine.execKioskSra k o s
  | .kioskMin k o => Sys2Proof.Machine.execKioskMin k o s
  | .kioskMax k o => Sys2Proof.Machine.execKioskMax k o s
  | .kioskMinu k o => Sys2Proof.Machine.execKioskMinu k o s
  | .kioskMaxu k o => Sys2Proof.Machine.execKioskMaxu k o s
  | .slt k o => Sys2Proof.Machine.execSlt k o s
  | .sltu k o => Sys2Proof.Machine.execSltu k o s
  | .kioskMul k o => Sys2Proof.Machine.execKioskMul k o s
  | .kioskMulhu k o => Sys2Proof.Machine.execKioskMulhu k o s
  | .kioskMov k o => Sys2Proof.Machine.execKioskMov k o s
  | .kioskClz k o => Sys2Proof.Machine.execKioskClz k o s
  | .kioskPopc k o => Sys2Proof.Machine.execKioskPopc k o s
  | .kioskRev k o => Sys2Proof.Machine.execKioskRev k o s
  | .kioskDiv k o => Sys2Proof.Machine.execKioskDiv k o s
  | .kioskDivu k o => Sys2Proof.Machine.execKioskDivu k o s
  | .kioskRem k o => Sys2Proof.Machine.execKioskRem k o s
  | .kioskRemu k o => Sys2Proof.Machine.execKioskRemu k o s
  | .kioskAddi k o => Sys2Proof.Machine.execKioskAddi k o s
  | .kioskAndi k o => Sys2Proof.Machine.execKioskAndi k o s
  | .kioskOri k o => Sys2Proof.Machine.execKioskOri k o s
  | .kioskXori k o => Sys2Proof.Machine.execKioskXori k o s
  | .kioskShli k o => Sys2Proof.Machine.execKioskShli k o s
  | .kioskShri k o => Sys2Proof.Machine.execKioskShri k o s
  | .kioskSrai k o => Sys2Proof.Machine.execKioskSrai k o s
  | .kioskLi k o => Sys2Proof.Machine.execKioskLi k o s
  | .lih k o => Sys2Proof.Machine.execLih k o s
  | .ldl k o => Sys2Proof.Machine.execLdl k o s
  | .stl k o => Sys2Proof.Machine.execStl k o s
  | .ldmB k o => Sys2Proof.Machine.execLdmB k o s
  | .ldmH k o => Sys2Proof.Machine.execLdmH k o s
  | .ldmW k o => Sys2Proof.Machine.execLdmW k o s
  | .ldmD k o => Sys2Proof.Machine.execLdmD k o s
  | .stmB k o => Sys2Proof.Machine.execStmB k o s
  | .stmH k o => Sys2Proof.Machine.execStmH k o s
  | .stmW k o => Sys2Proof.Machine.execStmW k o s
  | .stmD k o => Sys2Proof.Machine.execStmD k o s
  | .kioskClass k o => Sys2Proof.Machine.execKioskClass k o s
  | .kioskMkdata k o => Sys2Proof.Machine.execKioskMkdata k o s
  | .kioskMkptr k o => Sys2Proof.Machine.execKioskMkptr k o s
  | .kioskMksys k o => Sys2Proof.Machine.execKioskMksys k o s
  | .kioskPoison k o => Sys2Proof.Machine.execKioskPoison k o s
  | .bCc k o => Sys2Proof.Machine.execBCc k o s
  | .j k o => Sys2Proof.Machine.execJ k o s
  | .jal k o => Sys2Proof.Machine.execJal k o s
  | .jr k o => Sys2Proof.Machine.execJr k o s
  | .kqpush k o => Sys2Proof.Machine.execKqpush k o s
  | .kqpop k o => Sys2Proof.Machine.execKqpop k o s
  | .kqpeek k o => Sys2Proof.Machine.execKqpeek k o s
  | .kqwait k o => Sys2Proof.Machine.execKqwait k o s
  | .kqbpush k o => Sys2Proof.Machine.execKqbpush k o s
  | .kqbpop k o => Sys2Proof.Machine.execKqbpop k o s
  | .bcopy k o => Sys2Proof.Machine.execBcopy k o s
  | .bfill k o => Sys2Proof.Machine.execBfill k o s
  | .bcrc k o => Sys2Proof.Machine.execBcrc k o s
  | .bhash k o => Sys2Proof.Machine.execBhash k o s
  | .fenceK k o => Sys2Proof.Machine.execFenceK k o s
  | .krdc k o => Sys2Proof.Machine.execKrdc k o s
  | .kwrc k o => Sys2Proof.Machine.execKwrc k o s
  | .kret k o => Sys2Proof.Machine.execKret k o s
  | .yield k o => Sys2Proof.Machine.execYield k o s
  | .halt k o => Sys2Proof.Machine.execHalt k o s
  | .longOperationComplete k unit => Sys2Proof.Machine.execLongOperationComplete k unit s
  | .kioskImpreciseException k => Sys2Proof.Machine.execKioskImpreciseException k s
  | .kioskInternalError k => Sys2Proof.Machine.execKioskInternalError k s
  | .kioskInterruptEntry k => Sys2Proof.Machine.execKioskInterruptEntry k s
  | .ktimerExpiry k => Sys2Proof.Machine.execKtimerExpiry k s
  | .contextDispatch k late => Sys2Proof.Machine.execContextDispatch k late s
  | .sliceEnd k => Sys2Proof.Machine.execSliceEnd k s
  | .kioskWake k n => Sys2Proof.Machine.execKioskWake k n s
  | .kskDoorbell k v => Sys2Proof.Machine.execKskDoorbell k v s
  | .kioskReset k => Sys2Proof.Machine.execKioskReset k s
  | .kioskEnable k en => Sys2Proof.Machine.execKioskEnable k en s
  | .kioskWorldChange k world walled => Sys2Proof.Machine.execKioskWorldChange k world walled s
  | .sramClrDone k => Sys2Proof.Machine.execSramClrDone k s
  | .go k n => Sys2Proof.Machine.execGo k n s
  | .stop k n => Sys2Proof.Machine.execStop k n s
  | .tlpMemoryRequest t => Sys2Proof.Machine.execTlpMemoryRequest t s
  | .translatedRequest t => Sys2Proof.Machine.execTranslatedRequest t s
  | .translationRequest rp rid pasid addr => Sys2Proof.Machine.execTranslationRequest rp rid pasid addr s
  | .configurationRequest rid d write be walled => Sys2Proof.Machine.execConfigurationRequest rid d write be walled s
  | .bmeClear rid walled => Sys2Proof.Machine.execBmeClear rid walled s
  | .flr rid => Sys2Proof.Machine.execFlr rid s
  | .flrDone rid => Sys2Proof.Machine.execFlrDone rid s
  | .addr half rid pasid a bits => Sys2Proof.Machine.execAddr half rid pasid a bits s
  | .function half rid pasid => Sys2Proof.Machine.execFunction half rid pasid s
  | .sync half => Sys2Proof.Machine.execSync half s
  | .unblock half rid => Sys2Proof.Machine.execUnblock half rid s
  | .invalidationComplete half => Sys2Proof.Machine.execInvalidationComplete half s
  | .atsTimeout half => Sys2Proof.Machine.execAtsTimeout half s
  | .invalidateRequest c range pasid => Sys2Proof.Machine.execInvalidateRequest c range pasid s
  | .commit half => Sys2Proof.Machine.execCommit half s
  | .mmioCompletionTimeout rp => Sys2Proof.Machine.execMmioCompletionTimeout rp s
  | .cxlTimeout line => Sys2Proof.Machine.execCxlTimeout line s
  | .hotPlugFrame port bits => Sys2Proof.Machine.execHotPlugFrame port bits s
  | .slotControlWrite rp v => Sys2Proof.Machine.execSlotControlWrite rp v s
  | .linkRetrain l => Sys2Proof.Machine.execLinkRetrain l s
  | .linkDown l => Sys2Proof.Machine.execLinkDown l s
  | .wwRangeWrite w n v => Sys2Proof.Machine.execWwRangeWrite w n v s
  | .moncoreWrite w v => Sys2Proof.Machine.execMoncoreWrite w v s
  | .watchdogStart w v => Sys2Proof.Machine.execWatchdogStart w v s
  | .wdogWarn => Sys2Proof.Machine.execWdogWarn s
  | .watchdogExpiry => Sys2Proof.Machine.execWatchdogExpiry s
  | .walledScrubDone => Sys2Proof.Machine.execWalledScrubDone s
  | .pwrDomTarget w dom v => Sys2Proof.Machine.execPwrDomTarget w dom v s
  | .pwrTilePerfReq lt v => Sys2Proof.Machine.execPwrTilePerfReq lt v s
  | .pwrDomVote w dom v => Sys2Proof.Machine.execPwrDomVote w dom v s
  | .idleTimerExpiry dom => Sys2Proof.Machine.execIdleTimerExpiry dom s
  | .domainChangeComplete dom => Sys2Proof.Machine.execDomainChangeComplete dom s
  | .levelChangeComplete lt => Sys2Proof.Machine.execLevelChangeComplete lt s
  | .wake dom => Sys2Proof.Machine.execWake dom s
  | .heldPacket dom packet snoop answer => Sys2Proof.Machine.execHeldPacket dom packet snoop answer s
  | .governorTick vin v5 iin pin demand => Sys2Proof.Machine.execGovernorTick vin v5 iin pin demand s
  | .fallOvr => Sys2Proof.Machine.execFallOvr s
  | .packageCapTick avg => Sys2Proof.Machine.execPackageCapTick avg s
  | .thermalCapTick lt tj => Sys2Proof.Machine.execThermalCapTick lt tj s
  | .m6Entry => Sys2Proof.Machine.execM6Entry s
  | .m6Exit => Sys2Proof.Machine.execM6Exit s
  | .m7Req w => Sys2Proof.Machine.execM7Req w s
  | .m7Entry => Sys2Proof.Machine.execM7Entry s
  | .m7RefusalTimeout => Sys2Proof.Machine.execM7RefusalTimeout s
  | .m7Exit => Sys2Proof.Machine.execM7Exit s
  | .clockChange die v => Sys2Proof.Machine.execClockChange die v s
  | .clockChangeDone die => Sys2Proof.Machine.execClockChangeDone die s
  | .vinOutOfRange => Sys2Proof.Machine.execVinOutOfRange s
  | .standbyLost => Sys2Proof.Machine.execStandbyLost s
  | .standbyRise => Sys2Proof.Machine.execStandbyRise s
  | .vinValid => Sys2Proof.Machine.execVinValid s
  | .timesync k => Sys2Proof.Machine.execTimesync k s
  | .timesyncDrive => Sys2Proof.Machine.execTimesyncDrive s
  | .chainFrame id parityOk => Sys2Proof.Machine.execChainFrame id parityOk s
  | .chainInLow => Sys2Proof.Machine.execChainInLow s
  | .chainOutFrame => Sys2Proof.Machine.execChainOutFrame s
  | .powerOn w => Sys2Proof.Machine.execPowerOn w s
  | .warmReset w => Sys2Proof.Machine.execWarmReset w s
  | .coldReset w => Sys2Proof.Machine.execColdReset w s
  | .maint w => Sys2Proof.Machine.execMaint w s
  | .maintDone w => Sys2Proof.Machine.execMaintDone w s
  | .mfgTest w => Sys2Proof.Machine.execMfgTest w s
  | .debug w => Sys2Proof.Machine.execDebug w s
  | .debugResume w => Sys2Proof.Machine.execDebugResume w s
  | .svnCommit w => Sys2Proof.Machine.execSvnCommit w s
  | .resetNFall => Sys2Proof.Machine.execResetNFall s
  | .resetNRise => Sys2Proof.Machine.execResetNRise s
  | .firmwareTrip => Sys2Proof.Machine.execFirmwareTrip s
  | .analogueTrip => Sys2Proof.Machine.execAnalogueTrip s
  | .powerUpStepDone => Sys2Proof.Machine.execPowerUpStepDone s
  | .powerUpStepTimeout => Sys2Proof.Machine.execPowerUpStepTimeout s
  | .selfTestRequest cond => Sys2Proof.Machine.execSelfTestRequest cond s
  | .selfTestRetry cond => Sys2Proof.Machine.execSelfTestRetry cond s
  | .selfTestConditionsTimeout => Sys2Proof.Machine.execSelfTestConditionsTimeout s
  | .testResult u flag count sig last zero => Sys2Proof.Machine.execTestResult u flag count sig last zero s
  | .bringUp errs meshOk => Sys2Proof.Machine.execBringUp errs meshOk s
  | .trainingComplete ch dimms ok => Sys2Proof.Machine.execTrainingComplete ch dimms ok s
  | .coreStart => Sys2Proof.Machine.execCoreStart s
  | .getVersion => Sys2Proof.Machine.execGetVersion s
  | .getCapabilities => Sys2Proof.Machine.execGetCapabilities s
  | .negotiateAlgorithms p384 sha => Sys2Proof.Machine.execNegotiateAlgorithms p384 sha s
  | .getDigests => Sys2Proof.Machine.execGetDigests s
  | .getCertificate slot off len => Sys2Proof.Machine.execGetCertificate slot off len s
  | .challenge slot nonce => Sys2Proof.Machine.execChallenge slot nonce s
  | .getMeasurements block nonce sign => Sys2Proof.Machine.execGetMeasurements block nonce sign s
  | .vendorDefinedRequest key msg r sg => Sys2Proof.Machine.execVendorDefinedRequest key msg r sg s
  | .measurementExtend w slot => Sys2Proof.Machine.execMeasurementExtend w slot s
  | .gpioInputChange pin level => Sys2Proof.Machine.execGpioInputChange pin level s
  | .entdaa addr => Sys2Proof.Machine.execEntdaa addr s
  | .setdasa static addr => Sys2Proof.Machine.execSetdasa static addr s
  | .idcode => Sys2Proof.Machine.execIdcode s
  | .bypass => Sys2Proof.Machine.execBypass s
  | .samplePreload => Sys2Proof.Machine.execSamplePreload s
  | .extest => Sys2Proof.Machine.execExtest s
  | .intest => Sys2Proof.Machine.execIntest s
  | .tapReset => Sys2Proof.Machine.execTapReset s
  | .ageMeasurement lt raw => Sys2Proof.Machine.execAgeMeasurement lt raw s
  | .guardbandRamp lt => Sys2Proof.Machine.execGuardbandRamp lt s
  | .wearUpdate lt tj hour => Sys2Proof.Machine.execWearUpdate lt tj hour s
  | .retire v results => Sys2Proof.Machine.execRetire v results s
  | .lifetimeRecordWrite ok => Sys2Proof.Machine.execLifetimeRecordWrite ok s
  | .round remote => Sys2Proof.Machine.execRound remote s
  | .roundLatch late => Sys2Proof.Machine.execRoundLatch late s
  | .roundHeaderWrite => Sys2Proof.Machine.execRoundHeaderWrite s
  | .clear die st => Sys2Proof.Machine.execClear die st s
  | .registerRead w off size crc => Sys2Proof.Machine.execRegisterRead w off size crc s
  | .pcieCompletion rp status data poisoned => Sys2Proof.Machine.execPcieCompletion rp status data poisoned s
  | .pcieMessage rp rid kind => Sys2Proof.Machine.execPcieMessage rp rid kind s
  | .cxlMemResponse line data lo hi => Sys2Proof.Machine.execCxlMemResponse line data lo hi s
  | .rootPortLinkChange rp up speed width => Sys2Proof.Machine.execRootPortLinkChange rp up speed width s
  | .footbridgeLinkTrained l peer plink near same => Sys2Proof.Machine.execFootbridgeLinkTrained l peer plink near same s
  | .internalRailOutOfRange => Sys2Proof.Machine.execInternalRailOutOfRange s
  | .gatehouseStateError => Sys2Proof.Machine.execGatehouseStateError s

end Sys2Proof.Machine
end

