-- ==== Sys2Proof/Machine/Tick.lean ====
section
/-! DEFINITION. What the package's clock does when no command waits. -/
set_option autoImplicit false
namespace Sys2Proof.Machine

/-- R545: s.cntf2 of a logical core counts a nanosecond in which its arbour's clock runs. -/
def State.refNs (s : State) (lc : Nat) : State :=
  let c := s.core lc
  if c.started && s.coreExists lc && (s.mode == .m5 || s.mode == .m10) && decide (s.tileSt (lcTile lc) = 0) && !s.pwr.vstop &&
      c.cntOn 10 c.pl c.walled then
    s.setCore lc (c.cntBump 10 1)
  else s

/-- R508: the watchdog counts. -/
def State.wdogTick (s : State) : State :=
  if s.wdogOn && s.mode.wdogRuns && !s.boot.scrub then { s with wdog := s.wdog + 1 } else s

/-- 1 ns passes (R539): the shadow copies follow (R48); the cores' reference counters and the watchdog count; contexts that stop go on (R460); pending power requests whose
conditions hold begin (R528), and a waiting M7 request that may not be granted is refused (R535); the header of a round goes on (R554); what waits at the I/O dies is
tried again. In M0 and M1 the timebase stands. -/
def State.tick (s : State) : State :=
  let s : State := s.shadowTick
  if !s.mode.timeRuns then { s with boot := { s.boot with event := none } }
  else
    let s : State := { s with time := (s.time + 1) % 2 ^ 64 }.meshCycle
    let s : State := s.cores.foldl (fun (s : State) p => s.refNs p.1) s
    let s : State := s.kiosks.foldl (fun (s : State) p => if p.2.stopping = [] then s else s.kStopPoll p.1) s
    let s : State := s.wdogTick.powerPoll.m7Poll.headerGo
    if s.io.busy then s.tlpRetry else s

end Sys2Proof.Machine
end

