-- ==== Sys2Proof/Safety.lean ====
section
/-! DEFINITION. The terms in which the statements speak: the canonical form of memory, a core that is ready to run an instruction its tile
holds, the state after an instruction that only changes its core, and the same for a kiosk. -/
set_option autoImplicit false
namespace Sys2Proof.Machine

/-- The stored bytes of DRAM are in canonical form: addresses strictly rising, no byte equal to an unlisted one. -/
def Memory.wf (m : List Host.Cell) : Bool := twf m 0

/-- The memory of a state is in canonical form: value bytes and tag bytes. -/
def State.memWf (s : State) : Bool := Memory.wf s.mem && Memory.wf s.memTags

/-- Core lc runs, no interrupt may be taken, no injected flip or injection waits, no counter entry is due, and the fetch at its PC finds
line `line` in its tile's L2, so that the fetch itself changes nothing. -/
def State.ready (s : State) (lc line : Nat) : Prop :=
  s.coreRuns lc = true ∧ s.irqNow lc = none ∧ (s.l2Any (lcTile lc) line).isSome = true ∧ (s.core lc).flips = [] ∧ (s.core lc).shelf = [] ∧ (s.core lc).cntDue = [] ∧
    s.fld (ltDie (lcTile lc)) (ltIdx (lcTile lc)) ERB_INJ_STATUS [] ERB_INJ_STATUS_REMAIN = 0 ∧ s.fetchInstr lc = (.ok line, s)

/-- A core whose instruction, fetched from a line, has retired: the line is in its L1I and its counters have counted, at the level and in
the world the instruction ran in. -/
def Core.retired (c pre : Core) (line : Nat) : Core := (c.l1iUse line).countRetired pre.pl pre.walled

/-- The state after an instruction that only changes its core: c is the core as the instruction leaves it. -/
def State.after (s : State) (lc line : Nat) (c : Core) : State := s.setCore lc (c.retired (s.core lc) line)

/-- The state after an instruction whose body left s, fetched from a line by a core that was `pre` before it, has retired; `counted` says
that the body has counted the instruction itself. -/
def State.ran (s : State) (lc line : Nat) (pre : Core) (counted : Bool) : State := (s.regInject lc pre).retire lc line pre counted

/-- A system register that counting may write: a counter or s.cntctl. -/
def isCounter (n : Nat) : Bool := within 0x040 n 0x04A || n == 0x058

/-- The value bits of a general register. -/
def Core.gv (c : Core) (r : BitVec 5) : BitVec 64 := (c.getG r).val

/-- No word of a list is poison. -/
def noPoison (ws : List Word) : Prop := firstPoison ws = none

/-- The state t differs from s in core lc only, and there the registers, the PC, the store buffer, the translations and the state of
the core are those of c; its counters, its L1 caches and what injection marked are left open. -/
def State.coreStep (s t : State) (lc : Nat) (c : Core) : Prop :=
  t = { s with cores := t.cores } ∧ (∀ k, k ≠ lc → t.core k = s.core k) ∧ (t.core lc).g = c.g ∧ (t.core lc).v = c.v ∧ (t.core lc).p = c.p ∧
    (t.core lc).pz = c.pz ∧ (t.core lc).pc = c.pc ∧ (t.core lc).sb = c.sb ∧ (t.core lc).wait = c.wait ∧ (t.core lc).tlb = c.tlb ∧
    (t.core lc).itlb = c.itlb ∧ (t.core lc).dtlb = c.dtlb ∧ (t.core lc).wcache = c.wcache ∧ (t.core lc).started = c.started ∧ (t.core lc).halted = c.halted ∧ (t.core lc).irqPending = c.irqPending ∧
    (∀ n, isCounter n = false → (t.core lc).sysr n = c.sysr n)

/-- The release buffer of a tile's arbour takes a transaction: it is not in use, or has room (R255, R256). -/
def State.rbOpen (s : State) (lt : Nat) : Prop := s.safeMode lt = true → (s.arbour lt).full = false

/-- The state t differs from s at most in the release buffer and replay log of a safe-mode arbour and in the register that shows them. -/
def State.rbSame (s t : State) (lt : Nat) : Prop :=
  t = { s with arbours := t.arbours, regs := t.regs } ∧ (∀ k, k ≠ lt → t.arbour k = s.arbour k) ∧ (s.safeMode lt = false → t = s) ∧
    (∀ k, k ≠ regKey (ltDie lt) (ltIdx lt) ARB_RB_STATUS [] → tfind t.regs k = tfind s.regs k)

/-- As State.coreStep, for an instruction whose access passes the release buffer and the replay log (R255, R261). -/
def State.coreStepRb (s t : State) (lc : Nat) (c : Core) : Prop := ∃ u, s.rbSame u (lcTile lc) ∧ u.coreStep t lc c

/-- Neither core of a tile holds a line in its fill shelf. -/
def State.offShelf (s : State) (lt line : Nat) : Prop := ∀ k, lcTile k = lt → ∀ e ∈ (s.core k).shelf, e.line ≠ line

/-- Byte j of a line. -/
def lineByte (ws : List Word) (j : Nat) : Nat := (ws.getD (j / 8) Word.zero).val.toNat / 2 ^ (8 * (j % 8)) % 256
/-- The number whose byte i is byte off + i of a line. -/
def lineNat (ws : List Word) (off size : Nat) : Nat :=
  (List.range size).foldl (fun (n : Nat) i => n + lineByte ws (off + i) * 2 ^ (8 * i)) 0
/-- The words of a line that `size` bytes at an offset touch. -/
def touchedWords (ws : List Word) (off size : Nat) : List Word :=
  (List.range ((off + size - 1) / 8 + 1 - off / 8)).map (fun i => ws.getD (off / 8 + i) Word.zero)

/-- What a load of `size` bytes at an offset of a line returns, given the word for bytes that hold no poison (R132). -/
def loadedWith (ws : List Word) (off size : Nat) (w : Word) : Word :=
  match firstPoison (touchedWords ws off size) with
  | some code => Word.poison code
  | none => w

/-- What LD.D returns of a line at an offset (R135, Table 3-4): the class of one whole word, data over two words. -/
def loadedD (ws : List Word) (off : Nat) : Word :=
  let w := ws.getD (off / 8) Word.zero
  loadedWith ws off 8
    (if off % 8 = 0 ∧ w.cls = .pointer then Word.pointer w.val else Word.data (BitVec.ofNat 64 (lineNat ws off 8)))

/-- A data access of core lc that its tile serves at once: it lies in one page and one line, it translates without a change of the state
to normal memory at pa that the core may reach, its tile holds the line with the words ws, and colours are not checked at the level. -/
def State.plain (s : State) (lc : Nat) (write : Bool) (va : BitVec 64) (size pa : Nat) (ws : List Word) : Prop :=
  vaLow va % 2 ^ 14 + size ≤ 2 ^ 14 ∧ pa % 128 + size ≤ 128 ∧
    (∃ td level, s.translate lc { fetch := false, write := write } va = (.ok ⟨pa, false, td, level⟩, s)) ∧
    s.openRefused lc (128 * (pa / 128)) = false ∧ s.coreLine lc (pa / 128) .data = (some ws, s) ∧ (s.core lc).tagEn = false

/-- Kiosk k has a program that runs its next instruction now: no fault, interrupt or long operation stands before it, it does not wait for
the Urn, no context is being stopped, and its instruction word is without error and one that the kiosk decodes. `uses` and `unit` are the
registers and the long-operation unit of the instruction. -/
def State.kReady (s : State) (k : Nat) (uses : List (BitVec 4)) (unit : Option Nat) : Prop :=
  k < 512 ∧ s.kRuns k = true ∧ (s.ksk k).lfault = none ∧ (s.ksk k).irq = none ∧ (s.ksk k).busy k uses unit = false ∧
    tfind (s.ksk k).waits (s.ksk k).cur = none ∧ (s.ksk k).stopping = [] ∧
    tget (s.ksk k).ibad 0 (s.kPc k / 8) = 0 ∧ (decodeKiosk ((s.ksk k).wordAt (s.kPc k))).isSome = true

/-- The state after an instruction of kiosk k whose body left s: its program goes on as n says, and a hub kiosk counts it. -/
def State.kNext (s : State) (k : Nat) (n : KNext) : State :=
  (s.setKsk k ((s.ksk k).setPos (s.ksk k).cur (((s.ksk k).at (s.ksk k).cur).step n))).kCount k 1

/-- A kiosk in state q has entered its handler as r: what R453 saves, the vector, and what stays. -/
def Kiosk.entered (q r : Kiosk) (p : KPos) (cause vec : Nat) : Prop :=
  r.handler = true ∧ r.kc 1 = BitVec.ofNat 64 p.pc ∧ r.kc 2 = BitVec.ofNat 64 p.npc ∧ r.kc 3 = BitVec.ofNat 64 cause ∧ r.ie = false ∧
    r.savedIe = q.ie ∧ r.running = q.running ∧ r.at 4 = KPos.at ((q.kc 5).toNat / 2 ^ 8 % 2 ^ 8 * 256 + vec) ∧ r.regs = q.regs ∧
    r.dsram = q.dsram

end Sys2Proof.Machine
end

