-- ==== Sys2Proof/WellFormed.lean ====
section
/-! DEFINITION. Which commands are well formed: every number names a unit that the part has, every list has the length the spec
gives it. The fields of instruction words are raw bits and any value of them is well formed: what the spec says of reserved values is
each meaning's business. -/
set_option autoImplicit false
namespace Sys2Proof

/-- A logical core (R19): 512 at most. -/
def okCore (lc : Nat) : Bool := decide (lc < 512)
/-- A logical tile (R14): 8 dies of 32. -/
def okTile (lt : Nat) : Bool := decide (lt < 256)
/-- A kiosk (R428): 256 tile kiosks and 256 hub kiosks. -/
def okKiosk (k : Nat) : Bool := decide (k < 512)
/-- A memory channel: 8 per I/O die. -/
def okChan (ch : Nat) : Bool := decide (ch < 16)
/-- A line of a channel (R340). -/
def okChLine (n : Nat) : Bool := decide (n < 2 ^ 32)
/-- A line address, PA[51:7]. -/
def okLine (n : Nat) : Bool := decide (n < 2 ^ 45)
/-- A die with mesh stops (Table 2-1): 8 compute dies and 2 I/O dies. -/
def okDie (die : Nat) : Bool := decide (die < 10)
/-- A unit number of a die (Table 2-1). -/
def okUnit (u : Nat) : Bool := decide (u < 1024)
/-- A control-space offset, 36 bits (Table 2-1). -/
def okOffset (off : Nat) : Bool := decide (off < 2 ^ 36)
/-- A queue number (R404). -/
def okQueue (q : Nat) : Bool := decide (q < 65536)
/-- A routing ID of PCI Express. -/
def okRid (rid : Nat) : Bool := decide (rid < 65536)
/-- A root port: 20 per I/O die (R466). -/
def okPort (rp : Nat) : Bool := decide (rp < 40)
/-- An Urn half: one per I/O die. -/
def okHalf (h : Nat) : Bool := decide (h < 2)
/-- A Footbridge link of a socket: 3 per I/O die. -/
def okLink (l : Nat) : Bool := decide (l < 6)
/-- A way of a cache (Table 9-1). -/
def okWay (w : Nat) : Bool := decide (w < 16)
/-- A GPIO pin. -/
def okPin (p : Nat) : Bool := decide (p < 32)
/-- A mesh stop of a die, by its scan index. -/
def okStop (st : Nat) : Bool := decide (st < 64)
/-- A rank of a channel. -/
def okRank (r : Nat) : Bool := decide (r < 8)
/-- A power domain number (Table 17-2). -/
def okDom (d : Nat) : Bool := decide (d < 1024)
/-- A byte. -/
def okByte (b : Nat) : Bool := decide (b < 256)
/-- The words of a line, or none. -/
def okLineWords (ws : List Word) : Bool := decide (ws.length = 16) || ws.isEmpty

/-- An agent that exists. -/
def Agent.wf (a : Agent) : Bool :=
  match a with
  | .tile lt => okTile lt
  | .llc lt => okTile lt
  | .home i => okHalf i
  | .socket n => decide (n < 8)
  | .iommu i => okHalf i
  | .nca _ => true

/-- A message of Table 10-4: its agents exist, its line is a line address, it carries a line or nothing. -/
def Msg.wf (m : Msg) : Bool :=
  Agent.wf m.src && Agent.wf m.dst && okLine m.line && okLineWords m.data && decide (m.mask < 2 ^ 128) && m.core.all okCore

/-- A requester of a queue operation that exists. -/
def QWho.wf (w : QWho) : Bool :=
  match w with
  | .core lc => okCore lc
  | .kiosk k ctx => okKiosk k && decide (ctx < 4)
  | .function rid => okRid rid
  | .ipi lc => okCore lc
  | .hardware => true

/-- A broadcast TLBI of cores and sockets that exist (R209). -/
def TlbiFrom.wf (f : TlbiFrom) : Bool :=
  match f with
  | .core src => okCore src
  | .peer n src _ => decide (n < 8) && okCore src
  | .link n src _ _ => decide (n < 8) && okCore src
  | .done n _ => decide (n < 8)

/-- A flit has four payload words (R376). -/
def Flit.wf (f : Flit) : Bool := decide (f.payload.length = 4)

/-- An inbound request (R481): at most the 4,096 bytes of Max Read Request Size (Table 15-2), with data for a write only. -/
def Tlp.wf (t : Tlp) : Bool :=
  okPort t.rp && okRid t.rid && decide (t.addr < 2 ^ 64) && decide (t.size ≤ 4096) &&
    decide (t.data.length = if t.write then (t.size + 7) / 8 else 0)

/-- An initiator of Table 12-6: IKIND and its number fit their fields. -/
def CtlWho.wf (w : CtlWho) : Bool := decide (w.kind < 16) && decide (w.num < 65536)

/-- An array error lies in an entry and word that exist. -/
def CacheErr.wf (e : CacheErr) : Bool := okTile e.lt && decide (e.entry < 32768) && decide (e.word ≤ 16)

/-- What a mismatch found fits an arbour: its lines are line addresses. -/
def Mismatch.wf (m : Mismatch) : Bool := m.lines.all okLine

/-- An SPD names a module kind. -/
def Spd.wf (d : Spd) : Bool := d.kind == 1 || d.kind == 2

/-- A unit under test that exists. -/
def TestUnit.wf (u : TestUnit) : Bool :=
  match u with
  | .tile n => decide (n < 8 * 34)
  | .node n => decide (n < 16384)

/-- Whether a command is well formed. -/
def Instr.wf (i : Instr) : Bool :=
  match i with
  | .sysrd lc _ => okCore lc
  | .syswr lc _ => okCore lc
  | .ipiSend lc _ _ => okCore lc
  | .eret lc _ => okCore lc
  | .scall lc _ => okCore lc
  | .hcall lc _ => okCore lc
  | .wcall lc _ => okCore lc
  | .wret lc _ => okCore lc
  | .mkptr lc _ => okCore lc
  | .tlbiVa lc _ => okCore lc
  | .tlbiAsid lc _ => okCore lc
  | .tlbiAll lc _ => okCore lc
  | .tlbiVmid lc _ => okCore lc
  | .tlbiIpa lc _ => okCore lc
  | .tlbiRemote src dst => TlbiFrom.wf src && okCore dst
  | .tlbsync lc _ => okCore lc
  | .add lc _ => okCore lc
  | .sub lc _ => okCore lc
  | .addw lc _ => okCore lc
  | .subw lc _ => okCore lc
  | .and lc _ => okCore lc
  | .or lc _ => okCore lc
  | .xor lc _ => okCore lc
  | .andn lc _ => okCore lc
  | .orn lc _ => okCore lc
  | .xnor lc _ => okCore lc
  | .min lc _ => okCore lc
  | .max lc _ => okCore lc
  | .minu lc _ => okCore lc
  | .maxu lc _ => okCore lc
  | .mul lc _ => okCore lc
  | .mulh lc _ => okCore lc
  | .mulhu lc _ => okCore lc
  | .mulhsu lc _ => okCore lc
  | .mulw lc _ => okCore lc
  | .div lc _ => okCore lc
  | .divu lc _ => okCore lc
  | .rem lc _ => okCore lc
  | .remu lc _ => okCore lc
  | .mov lc _ => okCore lc
  | .clz lc _ => okCore lc
  | .ctz lc _ => okCore lc
  | .popc lc _ => okCore lc
  | .rev lc _ => okCore lc
  | .addi lc _ => okCore lc
  | .addiw lc _ => okCore lc
  | .andi lc _ => okCore lc
  | .ori lc _ => okCore lc
  | .xori lc _ => okCore lc
  | .li lc _ => okCore lc
  | .addpc lc _ => okCore lc
  | .addpcH lc _ => okCore lc
  | .movk lc _ _ => okCore lc
  | .shl lc _ => okCore lc
  | .shr lc _ => okCore lc
  | .sra lc _ => okCore lc
  | .ror lc _ => okCore lc
  | .shlw lc _ => okCore lc
  | .shrw lc _ => okCore lc
  | .sraw lc _ => okCore lc
  | .shli lc _ => okCore lc
  | .shri lc _ => okCore lc
  | .srai lc _ => okCore lc
  | .rori lc _ => okCore lc
  | .shliw lc _ => okCore lc
  | .shriw lc _ => okCore lc
  | .sraiw lc _ => okCore lc
  | .ext lc _ => okCore lc
  | .exts lc _ => okCore lc
  | .ins lc _ => okCore lc
  | .cmpCc lc _ _ => okCore lc
  | .cmpiCc lc _ _ => okCore lc
  | .cmppCc lc _ _ => okCore lc
  | .cmppiCc lc _ _ => okCore lc
  | .sel lc _ => okCore lc
  | .pand lc _ => okCore lc
  | .por lc _ => okCore lc
  | .pxor lc _ => okCore lc
  | .pandn lc _ => okCore lc
  | .movp lc _ => okCore lc
  | .pmov lc _ => okCore lc
  | .bt lc _ _ _ => okCore lc
  | .bf lc _ _ _ => okCore lc
  | .b lc _ => okCore lc
  | .bl lc _ => okCore lc
  | .jrl lc _ => okCore lc
  | .ret lc _ => okCore lc
  | .ldB lc _ => okCore lc
  | .ldBu lc _ => okCore lc
  | .ldH lc _ => okCore lc
  | .ldHu lc _ => okCore lc
  | .ldW lc _ => okCore lc
  | .ldWu lc _ => okCore lc
  | .ldD lc _ => okCore lc
  | .ldt lc _ => okCore lc
  | .stB lc _ => okCore lc
  | .stH lc _ => okCore lc
  | .stW lc _ => okCore lc
  | .stD lc _ => okCore lc
  | .stt lc _ => okCore lc
  | .stNt lc _ => okCore lc
  | .amoAdd lc _ => okCore lc
  | .amoSwp lc _ => okCore lc
  | .amoCas lc _ => okCore lc
  | .amoMax lc _ => okCore lc
  | .amoMin lc _ => okCore lc
  | .amoAnd lc _ => okCore lc
  | .amoOr lc _ => okCore lc
  | .amoXor lc _ => okCore lc
  | .ldcol lc _ => okCore lc
  | .stcol lc _ => okCore lc
  | .class lc _ => okCore lc
  | .poison lc _ => okCore lc
  | .mkdata lc _ => okCore lc
  | .mksys lc _ => okCore lc
  | .cmoCln lc _ => okCore lc
  | .cmoInv lc _ => okCore lc
  | .cmoCli lc _ => okCore lc
  | .prefL lc _ => okCore lc
  | .prefS lc _ => okCore lc
  | .cmoSet lc _ => okCore lc
  | .fenceL lc _ => okCore lc
  | .fenceS lc _ => okCore lc
  | .fenceA lc _ => okCore lc
  | .fenceI lc _ => okCore lc
  | .fenceD lc _ => okCore lc
  | .qpush lc _ => okCore lc
  | .qpop lc _ => okCore lc
  | .qpeek lc _ => okCore lc
  | .qwait lc _ => okCore lc
  | .queueAnswer lc => okCore lc
  | .qwaitTimeout lc => okCore lc
  | .queueCancel lc => okCore lc
  | .vadd lc _ => okCore lc
  | .vsub lc _ => okCore lc
  | .vmul lc _ => okCore lc
  | .vmulh lc _ => okCore lc
  | .vmulhu lc _ => okCore lc
  | .vand lc _ => okCore lc
  | .vor lc _ => okCore lc
  | .vxor lc _ => okCore lc
  | .vandn lc _ => okCore lc
  | .vmin lc _ => okCore lc
  | .vmax lc _ => okCore lc
  | .vminu lc _ => okCore lc
  | .vmaxu lc _ => okCore lc
  | .vshl lc _ => okCore lc
  | .vshr lc _ => okCore lc
  | .vsra lc _ => okCore lc
  | .vcmppCc lc _ _ => okCore lc
  | .vsplat lc _ => okCore lc
  | .vget lc _ => okCore lc
  | .vput lc _ => okCore lc
  | .vperm lc _ => okCore lc
  | .vredadd lc _ => okCore lc
  | .vsel lc _ => okCore lc
  | .vfadd lc _ => okCore lc
  | .vfsub lc _ => okCore lc
  | .vfmul lc _ => okCore lc
  | .vfdiv lc _ => okCore lc
  | .vfsqrt lc _ => okCore lc
  | .vfma lc _ => okCore lc
  | .vfms lc _ => okCore lc
  | .vfnma lc _ => okCore lc
  | .vfmin lc _ => okCore lc
  | .vfmax lc _ => okCore lc
  | .vfabs lc _ => okCore lc
  | .vfneg lc _ => okCore lc
  | .vfcmpp lc _ _ => okCore lc
  | .vfcvt lc _ => okCore lc
  | .vfcvti lc _ => okCore lc
  | .vfcvtz lc _ => okCore lc
  | .vld lc _ => okCore lc
  | .vst lc _ => okCore lc
  | .vldp lc _ => okCore lc
  | .vstp lc _ => okCore lc
  | .vlds lc _ => okCore lc
  | .vsts lc _ => okCore lc
  | .vldx lc _ => okCore lc
  | .vstx lc _ => okCore lc
  | .storeBufferWrite lc _ => okCore lc
  | .memOrderSquash lc => okCore lc
  | .interruptTaken lc => okCore lc
  | .directTimer2Interrupt lc => okCore lc
  | .timerFire lc k => okCore lc && (k == 1 || k == 2)
  | .pendingStateMessage lc => okCore lc
  | .throttleLevelChange lt => okTile lt
  | .mismatch lt m => okTile lt && m.wf
  | .pairTimeout lt => okTile lt
  | .debugSplit lt => okTile lt
  | .rds m errs => m.wf && errs.all CacheErr.wf
  | .rdx m errs => m.wf && errs.all CacheErr.wf
  | .upg m => m.wf
  | .rdnc m => m.wf
  | .wrinv m => m.wf
  | .wbm m errs => m.wf && errs.all CacheErr.wf
  | .evc m => m.wf
  | .fwds m => m.wf
  | .fwdx m => m.wf
  | .inv m => m.wf
  | .data m => m.wf
  | .ack m => m.wf
  | .cmp m => m.wf
  | .wback m => m.wf
  | .nack m => m.wf
  | .nackRetry => true
  | .coherenceTimeout a line => Agent.wf a && okLine line
  | .wayFlushDone lt way _ => okTile lt && okWay way
  | .l2Flush lt => okTile lt
  | .llcFlush lt => okTile lt
  | .flushDone lt _ => okTile lt
  | .l2WayDisWrite lt _ => okTile lt
  | .llcWayDisWrite lt _ => okTile lt
  | .llcWalledWaysWrite lt _ => okTile lt
  | .maskDone lt => okTile lt
  | .channelRead ch chline _ _ _ => okChan ch && okChLine chline
  | .channelWrite ch chline ws mask _ => okChan ch && okChLine chline && okLineWords ws && decide (mask < 2 ^ 128)
  | .granuleFillWrite ch _ => okChan ch
  | .granuleInit ch => okChan ch
  | .patrolRead ch _ _ _ => okChan ch
  | .zqCalibration ch rank => okChan ch && okRank rank
  | .dqsOscillatorRead ch rank => okChan ch && okRank rank
  | .dimmTemperatureRead ch dimm _ => okChan ch && decide (dimm < 2)
  | .memMarkWrite ch _ => okChan ch
  | .memRangeWrite n _ => decide (n < 4)
  | .flitReceive die st port f _ _ => okDie die && okStop st && decide (port < 8) && f.wf
  | .flitReplay die st port _ _ => okDie die && okStop st && decide (port < 8)
  | .meshRouteWrite die bank _ idx _ => okDie die && decide (bank < 2) && decide (idx < 4)
  | .meshFlipGo => true
  | .flipDrainDone => true
  | .flipTimeout => true
  | .flipDone => true
  | .poll die st => okDie die && okStop st
  | .bwr die unit off _ => okDie die && okUnit unit && decide (off < 2 ^ 22)
  | .registerWrite w off _ _ _ => w.wf && okOffset off
  | .trellisTimeout w off _ => w.wf && okOffset off
  | .trellisReplay die unit _ => okDie die && okUnit unit
  | .snap w die unit => w.wf && okDie die && okUnit unit
  | .snapDone die unit _ => okDie die && okUnit unit
  | .lock w die unit => w.wf && okDie die && okUnit unit
  | .guardArm w _ _ => w.wf
  | .guardCommit w _ _ => w.wf
  | .guardWindowExpiry _ => true
  | .buserrClear w => w.wf
  | .urnPush who q ws _ _ => who.wf && okQueue q && decide (ws.length ≤ 8)
  | .urnPop who q _ _ => who.wf && okQueue q
  | .urnPeek who q _ => who.wf && okQueue q
  | .urnWait who q => who.wf && okQueue q
  | .caddyWritebackDone h => okHalf h
  | .doorbell rid _ q _ _ _ => okRid rid && okQueue q
  | .msi i rid off _ _ => decide (i < 2) && okRid rid && decide (off < 2 ^ 21)
  | .holdExpiry h => okHalf h
  | .queueEnable q _ _ => okQueue q
  | .queueDisable q => okQueue q
  | .queueDescriptorWrite q _ _ _ => okQueue q
  | .admitContract _ _ => true
  | .withdraw n => decide (n < 64)
  | .kioskAdd k _ => okKiosk k
  | .kioskSub k _ => okKiosk k
  | .kioskAnd k _ => okKiosk k
  | .kioskOr k _ => okKiosk k
  | .kioskXor k _ => okKiosk k
  | .kioskAndn k _ => okKiosk k
  | .kioskShl k _ => okKiosk k
  | .kioskShr k _ => okKiosk k
  | .kioskSra k _ => okKiosk k
  | .kioskMin k _ => okKiosk k
  | .kioskMax k _ => okKiosk k
  | .kioskMinu k _ => okKiosk k
  | .kioskMaxu k _ => okKiosk k
  | .slt k _ => okKiosk k
  | .sltu k _ => okKiosk k
  | .kioskMul k _ => okKiosk k
  | .kioskMulhu k _ => okKiosk k
  | .kioskMov k _ => okKiosk k
  | .kioskClz k _ => okKiosk k
  | .kioskPopc k _ => okKiosk k
  | .kioskRev k _ => okKiosk k
  | .kioskDiv k _ => okKiosk k
  | .kioskDivu k _ => okKiosk k
  | .kioskRem k _ => okKiosk k
  | .kioskRemu k _ => okKiosk k
  | .kioskAddi k _ => okKiosk k
  | .kioskAndi k _ => okKiosk k
  | .kioskOri k _ => okKiosk k
  | .kioskXori k _ => okKiosk k
  | .kioskShli k _ => okKiosk k
  | .kioskShri k _ => okKiosk k
  | .kioskSrai k _ => okKiosk k
  | .kioskLi k _ => okKiosk k
  | .lih k _ => okKiosk k
  | .ldl k _ => okKiosk k
  | .stl k _ => okKiosk k
  | .ldmB k _ => okKiosk k
  | .ldmH k _ => okKiosk k
  | .ldmW k _ => okKiosk k
  | .ldmD k _ => okKiosk k
  | .stmB k _ => okKiosk k
  | .stmH k _ => okKiosk k
  | .stmW k _ => okKiosk k
  | .stmD k _ => okKiosk k
  | .kioskClass k _ => okKiosk k
  | .kioskMkdata k _ => okKiosk k
  | .kioskMkptr k _ => okKiosk k
  | .kioskMksys k _ => okKiosk k
  | .kioskPoison k _ => okKiosk k
  | .bCc k _ => okKiosk k
  | .j k _ => okKiosk k
  | .jal k _ => okKiosk k
  | .jr k _ => okKiosk k
  | .kqpush k _ => okKiosk k
  | .kqpop k _ => okKiosk k
  | .kqpeek k _ => okKiosk k
  | .kqwait k _ => okKiosk k
  | .kqbpush k _ => okKiosk k
  | .kqbpop k _ => okKiosk k
  | .bcopy k _ => okKiosk k
  | .bfill k _ => okKiosk k
  | .bcrc k _ => okKiosk k
  | .bhash k _ => okKiosk k
  | .fenceK k _ => okKiosk k
  | .krdc k _ => okKiosk k
  | .kwrc k _ => okKiosk k
  | .kret k _ => okKiosk k
  | .yield k _ => okKiosk k
  | .halt k _ => okKiosk k
  | .longOperationComplete k unit => okKiosk k && decide (unit < 3)
  | .kioskImpreciseException k => okKiosk k
  | .kioskInternalError k => okKiosk k
  | .kioskInterruptEntry k => okKiosk k
  | .ktimerExpiry k => okKiosk k
  | .contextDispatch k _ => okKiosk k
  | .sliceEnd k => okKiosk k
  | .kioskWake k n => okKiosk k && decide (n < 5)
  | .kskDoorbell k _ => okKiosk k
  | .kioskReset k => okKiosk k
  | .kioskEnable k _ => okKiosk k
  | .kioskWorldChange k _ _ => okKiosk k
  | .sramClrDone k => okKiosk k
  | .go k n => okKiosk k && decide (n < 4)
  | .stop k n => okKiosk k && decide (n < 4)
  | .tlpMemoryRequest t => t.wf
  | .translatedRequest t => t.wf
  | .translationRequest rp rid _ _ => okPort rp && okRid rid
  | .configurationRequest rid d _ be _ => okRid rid && decide (d < 1024) && decide (be < 16)
  | .bmeClear rid _ => okRid rid
  | .flr rid => okRid rid
  | .flrDone rid => okRid rid
  | .addr i rid _ _ _ => decide (i < 2) && okRid rid
  | .function i rid _ => decide (i < 2) && okRid rid
  | .sync i => decide (i < 2)
  | .unblock i rid => decide (i < 2) && okRid rid
  | .invalidationComplete i => decide (i < 2)
  | .atsTimeout i => decide (i < 2)
  | .invalidateRequest c _ _ => decide (c < 16)
  | .commit i => decide (i < 2)
  | .mmioCompletionTimeout rp => okPort rp
  | .cxlTimeout line => okLine line
  | .hotPlugFrame port _ => decide (port < 10)
  | .slotControlWrite rp _ => okPort rp
  | .linkRetrain l => okLink l
  | .linkDown l => okLink l
  | .wwRangeWrite w n _ => w.wf && decide (n < 16)
  | .moncoreWrite w _ => w.wf
  | .watchdogStart w _ => w.wf
  | .wdogWarn => true
  | .watchdogExpiry => true
  | .walledScrubDone => true
  | .pwrDomTarget w dom _ => w.wf && okDom dom
  | .pwrTilePerfReq lt _ => okTile lt
  | .pwrDomVote w dom _ => w.wf && okDom dom
  | .idleTimerExpiry dom => okDom dom
  | .domainChangeComplete dom => okDom dom
  | .levelChangeComplete lt => okTile lt
  | .wake dom => okDom dom
  | .heldPacket dom packet _ _ => okDom dom && packet.all Flit.wf
  | .governorTick _ _ _ _ _ => true
  | .fallOvr => true
  | .packageCapTick _ => true
  | .thermalCapTick lt _ => okTile lt
  | .m6Entry => true
  | .m6Exit => true
  | .m7Req w => w.wf
  | .m7Entry => true
  | .m7RefusalTimeout => true
  | .m7Exit => true
  | .clockChange die _ => okDie die
  | .clockChangeDone die => okDie die
  | .vinOutOfRange => true
  | .standbyLost => true
  | .standbyRise => true
  | .vinValid => true
  | .timesync _ => true
  | .timesyncDrive => true
  | .chainFrame id _ => decide (id < 8)
  | .chainInLow => true
  | .chainOutFrame => true
  | .powerOn w => w.all CtlWho.wf
  | .warmReset w => w.all CtlWho.wf
  | .coldReset w => w.all CtlWho.wf
  | .maint w => w.all CtlWho.wf
  | .maintDone w => w.all CtlWho.wf
  | .mfgTest w => w.all CtlWho.wf
  | .debug w => w.all CtlWho.wf
  | .debugResume w => w.all CtlWho.wf
  | .svnCommit w => w.all CtlWho.wf
  | .resetNFall => true
  | .resetNRise => true
  | .firmwareTrip => true
  | .analogueTrip => true
  | .powerUpStepDone => true
  | .powerUpStepTimeout => true
  | .selfTestRequest _ => true
  | .selfTestRetry _ => true
  | .selfTestConditionsTimeout => true
  | .testResult u _ _ _ _ _ => u.wf
  | .bringUp _ _ => true
  | .trainingComplete ch dimms _ => okChan ch && dimms.all Spd.wf
  | .coreStart => true
  | .getVersion => true
  | .getCapabilities => true
  | .negotiateAlgorithms _ _ => true
  | .getDigests => true
  | .getCertificate _ _ _ => true
  | .challenge _ nonce => nonce.all okByte
  | .getMeasurements block nonce _ => okByte block && nonce.all okByte
  | .vendorDefinedRequest key msg _ _ => key.all okByte && msg.all okByte
  | .measurementExtend w slot => w.wf && decide (slot < 16)
  | .gpioInputChange pin _ => okPin pin
  | .entdaa ad => decide (ad < 128)
  | .setdasa static ad => decide (static < 128) && decide (ad < 128)
  | .idcode => true
  | .bypass => true
  | .samplePreload => true
  | .extest => true
  | .intest => true
  | .tapReset => true
  | .ageMeasurement lt _ => okTile lt
  | .guardbandRamp lt => okTile lt
  | .wearUpdate lt _ _ => okTile lt
  | .retire _ _ => true
  | .lifetimeRecordWrite _ => true
  | .round _ => true
  | .roundLatch _ => true
  | .roundHeaderWrite => true
  | .clear die st => okDie die && okStop st
  | .registerRead w off _ _ => w.wf && okOffset off
  | .pcieCompletion rp _ _ _ => okPort rp
  | .pcieMessage rp rid kind => okPort rp && okRid rid && decide (kind < 3)
  | .cxlMemResponse line _ _ _ => okLine line
  | .rootPortLinkChange rp _ _ _ => okPort rp
  | .footbridgeLinkTrained l peer plink _ _ => okLink l && decide (peer < 8) && decide (plink < 6)
  | .internalRailOutOfRange => true
  | .gatehouseStateError => true

end Sys2Proof
end

