-- ==== Sys2Proof/Certificates/Slice0/Obligations.lean ====
section
/-! DEFINITION. The statements for the provers. -/
set_option autoImplicit false
open Sys2Proof Sys2Proof.Machine

/-- For every state and command, a step with that command at the front of the queue is exec of the command on the state
with the queue's rest. Cites 00_scope.md. -/
def Obligations.StepRunsFrontCommand : Prop :=
  ∀ (s : State) (c : Instr) (rest : List Instr),
    step { s with pending := c :: rest } = exec c { s with pending := rest }

/-- The model's choice (log entry 8): with no command waiting, a step is a next state, namely one tick, with the queue
still empty. In M0 and M1 it only refreshes the shadow copies and ends the Trellis cycle. In every other mode, with no
core and no kiosk listed, no flit in a buffer, no trace or schedule in hand, no power or M7 request and no inbound request
waiting, only the timebase is one nanosecond later modulo 2^64, the shadow copies are a nanosecond older, and the Walled
watchdog has counted one where it runs. Cites 17_power_clocks.md, R539, R508, R48. -/
def Obligations.EmptyQueueTicks : Prop :=
  ∀ s : State, s.pending = [] →
    step s = .next s.tick ∧
    ((s.mode = .m0 ∨ s.mode = .m1) → s.tick = { s with ctl := s.shadowTick.ctl, boot := { s.boot with event := none } }) ∧
    ((s.mode ≠ .m0 ∧ s.mode ≠ .m1) → s.cores = [] → s.kiosks = [] → s.pwr.lower = [] → s.io.busy = false → s.rnd.rounds = [] →
      s.ports.buf = [] → s.ports.staging = [] → s.ports.oldSlots = [] → s.flag 15 5 PWR_PKG_CTL [] PWR_PKG_CTL_M7_REQ = false →
      s.tick = { s with time := (s.time + 1) % 2 ^ 64, ctl := s.shadowTick.ctl,
                        wdog := if s.wdogOn = true ∧ s.mode.wdogRuns = true ∧ s.boot.scrub = false then s.wdog + 1 else s.wdog })

/-- On a ready core, with MOD = 0 and no poison in ga or gb, each class 0x1 operation on two operands completes: it
writes gd with the value of Table 4-7, data class and tag 0x00, moves the PC past itself and changes nothing outside
its core. ADD of a pointer and a data operand, in either order, gives pointer class with the colour of the pointer
and the sum modulo 2^58 below it. Cites R109, R112, R64. -/
def Obligations.IntegerRegisterResults : Prop :=
  ∀ (s : State) (lc line : Nat) (o : ROp), s.ready lc line → o.md = 0 →
    noPoison [(s.core lc).getG o.ra, (s.core lc).getG o.rb] →
    let wa := (s.core lc).getG o.ra
    let wb := (s.core lc).getG o.rb
    let a := wa.val
    let b := wb.val
    let gives := fun (i : Instr) (w : Word) => exec i s = .next (s.after lc line ((s.core lc).finish o.rd w))
    let data := fun (i : Instr) (v : BitVec 64) => gives i (Word.data v)
    (wa.cls = .pointer → wb.cls = .data →
      gives (.add lc o) (Word.pointer (a.extractLsb' 58 6 ++ (a + b).extractLsb' 0 58))) ∧
    (wa.cls = .data → wb.cls = .pointer →
      gives (.add lc o) (Word.pointer (b.extractLsb' 58 6 ++ (a + b).extractLsb' 0 58))) ∧
    (¬ (wa.cls = .pointer ∧ wb.cls = .data) → ¬ (wa.cls = .data ∧ wb.cls = .pointer) → data (.add lc o) (a + b)) ∧
    data (.sub lc o) (a - b) ∧
    data (.addw lc o) ((a.setWidth 32 + b.setWidth 32).signExtend 64) ∧
    data (.subw lc o) ((a.setWidth 32 - b.setWidth 32).signExtend 64) ∧
    data (.and lc o) (a &&& b) ∧ data (.or lc o) (a ||| b) ∧ data (.xor lc o) (a ^^^ b) ∧
    data (.andn lc o) (a &&& ~~~ b) ∧ data (.orn lc o) (a ||| ~~~ b) ∧ data (.xnor lc o) (~~~ (a ^^^ b)) ∧
    data (.min lc o) (if a.toInt ≤ b.toInt then a else b) ∧ data (.max lc o) (if a.toInt ≤ b.toInt then b else a) ∧
    data (.minu lc o) (if a.toNat ≤ b.toNat then a else b) ∧ data (.maxu lc o) (if a.toNat ≤ b.toNat then b else a) ∧
    data (.mul lc o) (a * b) ∧
    data (.mulh lc o) ((a.signExtend 128 * b.signExtend 128).extractLsb' 64 64) ∧
    data (.mulhu lc o) ((a.setWidth 128 * b.setWidth 128).extractLsb' 64 64) ∧
    data (.mulhsu lc o) ((a.signExtend 128 * b.setWidth 128).extractLsb' 64 64) ∧
    data (.mulw lc o) ((a.setWidth 32 * b.setWidth 32).signExtend 64)

/-- On a ready core, with O = 0 and no poison operand, a divisor of zero gives the results of Table 4-9 and no
exception, so does -2^63 by -1, and every other pair gives the quotient rounded towards zero and the remainder.
Cites R111. -/
def Obligations.DivisionResults : Prop :=
  ∀ (s : State) (lc line : Nat) (o : ROp), s.ready lc line → o.md = 0 →
    noPoison [(s.core lc).getG o.ra, (s.core lc).getG o.rb] →
    let a := (s.core lc).gv o.ra
    let b := (s.core lc).gv o.rb
    let data := fun (i : Instr) (v : BitVec 64) =>
      exec i s = .next (s.after lc line ((s.core lc).finish o.rd (Word.data v)))
    (b = 0 → data (.div lc o) 0xFFFFFFFFFFFFFFFF ∧ data (.divu lc o) 0xFFFFFFFFFFFFFFFF ∧ data (.rem lc o) a ∧
      data (.remu lc o) a) ∧
    (a = 0x8000000000000000 → b = 0xFFFFFFFFFFFFFFFF →
      data (.div lc o) 0x8000000000000000 ∧ data (.rem lc o) 0) ∧
    (b ≠ 0 → data (.div lc o) (a.sdiv b) ∧ data (.divu lc o) (a.udiv b) ∧ data (.rem lc o) (a.srem b) ∧
      data (.remu lc o) (a.umod b))

/-- On a ready core, with O = 1 and no poison operand: where Table 4-8 names a condition, the instruction takes integer-
overflow (or divide-by-zero, which DIV's overflow outranks) at its own address; where it does not, it completes with
the same result as with O = 0. Cites R110. -/
def Obligations.OverflowBitTraps : Prop :=
  ∀ (s : State) (lc line : Nat) (rd ra rb : BitVec 5), s.ready lc line →
    noPoison [(s.core lc).getG ra, (s.core lc).getG rb] →
    let o : ROp := ⟨rd, ra, rb, 1⟩
    let o' : ROp := ⟨rd, ra, rb, 0⟩
    let wa := (s.core lc).getG ra
    let wb := (s.core lc).getG rb
    let x := wa.val.toInt
    let y := wb.val.toInt
    let x32 := (wa.val.setWidth 32).toInt
    let y32 := (wb.val.setWidth 32).toInt
    let fits := fun (n : Nat) (z : Int) => -(2 : Int) ^ (n - 1) ≤ z ∧ z < (2 : Int) ^ (n - 1)
    let traps := fun (i : Instr) (e : Exc) => exec i s = .next (s.takeExc lc e (s.core lc).pc)
    let ovf := fun (i j : Instr) (ok : Prop) => (¬ ok → traps i Exc.overflow) ∧ (ok → exec i s = exec j s)
    let ptrFits := fun (p : BitVec 64) (d : Int) => 0 ≤ ((p.toNat % 2 ^ 58 : Nat) : Int) + d ∧ ((p.toNat % 2 ^ 58 : Nat) : Int) + d < (2 : Int) ^ 58
    let zero := wb.val = 0
    (wa.cls = .pointer → wb.cls = .data → ovf (.add lc o) (.add lc o') (ptrFits wa.val y)) ∧
    (wa.cls = .data → wb.cls = .pointer → ovf (.add lc o) (.add lc o') (ptrFits wb.val x)) ∧
    (¬ (wa.cls = .pointer ∧ wb.cls = .data) → ¬ (wa.cls = .data ∧ wb.cls = .pointer) →
      ovf (.add lc o) (.add lc o') (fits 64 (x + y))) ∧
    ovf (.sub lc o) (.sub lc o') (fits 64 (x - y)) ∧
    ovf (.addw lc o) (.addw lc o') (fits 32 (x32 + y32)) ∧
    ovf (.subw lc o) (.subw lc o') (fits 32 (x32 - y32)) ∧
    ovf (.mul lc o) (.mul lc o') (fits 64 (x * y)) ∧
    ovf (.mulw lc o) (.mulw lc o') (fits 32 (x32 * y32)) ∧
    (x = -(2 : Int) ^ 63 → y = -1 → traps (.div lc o) Exc.overflow) ∧
    (zero → traps (.div lc o) Exc.divZero ∧ traps (.divu lc o) Exc.divZero ∧ traps (.rem lc o) Exc.divZero ∧
      traps (.remu lc o) Exc.divZero) ∧
    (¬ zero → ¬ (x = -(2 : Int) ^ 63 ∧ y = -1) → exec (.div lc o) s = exec (.div lc o') s) ∧
    (¬ zero → exec (.divu lc o) s = exec (.divu lc o') s ∧ exec (.rem lc o) s = exec (.rem lc o') s ∧
      exec (.remu lc o) s = exec (.remu lc o') s)

/-- On a ready core, with no poison operand and the fields that must be 0 equal to 0: MOV copies the word, but at PL0 a
system-class word becomes data; CLZ, CTZ and POPC write the counts and REV the bytes in reverse order. ADDI (pointer
class from a pointer ga), ADDIW, ANDI, ORI and XORI use the sign-extended immediate, LI writes it, ADDPC and ADDPC.H
add to the instruction's own address modulo 2^58, and MOVK replaces bits [16k+15:16k] of gd. The register shifts use
the low six bits of gb (five in the W forms), the immediate shifts the amount in MOD. Every result but that of MOV
and of ADDI from a pointer is data. Cites R109, R112, R65, R113, R114, R103, R97, R115, R116. -/
def Obligations.UnaryImmediateAndShiftResults : Prop :=
  (∀ (s : State) (lc line : Nat) (rd ra : BitVec 5), s.ready lc line → ((s.core lc).getG ra).isPoison = false →
     let o : ROp := ⟨rd, ra, 0, 0⟩
     let w := (s.core lc).getG ra
     let a := w.val
     let gives := fun (i : Instr) (w : Word) => exec i s = .next (s.after lc line ((s.core lc).finish rd w))
     gives (.mov lc o) (if (s.core lc).pl = 0 ∧ w.cls = .system then Word.data a else w) ∧
     (∃ n : Nat, gives (.clz lc o) (Word.data (BitVec.ofNat 64 n)) ∧ n ≤ 64 ∧ a.toNat < 2 ^ (64 - n) ∧
       (n < 64 → 2 ^ (63 - n) ≤ a.toNat)) ∧
     (∃ n : Nat, gives (.ctz lc o) (Word.data (BitVec.ofNat 64 n)) ∧ n ≤ 64 ∧ a.toNat % 2 ^ n = 0 ∧
       (n < 64 → a.toNat % 2 ^ (n + 1) ≠ 0)) ∧
     gives (.popc lc o) (Word.data (BitVec.ofNat 64 ((List.range 64).filter (fun i => a.getLsbD i)).length)) ∧
     (∃ v : BitVec 64, gives (.rev lc o) (Word.data v) ∧ ∀ i < 8, v.extractLsb' (8 * i) 8 = a.extractLsb' (56 - 8 * i) 8)) ∧
  (∀ (s : State) (lc line : Nat) (o : IOp) (j : I17Op) (k : BitVec 2), s.ready lc line →
     let c := s.core lc
     let w := c.getG o.ra
     let a := w.val
     let i := o.imm.signExtend 64
     let n := j.imm.signExtend 64
     let d := c.getG j.rd
     let gives := fun (x : Instr) (rd : BitVec 5) (w : Word) => exec x s = .next (s.after lc line (c.finish rd w))
     (w.isPoison = false →
       gives (.addi lc o) o.rd (if w.cls = .pointer then Word.pointer (a.extractLsb' 58 6 ++ (a + i).extractLsb' 0 58) else Word.data (a + i)) ∧
       gives (.addiw lc o) o.rd (Word.data ((a.setWidth 32 + i.setWidth 32).signExtend 64)) ∧
       gives (.andi lc o) o.rd (Word.data (a &&& i)) ∧
       gives (.ori lc o) o.rd (Word.data (a ||| i)) ∧
       gives (.xori lc o) o.rd (Word.data (a ^^^ i))) ∧
     gives (.li lc j) j.rd (Word.data n) ∧
     gives (.addpc lc j) j.rd (Word.data (((BitVec.ofNat 64 c.pc + n * 4).extractLsb' 0 58).setWidth 64)) ∧
     gives (.addpcH lc j) j.rd (Word.data (((BitVec.ofNat 64 (c.pc / 4096 * 4096) + n * 4096).extractLsb' 0 58).setWidth 64)) ∧
     (d.isPoison = false → j.imm.toNat < 65536 →
       ∃ v : BitVec 64, gives (.movk lc k j) j.rd (Word.data v) ∧
         ∀ b < 64, v.getLsbD b =
           if 16 * k.toNat ≤ b ∧ b < 16 * k.toNat + 16 then j.imm.getLsbD (b - 16 * k.toNat) else d.val.getLsbD b)) ∧
  (∀ (s : State) (lc line : Nat) (rd ra rb : BitVec 5) (n : Nat), s.ready lc line → n < 64 →
     ((s.core lc).getG ra).isPoison = false →
     let c := s.core lc
     let o : ROp := ⟨rd, ra, rb, 0⟩
     let q : ROp := ⟨rd, ra, 0, BitVec.ofNat 7 n⟩
     let a := c.gv ra
     let w := a.setWidth 32
     let b := (c.gv rb).toNat
     let data := fun (i : Instr) (v : BitVec 64) => exec i s = .next (s.after lc line (c.finish rd (Word.data v)))
     ((c.getG rb).isPoison = false →
       data (.shl lc o) (a <<< (b % 64)) ∧ data (.shr lc o) (a >>> (b % 64)) ∧ data (.sra lc o) (a.sshiftRight (b % 64)) ∧
       data (.ror lc o) (a.rotateRight (b % 64)) ∧
       data (.shlw lc o) ((w <<< (b % 32)).signExtend 64) ∧ data (.shrw lc o) ((w >>> (b % 32)).signExtend 64) ∧
       data (.sraw lc o) ((w.sshiftRight (b % 32)).signExtend 64)) ∧
     data (.shli lc q) (a <<< n) ∧ data (.shri lc q) (a >>> n) ∧ data (.srai lc q) (a.sshiftRight n) ∧
     data (.rori lc q) (a.rotateRight n) ∧
     (n < 32 → data (.shliw lc q) ((w <<< n).signExtend 64) ∧ data (.shriw lc q) ((w >>> n).signExtend 64) ∧
       data (.sraiw lc q) ((w.sshiftRight n).signExtend 64)))

/-- On a ready core, when ga or gb of a two-operand class 0x1 operation, or of a register shift, or of CMP.cc is poison,
gd becomes poison with the code of ga if ga is poison and otherwise that of gb. No exception is raised, with O = 1
neither. Cites R60, R112, R116, R120. -/
def Obligations.PoisonOperandPoisonsResult : Prop :=
  ∀ (s : State) (lc line : Nat) (rd ra rb : BitVec 5) (cc : BitVec 3), s.ready lc line →
    ((s.core lc).getG ra).isPoison = true ∨ ((s.core lc).getG rb).isPoison = true →
    let wa := (s.core lc).getG ra
    let wb := (s.core lc).getG rb
    let w := Word.poison (if wa.isPoison then wa.aux else wb.aux)
    let gives := fun (i : Instr) => exec i s = .next (s.after lc line ((s.core lc).finish rd w))
    (∀ md : BitVec 7, md = 0 ∨ md = 1 →
      let o : ROp := ⟨rd, ra, rb, md⟩
      ∀ i ∈ [Instr.add lc o, .sub lc o, .addw lc o, .subw lc o, .mul lc o, .mulw lc o, .div lc o, .divu lc o, .rem lc o, .remu lc o],
        gives i) ∧
    (let o : ROp := ⟨rd, ra, rb, 0⟩
     ∀ i ∈ [Instr.and lc o, .or lc o, .xor lc o, .andn lc o, .orn lc o, .xnor lc o, .min lc o, .max lc o, .minu lc o, .maxu lc o,
        .mulh lc o, .mulhu lc o, .mulhsu lc o, .shl lc o, .shr lc o, .sra lc o, .ror lc o, .shlw lc o, .shrw lc o, .sraw lc o,
        .cmpCc lc cc o], gives i)

/-- On a ready core, with no poison operand, pos = IMM12[11:6] and len = IMM12[5:0] + 1, cut to 64 - pos: EXT zero-
extends and EXTS sign-extends the field of ga, and INS replaces the field of gd by the low bits of ga and keeps its
other bits. Cites R117. -/
def Obligations.BitFieldResults : Prop :=
  ∀ (s : State) (lc line : Nat) (o : IOp), s.ready lc line → ((s.core lc).getG o.ra).isPoison = false →
    let c := s.core lc
    let a := c.gv o.ra
    let d := c.getG o.rd
    let pos := o.imm.toNat / 64
    let len := min (o.imm.toNat % 64 + 1) (64 - pos)
    let gives := fun (i : Instr) (v : BitVec 64) => exec i s = .next (s.after lc line (c.finish o.rd (Word.data v)))
    (∃ v : BitVec 64, gives (.ext lc o) v ∧ ∀ b < 64, v.getLsbD b = (decide (b < len) && a.getLsbD (pos + b))) ∧
    (∃ v : BitVec 64, gives (.exts lc o) v ∧ ∀ b < 64, v.getLsbD b = a.getLsbD (pos + min b (len - 1))) ∧
    (d.isPoison = false →
      ∃ v : BitVec 64, gives (.ins lc o) v ∧
        ∀ b < 64, v.getLsbD b = if pos ≤ b ∧ b < pos + len then a.getLsbD (b - pos) else d.val.getLsbD b)

/-- On a ready core: with no poison operand the compares hold exactly where Table 4-12 says; CMP.cc and CMPI.cc write 1
or 0 as data, CMPP.cc and CMPPI.cc write 0xFF or 0x00 with PZ 0. With a poison operand the predicate compares write
0x00 with PZ set to its code. SEL takes gd from ga or gb by bit 0 of pn, poison when either is poison, and consumes
a poisoned pn. Cites R118, R119, R120, R121, R95. -/
def Obligations.CompareResults : Prop :=
  ∀ (s : State) (lc line : Nat) (o : IOp) (rd ra rb : BitVec 5) (pd pn : BitVec 3) (cc : BitVec 3), s.ready lc line →
    let c := s.core lc
    let holds := fun (x y : BitVec 64) => (cc = 0 ∧ x = y) ∨ (cc = 1 ∧ x ≠ y) ∨ (cc = 2 ∧ x.toInt < y.toInt) ∨ (cc = 3 ∧ y.toInt ≤ x.toInt) ∨
      (cc = 4 ∧ x.toNat < y.toNat) ∨ (cc = 5 ∧ y.toNat ≤ x.toNat) ∨ (cc = 6 ∧ x &&& y ≠ 0) ∨ (cc = 7 ∧ x &&& y = 0)
    let r : ROp := ⟨rd, ra, rb, 0⟩
    let rp : ROp := ⟨pd.setWidth 5, ra, rb, 0⟩
    let ip : IOp := ⟨pd.setWidth 5, o.ra, o.imm⟩
    let wa := c.getG ra
    let wb := c.getG rb
    let wi := c.getG o.ra
    let i := o.imm.signExtend 64
    let next := fun (x : Instr) (c' : Core) => exec x s = .next (s.after lc line c')
    (wa.isPoison = false → wb.isPoison = false →
      (holds wa.val wb.val → next (.cmpCc lc cc r) (c.finish rd (Word.data 1)) ∧ next (.cmppCc lc cc rp) (c.finishP pd 0xFF 0)) ∧
      (¬ holds wa.val wb.val → next (.cmpCc lc cc r) (c.finish rd (Word.data 0)) ∧ next (.cmppCc lc cc rp) (c.finishP pd 0 0))) ∧
    (wi.isPoison = false →
      (holds wi.val i → next (.cmpiCc lc cc o) (c.finish o.rd (Word.data 1)) ∧ next (.cmppiCc lc cc ip) (c.finishP pd 0xFF 0)) ∧
      (¬ holds wi.val i → next (.cmpiCc lc cc o) (c.finish o.rd (Word.data 0)) ∧ next (.cmppiCc lc cc ip) (c.finishP pd 0 0))) ∧
    (wa.isPoison = true ∨ wb.isPoison = true →
      next (.cmppCc lc cc rp) (c.finishP pd 0 ((if wa.isPoison then wa.aux else wb.aux).setWidth 3))) ∧
    (let sel : ROp := ⟨rd, ra, rb, pn.setWidth 7 <<< 4⟩
     (c.getPZ pn ≠ 0 → exec (.sel lc sel) s = .next (s.takeExc lc (Exc.poison (c.getPZ pn).toNat) c.pc)) ∧
     (c.getPZ pn = 0 → wa.isPoison = true ∨ wb.isPoison = true →
       next (.sel lc sel) (c.finish rd (Word.poison (if wa.isPoison then wa.aux else wb.aux)))) ∧
     (c.getPZ pn = 0 → wa.isPoison = false → wb.isPoison = false →
       let w := if (c.getP pn).getLsbD 0 then wa else wb
       next (.sel lc sel) (c.finish rd (if c.pl = 0 ∧ w.cls = .system then Word.data w.val else w))))

/-- On a ready core: PAND, POR, PXOR and PANDN write the bitwise result, or 0x00 with the PZ of pa if that is not 0 and
otherwise that of pb. MOVP writes the value of pa as data, or poison with its PZ; PMOV writes the low byte of ga, or
0x00 with the code of a poison ga. Cites R122. -/
def Obligations.PredicateResults : Prop :=
  ∀ (s : State) (lc line : Nat) (pd pa pb : BitVec 3) (g : BitVec 5), s.ready lc line →
    let c := s.core lc
    let o : ROp := ⟨pd.setWidth 5, pa.setWidth 5, pb.setWidth 5, 0⟩
    let z := if c.getPZ pa ≠ 0 then c.getPZ pa else c.getPZ pb
    let next := fun (x : Instr) (c' : Core) => exec x s = .next (s.after lc line c')
    let logic := fun (x : Instr) (v : BitVec 8) => next x (c.finishP pd (if z = 0 then v else 0) z)
    logic (.pand lc o) (c.getP pa &&& c.getP pb) ∧ logic (.por lc o) (c.getP pa ||| c.getP pb) ∧
    logic (.pxor lc o) (c.getP pa ^^^ c.getP pb) ∧ logic (.pandn lc o) (c.getP pa &&& ~~~ c.getP pb) ∧
    next (.movp lc ⟨g, pa.setWidth 5, 0, 0⟩) (c.finish g (if c.getPZ pa ≠ 0 then Word.poison ((c.getPZ pa).setWidth 6) else Word.data ((c.getP pa).setWidth 64))) ∧
    next (.pmov lc ⟨pd.setWidth 5, g, 0, 0⟩)
      (if (c.getG g).isPoison then c.finishP pd 0 ((c.getG g).aux.setWidth 3) else c.finishP pd ((c.getG g).val.setWidth 8) 0)

/-- On a ready core: BT and BF branch by bit 0 of pn to (PC + sext(OFF22) x 4) mod 2^58 and consume a poisoned pn; B and
BL always branch, BL leaving PC + 4 in g31; JRL and RET jump to value bits [57:0] of ga whatever its class, JRL
leaving PC + 4 in gd after ga is read; a poison ga is consumed and a target that is not a multiple of 4 raises
instruction-alignment on the jump. Cites R123, R124, R126, R127, R99. -/
def Obligations.BranchResults : Prop :=
  ∀ (s : State) (lc line : Nat) (pn : BitVec 3) (h : Bool) (off : BitVec 22) (rd ra : BitVec 5), s.ready lc line →
    let c := s.core lc
    let link := Word.data (BitVec.ofNat 64 ((c.pc + 4) % 2 ^ 58))
    let target := (((c.pc : Int) + off.toInt * 4) % (2 : Int) ^ 58).toNat
    let goes := fun (i : Instr) (pc : Nat) (r : BitVec 5) (w : Option Word) =>
      ∃ t, exec i s = .next t ∧ t = { s with cores := t.cores } ∧ (∀ k, k ≠ lc → t.core k = s.core k) ∧ (t.core lc).pc = pc ∧
        (∀ x, (t.core lc).getG x = match w with
          | some v => (c.setG r v).getG x
          | none => c.getG x) ∧
        (t.core lc).v = c.v ∧ (t.core lc).p = c.p ∧ (t.core lc).pz = c.pz ∧
        (∀ n, isCounter n = false → (t.core lc).sysr n = c.sysr n)
    let raises := fun (i : Instr) (e : Exc) => exec i s = .next (s.takeExc lc e c.pc)
    let a := c.getG ra
    let t := a.val.toNat % 2 ^ 58
    let jr : ROp := ⟨rd, ra, 0, 0⟩
    let rt : ROp := ⟨0, ra, 0, 0⟩
    (c.getPZ pn = 0 →
      goes (.bt lc pn h off) (if (c.getP pn).getLsbD 0 then target else (c.pc + 4) % 2 ^ 58) 0 none ∧
      goes (.bf lc pn h off) (if (c.getP pn).getLsbD 0 then (c.pc + 4) % 2 ^ 58 else target) 0 none) ∧
    (c.getPZ pn ≠ 0 →
      raises (.bt lc pn h off) (Exc.poison (c.getPZ pn).toNat) ∧ raises (.bf lc pn h off) (Exc.poison (c.getPZ pn).toNat)) ∧
    goes (.b lc off) target 0 none ∧ goes (.bl lc off) target 31 (some link) ∧
    (a.isPoison = true → raises (.jrl lc jr) (Exc.poison a.aux.toNat) ∧ raises (.ret lc rt) (Exc.poison a.aux.toNat)) ∧
    (a.isPoison = false → t % 4 ≠ 0 →
      raises (.jrl lc jr) (Exc.instrAlign (BitVec.ofNat 64 t)) ∧ raises (.ret lc rt) (Exc.instrAlign (BitVec.ofNat 64 t))) ∧
    (a.isPoison = false → t % 4 = 0 → goes (.jrl lc jr) t rd (some link) ∧ goes (.ret lc rt) t 0 none)

/-- On a ready core, a two-operand class 0x1 operation with MOD[6:1] not 0, or with O set where the table allows none, a
unary one with RB not 0, a register shift with MOD not 0, a MOVK with IMM17[16] set, and JRL or RET with RB or MOD
not 0 take illegal-instruction at their own address. Cites R102, R109, R115, R123. -/
def Obligations.ReservedFieldsTrap : Prop :=
  ∀ (s : State) (lc line : Nat) (o : ROp) (j : I17Op) (k : BitVec 2), s.ready lc line →
    let illegal := fun (i : Instr) => exec i s = .next (s.takeExc lc Exc.illegal (s.core lc).pc)
    (2 ≤ o.md.toNat →
      ∀ i ∈ [Instr.add lc o, .sub lc o, .addw lc o, .subw lc o, .mul lc o, .mulw lc o, .div lc o, .divu lc o, .rem lc o, .remu lc o],
        illegal i) ∧
    (o.md ≠ 0 →
      ∀ i ∈ [Instr.and lc o, .or lc o, .xor lc o, .andn lc o, .orn lc o, .xnor lc o, .min lc o, .max lc o, .minu lc o, .maxu lc o,
        .mulh lc o, .mulhu lc o, .mulhsu lc o, .shl lc o, .shr lc o, .sra lc o, .ror lc o, .shlw lc o, .shrw lc o, .sraw lc o,
        .jrl lc o, .ret lc o], illegal i) ∧
    (o.rb ≠ 0 ∨ o.md ≠ 0 →
      ∀ i ∈ [Instr.mov lc o, .clz lc o, .ctz lc o, .popc lc o, .rev lc o, .jrl lc o, .ret lc o], illegal i) ∧
    (65536 ≤ j.imm.toNat → illegal (.movk lc k j))

/-- The state after an instruction that only writes one general register or one predicate (as the statements of classes
0x1 to 0x4 give it) differs from the state before only in its core. There the register holds the result, g0 and p0
still read as they always do, every other general register, every vector register, every predicate and its PZ, and
every system register but the counters and s.cntctl is as before, and the PC is 4 further on modulo 2^58. Cites R91,
R92, R93, R94, R97, R107. -/
def Obligations.RegisterWriteFrame : Prop :=
  ∀ (s : State) (lc line : Nat) (rd : BitVec 5) (w : Word) (pd : BitVec 3) (x : BitVec 8) (z : BitVec 3),
    let c := s.core lc
    let kept := fun (t : State) =>
      t = { s with cores := t.cores } ∧ (∀ k, k ≠ lc → t.core k = s.core k) ∧ (t.core lc).v = c.v ∧ (t.core lc).pc = (c.pc + 4) % 2 ^ 58 ∧
        (∀ n, isCounter n = false → (t.core lc).sysr n = c.sysr n) ∧ (t.core lc).sb = c.sb ∧ (t.core lc).tlb = c.tlb ∧
        (t.core lc).itlb = c.itlb ∧ (t.core lc).dtlb = c.dtlb ∧ (t.core lc).wcache = c.wcache ∧
        (t.core lc).wait = c.wait ∧ (t.core lc).started = c.started ∧ (t.core lc).irqPending = c.irqPending
    (let t := s.after lc line (c.finish rd w)
     kept t ∧ (t.core lc).p = c.p ∧ (t.core lc).pz = c.pz ∧
       ∀ r, (t.core lc).getG r = if r = 0 then Word.zero else if r = rd then w else c.getG r) ∧
    (let t := s.after lc line (c.finishP pd x z)
     kept t ∧ (t.core lc).g = c.g ∧
       ∀ n, (t.core lc).getP n = (if n = 0 then 0xFF else if n = pd then (if z = 0 then x else 0) else c.getP n) ∧
         (t.core lc).getPZ n = (if n = 0 then 0 else if n = pd then z else c.getPZ n))

/-- Right after reset the mode is M1 (R560), the queue is empty, every control-space register reads its reset value, no
core has started, every core's registers read as R98 says, s.status is 0x7 on PM-8512-A1, and no message, flit or
packet is on its way. The model's choice (log entries 7 and 9): a byte of DRAM that nothing has written reads 0 with
tag 0x00, every other system register is 0, and the timebase is 0. The memory is in canonical form. Cites R560, R98,
04_ecyen_encoding_integer.md, 06_privilege_translation.md. -/
def Obligations.ResetState : Prop :=
  let r := State.reset
  r.mode = .m1 ∧ r.pending = [] ∧ r.time = 0 ∧ r.memWf = true ∧
    (∀ die unit d idx, r.reg die unit d idx = regResetVal die d idx) ∧
    (∀ lc g, (r.core lc).started = false ∧ (r.core lc).getG g = Word.zero) ∧
    (∀ lc v i, (r.core lc).getV v i = Word.zero) ∧
    (∀ lc (p : BitVec 3), (r.core lc).getPZ p = 0 ∧ (p ≠ 0 → (r.core lc).getP p = 0)) ∧
    (∀ lc n, (r.core lc).sysr n = if n = 0x000 then 7 else 0) ∧
    (∀ ch l w, r.dramWord ch l w = Word.zero) ∧
    (∀ lc, (r.core lc).sb = [] ∧ (r.core lc).tlb = [] ∧ (r.core lc).l1d = [] ∧ (r.core lc).pred = Predictor.cold) ∧
    (∀ lt, (r.tile lt).l2 = [] ∧ (r.arbour lt).rb = [] ∧ (r.arbour lt).log = []) ∧
    r.net = [] ∧ r.flits = [] ∧ r.ports.buf = [] ∧ r.delivered = [] ∧ r.tlbis = [] ∧ r.out = []

/-- If the stored value bytes and tag bytes of DRAM are in canonical form (addresses strictly rising, no byte listed
that an unlisted one would equal), then so are they after any step that answers a next state, whatever command is at
the front of the queue. Equal memories therefore stay equal data. Cites 11_memory_ecc.md, R79, R357. -/
def Obligations.EveryStepKeepsMemoryCanonical : Prop :=
  ∀ s t : State, s.memWf = true → step s = .next t → t.memWf = true

/-- For every state, core, exception and saved PC, with an empty fill shelf, an empty replay log and no counter context to
switch: after the entry at level t, s.epc[t] holds the saved PC, s.estatus[t] the old s.status, s.cause[t] the cause
and s.faddr[t] the address; a stage-2 fault also writes s.fipa2; PL is t, IE is 0, WORLD is Walled when t = 3 and
otherwise as before; the PC is s.vbase[t] plus the offset of Table 6-6. Every general, vector and predicate register,
the store buffer and every other system register but the counters is unchanged. Where the world does not change,
nothing outside the core changes; where the level or the world changes, the predictors are cold. Cites R186, R184,
R185, R188, R225. -/
def Obligations.ExceptionEntry : Prop :=
  ∀ (s : State) (lc : Nat) (e : Exc) (pc : Nat),
    let c := s.core lc
    let t := c.excLevel e
    c.shelf = [] → (s.arbour (lcTile lc)).log = [] → (t = 2 → c.pl ≤ 1 → c.vm = true → bitOf (c.sysr 0x05C) 0 = false) →
    let s' := s.takeExc lc e pc
    let d := s'.core lc
    let offset := (if e.code = 0x20 then 0x080 else 0) + (if c.pl < t then 0x100 else 0)
    d.sysr (0x013 + t) = BitVec.ofNat 64 pc ∧ d.sysr (0x017 + t) = c.sysr 0x000 ∧ d.sysr (0x01B + t) = e.cause ∧
      d.sysr (0x01F + t) = e.addr ∧ (∀ ipa, e.ipa = some ipa → d.sysr 0x02D = BitVec.ofNat 64 ipa) ∧
      d.pl = t ∧ d.ie = false ∧ d.walled = (decide (t = 3) || c.walled) ∧
      d.pc = (c.sysr (0x00F + t)).toNat / 2 ^ 12 % 2 ^ 46 * 2 ^ 12 + offset ∧
      d.g = c.g ∧ d.v = c.v ∧ d.p = c.p ∧ d.pz = c.pz ∧ d.sb = c.sb ∧
      (∀ n, isCounter n = false → n ∉ [0x000, 0x013 + t, 0x017 + t, 0x01B + t, 0x01F + t] → (n = 0x02D → e.ipa = none) →
        (n = 0x032 → e.code ≠ 0x12) → d.sysr n = c.sysr n) ∧
      (∀ k, k ≠ lc → s'.core k = s.core k) ∧
      ((t = 3 → c.walled = true) → s' = { s with cores := s'.cores }) ∧
      ((c.pl ≠ t ∨ (t = 3 ∧ c.walled = false)) → d.pred = Predictor.cold)

/-- On a ready core, SCALL at PL0 and PL1, HCALL at PL1 and PL2, and on PM-8512-A1 WCALL at Open PL1 and PL2, retire and
take exception 0x18, 0x19 and 0x1A at PL1, PL2 and PL3, with IMM12 in INFO and the address of the next instruction
saved. At any other level, and WCALL in the Walled world, they raise a privilege exception at their own address;
WCALL and WRET on PM-8512-X1 raise illegal-instruction. Cites R180. -/
def Obligations.CallsTakeTheirExceptions : Prop :=
  ∀ (s : State) (lc line : Nat) (imm : BitVec 12), s.ready lc line →
    let c := s.core lc
    let o : IOp := ⟨0, 0, imm⟩
    let call := fun (i : Instr) (code t : Nat) =>
      exec i s = .next ((s.after lc line c).takeExc lc (Exc.mk1 code imm.toNat 0) ((c.pc + 4) % 2 ^ 58)) ∧
        c.excLevel (Exc.mk1 code imm.toNat 0) = t
    let raises := fun (i : Instr) (e : Exc) => exec i s = .next (s.takeExc lc e c.pc)
    (c.pl ≤ 1 → call (.scall lc o) 0x18 1) ∧ (2 ≤ c.pl → raises (.scall lc o) Exc.privilege) ∧
    (c.pl = 1 ∨ c.pl = 2 → call (.hcall lc o) 0x19 2) ∧ (c.pl = 0 ∨ c.pl = 3 → raises (.hcall lc o) Exc.privilege) ∧
    (s.part = .x1 → raises (.wcall lc o) Exc.illegal ∧ raises (.wret lc ⟨0, 0, 0, 0⟩) Exc.illegal) ∧
    (s.part = .a1 → (c.pl = 1 ∨ c.pl = 2) → c.walled = false → call (.wcall lc o) 0x1A 3) ∧
    (s.part = .a1 → (c.pl = 0 ∨ c.pl = 3 ∨ c.walled = true) → raises (.wcall lc o) Exc.privilege)

/-- On a ready core: SYSRD of a register that exists at the current level writes its value to gd as data, a missing one
raises illegal-instruction and one of a higher level privilege. SYSWR with a source that is not poison replaces
exactly the writable bits of the register with value bits of ga, whatever its class; a poison source is consumed. In
s.status only IE can be written. SYSWR of s.ipi, with room in the release buffer and no IPI of the core waiting in the
Urn, leaves the Urn's status in s.ipist: on the own socket 1 for a core without an enabled interrupt queue, 2 where
the queue has no room, and 0 where the entry is pushed. Cites R178, R197, R542, R88. -/
def Obligations.SystemRegisterAccess : Prop :=
  ∀ (s : State) (lc line : Nat) (rd ra : BitVec 5) (imm : BitVec 12), s.ready lc line →
    let c := s.core lc
    let n := imm.toNat
    let a := c.getG ra
    let raises := fun (i : Instr) (e : Exc) => exec i s = .next (s.takeExc lc e c.pc)
    let rdI := Instr.sysrd lc ⟨rd, 0, imm⟩
    let wrI := Instr.syswr lc ⟨0, ra, imm⟩
    (∀ l, c.sysReadLevel s.part n = some l →
      (l ≤ c.pl → exec rdI s = .next (s.after lc line (c.finish rd (Word.data (s.sysRead lc n))))) ∧
      (c.pl < l → raises rdI Exc.privilege)) ∧
    (c.sysReadLevel s.part n = none → raises rdI Exc.illegal) ∧ (sysLevel s.part n = none → raises wrI Exc.illegal) ∧
    (n ∉ [0x001, 0x002, 0x003, 0x03C] → s.sysRead lc n = c.sysr n) ∧ s.sysRead lc 0x002 = BitVec.ofNat 64 s.time ∧
    (∀ l, sysLevel s.part n = some l → c.pl < l → raises wrI Exc.privilege) ∧
    (∀ l, sysLevel s.part n = some l → l ≤ c.pl → n ≠ 0x03C → a.isPoison = true → raises wrI (Exc.poison a.aux.toNat)) ∧
    (∀ l, sysLevel s.part n = some l → l ≤ c.pl → n ≠ 0x03C → a.isPoison = false → (c.countRetired c.pl c.walled).cntDue = [] →
      ∃ t, exec wrI s = .next t ∧ t = { s with cores := t.cores } ∧ (∀ k, k ≠ lc → t.core k = s.core k) ∧
        (t.core lc).g = c.g ∧ (t.core lc).v = c.v ∧ (t.core lc).p = c.p ∧ (t.core lc).pc = (c.pc + 4) % 2 ^ 58 ∧
        (∀ k, k ≠ n → isCounter k = false → (t.core lc).sysr k = c.sysr k) ∧
        (isCounter n = false → (t.core lc).sysr n = c.sysWritten s.part n a.val) ∧
        (0x040 ≤ n → n ≤ 0x04A → ((t.core lc).sysr n).setWidth 48 = a.val.setWidth 48)) ∧
    (c.sysWritten s.part 0x000 a.val = (c.sysr 0x000 &&& ~~~ (8 : BitVec 64)) ||| (a.val &&& 8)) ∧
    (c.sysWritten s.part 0x02C a.val = (c.sysr 0x02C &&& ~~~ (0xFFFF : BitVec 64)) ||| (a.val &&& 0xFFFF)) ∧
    (1 ≤ c.pl → ¬ (c.pl = 1 ∧ bitOf (c.sysr 0x008) 2 = true) → a.isPoison = false → s.rbOpen (lcTile lc) → s.ipiWaits lc = false →
      s.urnAns.any (fun x => x.who == .ipi lc) = false →
      let i := Instr.ipiSend lc 0 ra
      let u := (s.rbPass (lcTile lc) { kind := .ipi, addr := 0x03C, size := 8, data := [a], committed := false, msg := none }).2
      let dst := field a.val 0 10
      let q := iqNum dst
      let answers := fun (st : Nat) (r : State) =>
        exec i s = .next ((r.setCore lc ((r.core lc).setSys 0x03D (BitVec.ofNat 64 st)).advance).ran lc line c false)
      (field a.val 10 3 = s.socketId →
        (s.coreExists dst = false ∨ s.qEn q = false → answers 1 u) ∧
        (s.coreExists dst = true → s.qEn q = true → u.iqRoom q 3 = false → answers 2 u) ∧
        (s.coreExists dst = true → s.qEn q = true → u.iqRoom q 3 = true → (u.urnHalf (qHalf q)).caddyRoom false 2 = true →
          answers 0 ((u.iqAccept q (BitVec.ofNat 64 (3 + (s.socketId * 2 ^ 10 + lc) % 2 ^ 16 * 2 ^ 16 + field a.val 32 32 * 2 ^ 32))).serveWaits q))) ∧
      (field a.val 10 3 ≠ s.socketId → s.fbReach (field a.val 10 3) = false → answers 1 u) ∧
      (field a.val 10 3 ≠ s.socketId → s.fbReach (field a.val 10 3) = true →
        ∃ st r, st < 3 ∧ answers st r ∧ r.out = u.out ++ [.footbridge (field a.val 10 3) 1 [dst, s.socketId * 2 ^ 10 + lc, field a.val 32 32]]))

/-- On a ready core whose counters raise no entry by this instruction and with no counter context to load: ERET at PLn
with a saved level t at most n and the saved world equal to the current one sets PL to t, IE to the saved IE and the
PC to s.epc[n], and changes neither the world nor any other register; otherwise, and at PL0, it raises privilege.
WRET at PL3 on PM-8512-A1 with a saved level of 1 or 2 does the same into the Open world, starts a full flush of the
L2, and empties the L1 caches and the predictors; with a saved level of 0 or 3, and below PL3, it raises privilege;
on PM-8512-X1 it is illegal. Cites R181, R182. -/
def Obligations.EretAndWretRestore : Prop :=
  ∀ (s : State) (lc line : Nat), s.ready lc line →
    let c := s.core lc
    let n := c.pl
    let o : ROp := ⟨0, 0, 0, 0⟩
    let raises := fun (i : Instr) (e : Exc) => exec i s = .next (s.takeExc lc e c.pc)
    let restored := fun (d : Core) (m t : Nat) (w : Bool) =>
      d.pl = t ∧ d.ie = bitOf (c.sysr (0x017 + m)) 3 ∧ d.walled = w ∧ d.pc = (c.sysr (0x013 + m)).toNat / 4 % 2 ^ 56 * 4 ∧ d.g = c.g ∧ d.v = c.v ∧
        d.p = c.p ∧ d.pz = c.pz ∧ (∀ k, k ≠ 0x000 → isCounter k = false → d.sysr k = c.sysr k)
    let quiet := (c.countRetired c.pl c.walled).cntDue = []
    (let est := c.sysr (0x017 + n)
     let t := est.toNat % 4
     (n = 0 ∨ n < t ∨ bitOf est 2 ≠ c.walled → raises (.eret lc o) Exc.privilege) ∧
     (n ≠ 0 → t ≤ n → bitOf est 2 = c.walled → quiet → (n = 2 → t ≤ 1 → c.vm = true → bitOf (c.sysr 0x05C) 0 = false) →
       ∃ u, exec (.eret lc o) s = .next u ∧ u = { s with cores := u.cores } ∧ (∀ k, k ≠ lc → u.core k = s.core k) ∧
         restored (u.core lc) n t c.walled ∧ (t ≠ n → (u.core lc).pred = Predictor.cold))) ∧
    (let t := (c.sysr 0x01A).toNat % 4
     (s.part = .x1 → raises (.wret lc o) Exc.illegal) ∧
     (s.part = .a1 → n ≠ 3 ∨ t = 0 ∨ t = 3 → raises (.wret lc o) Exc.privilege) ∧
     (s.part = .a1 → n = 3 → t = 1 ∨ t = 2 → c.walled = true → (c.countRetired 3 true).cntDue = [] →
       ∃ u, exec (.wret lc o) s = .next u ∧ u = { s with cores := u.cores, tiles := u.tiles, regs := u.regs } ∧
         (∀ k, k ≠ lc → u.core k = s.core k) ∧ restored (u.core lc) 3 t false ∧
         (u.core lc).l1d = [] ∧ (u.core lc).l1i = [] ∧ (u.core lc).pred = Predictor.cold ∧ (u.tile (lcTile lc)).flushing = true))

/-- On a ready core: at a level that allows it, with no trap of s.hctl.TTLB, no poison operand, and no store in the buffer
but weak ones, each TLBI with B = 0 completes, and exactly the translations that Table 6-12 gives its operation are
gone from the core; with B = 1 it also sends one message to every other started core of the package and one to every
joined socket. Below its level it raises privilege, and with a MOD above 1 it is illegal. TLBSYNC, with an empty store
buffer, completes when no TLBI of this core is on its way to a core or to a joined socket, and otherwise waits. A
message that arrives removes what its operation covers at its target and is gone. MKPTR writes the value of ga with
pointer class, or poison; at PL0 only for a colour that s.ptrcap allows, else it raises privilege. Cites R208, R209,
R210, R212, R179. -/
def Obligations.TlbInstructions : Prop :=
  let covers := fun (o : TlbiOp) (e : TlbEnt) =>
    let low := e.regime == 0
    let same := fun (bits : Nat) (x : Nat) => x == o.va / 2 ^ bits
    (o.level == 3 || e.walled == o.walled) &&
    (match o.vm with
     | some v => !low || e.vmid == some v
     | none => true) &&
    (match o.kind with
     | .va => (low || (e.regime == 2 && decide (2 ≤ o.level)) || (e.regime == 3 && o.level == 3)) && same e.bits e.vaPage &&
         (e.asid == none || e.asid == some o.id)
     | .asid => low && e.asid == some o.id
     | .all => low || o.level != 1
     | .vmid => low && e.vmid == some o.id
     | .ipa => low && e.attr2.isSome && e.vmid == some o.id && same (levelBits e.level2) (e.ipa / 2 ^ levelBits e.level2))
  (∀ (s : State) (lc line : Nat) (ra rb rd : BitVec 5), s.ready lc line →
    let c := s.core lc
    let a := c.getG ra
    let b := c.getG rb
    let raises := fun (i : Instr) (e : Exc) => exec i s = .next (s.takeExc lc e c.pc)
    let id := fun (w : Word) => w.val.toNat % 2 ^ 16
    let op := fun (k : TlbiKind) (va n : Nat) =>
      ({ kind := k, level := c.pl, walled := c.walled, vm := if c.pl = 1 ∧ c.vm = true then some c.vmid else none, va := va, id := n } : TlbiOp)
    let others := (s.cores.map (fun x => x.1)).filter (fun n => n != lc && s.coreExists n && (s.core n).started)
    let sockets := (List.range 8).filter (fun n => n != s.socketId && s.fbReach n)
    let does := fun (i : BitVec 7 → Instr) (minPl : Nat) (ops : List Word) (o : TlbiOp) =>
      (∀ m : BitVec 7, 2 ≤ m.toNat → raises (i m) Exc.illegal) ∧
      (∀ m : BitVec 7, m.toNat < 2 → c.pl < minPl → raises (i m) Exc.privilege) ∧
      (minPl ≤ c.pl → ¬ (c.pl = 1 ∧ bitOf (c.sysr 0x008) 3 = true) → noPoison ops → (∀ e ∈ c.sb, e.weak = true) →
        let left := fun (w : List WalkEnt) => { c.advance with
          itlb := c.itlb.filter (fun e => !covers o e), dtlb := c.dtlb.filter (fun e => !covers o e), tlb := c.tlb.filter (fun e => !covers o e),
          wcache := w }
        (∃ t w, exec (i 0) s = .next t ∧ s.coreStep t lc (left w) ∧ w.Sublist c.wcache) ∧
        (s.rbOpen (lcTile lc) →
          ∃ t w, exec (i 1) s = .next t ∧ w.Sublist c.wcache ∧
            ({ s with tlbis := t.tlbis, tlbiOuts := t.tlbiOuts, out := t.out, arbours := t.arbours, regs := t.regs } : State).coreStep t lc (left w) ∧
            t.tlbis = s.tlbis ++ others.map (fun n => { src := lc, sock := none, dst := n, op := o }) ∧
            t.tlbiOuts.map (fun x => (x.src, x.sock)) = s.tlbiOuts.map (fun x => (x.src, x.sock)) ++ sockets.map (fun n => (lc, n))))
    does (fun m => .tlbiVa lc ⟨0, ra, rb, m⟩) 1 [a, b] (op .va (a.val.toNat % 2 ^ 58) (id b)) ∧
    does (fun m => .tlbiAsid lc ⟨0, ra, 0, m⟩) 1 [a] (op .asid 0 (id a)) ∧
    does (fun m => .tlbiAll lc ⟨0, 0, 0, m⟩) 1 [] (op .all 0 0) ∧
    does (fun m => .tlbiVmid lc ⟨0, ra, 0, m⟩) 2 [a] (op .vmid 0 (id a)) ∧
    does (fun m => .tlbiIpa lc ⟨0, ra, rb, m⟩) 2 [a, b] (op .ipa (a.val.toNat / 2 ^ 14 % 2 ^ 38 * 2 ^ 14) (id b)) ∧
    (let i := Instr.tlbsync lc ⟨0, 0, 0, 0⟩
     let waits := (∃ m ∈ s.tlbis, m.sock = none ∧ m.src = lc) ∨ (∃ x ∈ s.tlbiOuts, x.src = lc ∧ s.fbReach x.sock = true)
     (c.pl = 0 → raises i Exc.privilege) ∧
     (1 ≤ c.pl → ¬ (c.pl = 1 ∧ bitOf (c.sysr 0x008) 3 = true) →
       (waits → exec i s = .next s) ∧ (¬ waits → c.sb = [] → exec i s = .next (s.after lc line c.advance)))) ∧
    (let i := Instr.mkptr lc ⟨rd, ra, 0, 0⟩
     let may := c.pl ≠ 0 ∨ bitOf (c.sysr 0x009) (a.val.toNat / 2 ^ 58 % 64) = true
     (¬ may → raises i Exc.privilege) ∧
     (may → exec i s = .next (s.after lc line (c.finish rd (if a.isPoison then Word.poison a.aux else Word.pointer a.val)))))) ∧
  (∀ (s : State) (src dst : Nat) (m : TlbiMsg), (s.core dst).sb = [] → s.coreBegun dst = false →
    s.tlbis.find? (fun m => m.src == src && m.sock == none && m.dst == dst) = some m →
    let c := s.core dst
    ∃ t w, exec (.tlbiRemote (.core src) dst) s = .next t ∧ t.tlbis = s.tlbis.erase m ∧ w.Sublist c.wcache ∧
      ({ s with tlbis := t.tlbis } : State).coreStep t dst { c with
        itlb := c.itlb.filter (fun e => !covers m.op e), dtlb := c.dtlb.filter (fun e => !covers m.op e), tlb := c.tlb.filter (fun e => !covers m.op e),
        wcache := w }) ∧
  (∀ (s : State) (dst n k : Nat),
    exec (.tlbiRemote (.done n k) dst) s = .next { s with tlbiOuts := s.tlbiOuts.erase ⟨dst, n, k⟩ })

/-- On a ready core, a load whose fields and address operands are legal, whose bytes lie in one held line of normal
memory, with no check of colours, and whose bytes overlap no older store or lie in the one older store there is, whose
tag bytes are those of memory, completes: it writes gd with the bytes seen, sign- or zero-extended as Table 5-2 says, or poison with the code of
the first poison word it touches; LD.D of one whole word keeps pointer class and makes system class data; LDT, whose
address must be a multiple of 8, keeps also system class at PL1 and above. Nothing but gd, the PC, the counters and
the caches of the core changes. A poison address operand is consumed, a reserved field of an indexed form is
illegal, and an LDT at another address raises an alignment fault. Cites R135, R132, R129, R102, R228, R61. -/
def Obligations.LoadResults : Prop :=
  ∀ (s : State) (lc line : Nat) (m : MemForm) (pa : Nat) (ws : List Word), s.ready lc line →
    let c := s.core lc
    let va := memVa m c
    let off := pa % 128
    let view := s.coreView lc (pa / 128) ws
    let legal := memIllegal m = false ∧ noPoison (memAddrOps m c)
    let clear := fun (size : Nat) => (∀ e ∈ c.sb, e.overlaps pa size = false) ∨
      (∃ e, c.sb = [e] ∧ e.kind ≠ .colour ∧ e.kind ≠ .colourPoison ∧ e.upper = none ∧ e.pa ≤ pa ∧ pa + size ≤ e.pa + e.size ∧ e.pa / 128 = pa / 128 ∧
        e.pa % 128 + e.size ≤ 128 ∧ e.tags = (touchedWords ws (e.pa % 128) e.size).map Word.tag ∧ tfind c.l1bad (pa / 128) = none ∧
        s.isCxl (pa / 128) = false)
    let raises := fun (i : Instr) (e : Exc) => exec i s = .next (s.takeExc lc e c.pc)
    let loads := fun (i : Instr) (size : Nat) (w : Word) =>
      legal → s.plain lc false va size pa ws → clear size →
        ∃ t, exec i s = .next t ∧ s.coreStep t lc (c.finish (memRd m) w)
    let n := fun (size : Nat) => lineNat view off size
    loads (.ldB lc m) 1 (loadedWith view off 1 (Word.data ((BitVec.ofNat 8 (n 1)).signExtend 64))) ∧
    loads (.ldBu lc m) 1 (loadedWith view off 1 (Word.data (BitVec.ofNat 64 (n 1)))) ∧
    loads (.ldH lc m) 2 (loadedWith view off 2 (Word.data ((BitVec.ofNat 16 (n 2)).signExtend 64))) ∧
    loads (.ldHu lc m) 2 (loadedWith view off 2 (Word.data (BitVec.ofNat 64 (n 2)))) ∧
    loads (.ldW lc m) 4 (loadedWith view off 4 (Word.data ((BitVec.ofNat 32 (n 4)).signExtend 64))) ∧
    loads (.ldWu lc m) 4 (loadedWith view off 4 (Word.data (BitVec.ofNat 64 (n 4)))) ∧
    loads (.ldD lc m) 8 (loadedD view off) ∧
    (va.toNat % 8 = 0 → off % 8 = 0 →
      let w := view.getD (off / 8) Word.zero
      loads (.ldt lc m) 8 (if w.cls = .system ∧ c.pl ≠ 0 then w else loadedD view off)) ∧
    (legal → va.toNat % 8 ≠ 0 → raises (.ldt lc m) (Exc.align false va)) ∧
    (∀ i ∈ [Instr.ldB lc m, .ldBu lc m, .ldH lc m, .ldHu lc m, .ldW lc m, .ldWu lc m, .ldD lc m, .ldt lc m],
      (memIllegal m = true → raises i Exc.illegal) ∧
      (memIllegal m = false → ∀ code, firstPoison (memAddrOps m c) = some code → raises i (Exc.poison code.toNat)))

/-- On a ready core, a store whose fields and address operands are legal, whose bytes lie in one held line of normal
memory, with no check of colours and with room in the store buffer, completes: its only effect is one entry at the
end of the core's store buffer, with the address, size and bytes of the store and the tag bytes of the words it touches; it is a whole-word store where an
aligned doubleword is stored, otherwise a sub-word store, of poison where gs is poison. ST.D, ST.NT, and STT at PL0
store a system class as data; ST.NT is weak. STT at an address that is not a multiple of 8 raises an alignment
fault. No byte of memory and nothing outside the core changes until the entry is written. Cites R136, R68, R137,
R129, R102, R227. -/
def Obligations.StoreResults : Prop :=
  ∀ (s : State) (lc line : Nat) (m : MemForm) (pa : Nat) (ws : List Word), s.ready lc line →
    let c := s.core lc
    let va := memVa m c
    let legal := memIllegal m = false ∧ noPoison (memAddrOps m c)
    let gs := c.getG (memRd m)
    let plainWord := if gs.cls = .system then Word.data gs.val else gs
    let stores := fun (i : Instr) (size : Nat) (w : Word) (weak : Bool) =>
      legal → s.plain lc true va size pa ws → c.sb.length ≤ 127 →
        let whole := size = 8 ∧ pa % 8 = 0
        let e : SbEntry :=
          { pa := pa, size := size, upper := none, split := false,
            kind := if whole then .whole else if w.isPoison then .subPoison else .sub,
            word := if whole ∨ w.isPoison = true then w else Word.data (BitVec.ofNat 64 (w.val.toNat % 2 ^ (8 * size))),
            tags := (touchedWords (s.coreView lc (pa / 128) ws) (pa % 128) size).map Word.tag,
            weak := weak, walled := c.walled, pl3 := decide (c.pl = 3) }
        ∃ t, exec i s = .next t ∧ s.coreStep t lc { c.advance with sb := c.sb ++ [e] }
    let raises := fun (i : Instr) (e : Exc) => exec i s = .next (s.takeExc lc e c.pc)
    stores (.stB lc m) 1 plainWord false ∧ stores (.stH lc m) 2 plainWord false ∧ stores (.stW lc m) 4 plainWord false ∧
    stores (.stD lc m) 8 plainWord false ∧ stores (.stNt lc m) 8 plainWord true ∧
    (va.toNat % 8 = 0 → stores (.stt lc m) 8 (if c.pl = 0 then plainWord else gs) false) ∧
    (legal → va.toNat % 8 ≠ 0 → raises (.stt lc m) (Exc.align true va)) ∧
    (∀ i ∈ [Instr.stB lc m, .stH lc m, .stW lc m, .stD lc m, .stNt lc m, .stt lc m],
      (memIllegal m = true → raises i Exc.illegal) ∧
      (memIllegal m = false → ∀ code, firstPoison (memAddrOps m c) = some code → raises i (Exc.poison code.toNat)))

/-- For every store-buffer entry that lies in one line: a word outside the stored bytes keeps value and tag; a whole
data or pointer store writes value and class and keeps the colour of a data or pointer word, taking colour 0 over
system or poison; a whole system or poison store replaces the word; a sub-word store changes only the bytes stored,
leaves a poison word poison with its code and otherwise makes the word data of the same colour; a sub-word store of
poison makes the touched words poison with its code, but leaves a poison word its own; STCOL changes only the colour
of data and pointer words. Cites R66, R67, R69, R62, R140. -/
def Obligations.WordStoreRules : Prop :=
  ∀ (e : SbEntry) (ws : List Word), ws.length = 16 → 0 < e.size → e.pa % 128 + e.size ≤ 128 →
    let off := e.pa % 128
    let new := sbApply e ws
    (new.length = 16) ∧
    (∀ i < 16, (8 * i + 8 ≤ off ∨ off + e.size ≤ 8 * i) → new.getD i Word.zero = ws.getD i Word.zero) ∧
    (∀ i < 16, off < 8 * i + 8 → 8 * i < off + e.size →
      let w := ws.getD i Word.zero
      let x := new.getD i Word.zero
      let keeps := x.cls = .poison ∧ x.aux = w.aux
      (e.kind = .whole → off % 8 = 0 → e.size = 8 →
        (e.word.cls = .data ∨ e.word.cls = .pointer → x.val = e.word.val ∧ x.cls = e.word.cls ∧ x.colour = w.colour) ∧
        (e.word.cls = .system ∨ e.word.cls = .poison → x = e.word)) ∧
      (e.kind = .sub → e.size ≤ 8 →
        (∀ b < 8, lineByte new (8 * i + b) =
          if off ≤ 8 * i + b ∧ 8 * i + b < off + e.size then e.word.val.toNat / 2 ^ (8 * (8 * i + b - off)) % 256 else lineByte ws (8 * i + b)) ∧
        (w.isPoison = true → keeps) ∧ (w.isPoison = false → x.cls = .data ∧ x.colour = w.colour)) ∧
      (e.kind = .subPoison → x = if w.isPoison then w else Word.poison e.word.aux) ∧
      (e.kind = .colour →
        (w.cls = .data ∨ w.cls = .pointer → x.val = w.val ∧ x.cls = w.cls ∧ x.colour = e.word.val.setWidth 6) ∧
        (w.cls = .system ∨ w.cls = .poison → x = w)) ∧
      (e.kind = .colourPoison → x = if w.cls = .data ∨ w.cls = .pointer then Word.poison e.word.aux else w))

/-- When the tile of a core holds the line of the store-buffer entry at place 0 in M, with no error standing, no injection
waiting, room in the release buffer, and the entry allowed there, STORE_BUFFER_WRITE completes: it writes exactly that
entry, or the part of it below a line boundary, to the words of the L2 line, and frees it, or leaves its upper part. On
a line of CXL memory the words are written as that memory holds them. No other line, no byte of DRAM and no other core
changes; without comparison and CXL no register either. An ordered entry behind an older ordered one stays.
Cites R227, R278, R66, R148, R233. -/
def Obligations.StoreBufferWrites : Prop :=
  (∀ (s : State) (lc key : Nat) (e : SbEntry) (rest : List SbEntry) (l : CacheLine),
    lc < 512 → (s.core lc).sb = e :: rest →
    let lt := lcTile lc
    let line := e.pa / 128
    let ws := sbApply e l.data
    tfind (s.tile lt).l2 key = some l → s.l2Find lt line e.walled e.pl3 = some (key, l) → l.st = .m → l.bad = [] →
    (∀ k l', s.l2Any lt line = some (k, l') → l'.bad = []) → s.offShelf lt line → s.rbOpen lt →
    s.storeWalled lt e = false → s.fld (ltDie lt) (ltIdx lt) ERB_INJ_STATUS [] ERB_INJ_STATUS_REMAIN = 0 →
    ∃ t, exec (.storeBufferWrite lc 0) s = .next t ∧
      t = { s with cores := t.cores, tiles := t.tiles, arbours := t.arbours, regs := t.regs } ∧
      (s.safeMode lt = false → s.isCxl line = false → t.arbours = s.arbours ∧ t.regs = s.regs) ∧
      (t.core lc).sb = e.upperPart.toList ++ rest ∧ (t.core lc).g = (s.core lc).g ∧ (∀ k, k ≠ lc → t.core k = s.core k) ∧
      (t.tile lt).l2 = tput (s.tile lt).l2 key { l with data := if s.isCxl line then cxlLine ws else ws } ∧
      (∀ k, k ≠ lt → t.tile k = s.tile k)) ∧
  (∀ (s : State) (lc n i : Nat) (a b : SbEntry), lc < 512 → i < n → (s.core lc).sb[i]? = some a → (s.core lc).sb[n]? = some b →
    a.weak = false → b.weak = false → exec (.storeBufferWrite lc n) s = .next s)

/-- On a ready core with an empty store buffer, an atomic with legal fields, no poison address (nor comparison value),
an aligned address and a line of normal memory of the package that the tile holds in M completes at once: gd receives
the old word as LD.D returns it (W = 0) or the sign-extended old half (W = 1), and the line receives the new word: the
sum, gb, the signed or unsigned maximum or minimum, or the bitwise result, where a poison old word or gb makes poison
(for AMO.SWP and AMO.CAS only gb). AMO.CAS writes only where the old value equals gd's, and consumes an old word that
is poison. No other word of memory changes; in safe mode the access passes the release buffer and the replay log, which
are as before where they were empty. Cites R144, R145, R146, R243. -/
def Obligations.AtomicResults : Prop :=
  ∀ (s : State) (lc line : Nat) (o : ROp) (pa key : Nat) (l : CacheLine) (ws : List Word), s.ready lc line →
    let c := s.core lc
    let a := c.getG o.ra
    let b := c.getG o.rb
    let d := c.getG o.rd
    let va := formAddr a.val 0
    let w32 := o.md.getLsbD 0
    let u := o.md.getLsbD 1
    let keepSys := o.md.getLsbD 2
    let size := if w32 then 4 else 8
    let lt := lcTile lc
    c.sb = [] → a.isPoison = false → va.toNat % size = 0 → pa % size = 0 → s.plain lc true va size pa ws →
    tfind (s.tile lt).l2 key = some l → s.l2Find lt (pa / 128) c.walled (decide (c.pl = 3)) = some (key, l) → l.st = .m → l.bad = [] →
    (∀ k l', s.l2Any lt (pa / 128) = some (k, l') → l'.bad = []) → s.offShelf lt (pa / 128) → s.isCxl (pa / 128) = false →
    (s.arbour lt).log = [] → s.rbOpen lt → s.amoRefused lc pa = false →
    let old := (s.coreView lc (pa / 128) l.data).getD (pa % 128 / 8) Word.zero
    let x := old.val.toNat / 2 ^ (8 * (pa % 8)) % 2 ^ (8 * size)
    let y := b.val.toNat % 2 ^ (8 * size)
    let signed := fun (n : Nat) => if n < 2 ^ (8 * size - 1) then (n : Int) else (n : Int) - 2 ^ (8 * size)
    let less := if u then x < y else signed x < signed y
    let result := if w32 then (if old.isPoison then Word.poison old.aux else Word.data ((BitVec.ofNat 32 x).signExtend 64))
      else if old.isPoison then Word.poison old.aux else if old.cls = .pointer then Word.pointer old.val else Word.data old.val
    let same := fun (i : Instr) => ∃ t, exec i s = .next t ∧ s.coreStepRb t lc (c.finish o.rd result)
    let writes := fun (i : Instr) (w : Word) =>
      let e : SbEntry :=
        { pa := pa, size := size, upper := none, split := false, kind := if !w32 then .whole else if w.isPoison then .subPoison else .sub,
          word := w, tags := [], weak := false, walled := c.walled, pl3 := decide (c.pl = 3) }
      ∃ t, exec i s = .next t ∧
        (s.setTile lt { s.tile lt with l2 := tput (s.tile lt).l2 key { l with data := sbApply e l.data } }).coreStepRb t lc (c.finish o.rd result)
    let num := fun (n : Nat) => Word.data (BitVec.ofNat 64 n)
    let both := fun (w : Word) => if old.isPoison then Word.poison old.aux else if b.isPoison then Word.poison b.aux else w
    let swapped := if w32 then (if b.isPoison then Word.poison b.aux else num y) else if b.cls = .system then Word.data b.val else b
    let system := !w32 && keepSys && (old.cls == .system)
    let logic := fun (i : Instr) (n : Nat) => writes i (both (if system then ⟨BitVec.ofNat 64 n, old.tag⟩ else num n))
    let fields := fun (minMax lg : Bool) => o.md.toNat < 8 ∧ (u = true → minMax = true) ∧ (keepSys = true → lg = true ∧ w32 = false ∧ c.pl ≠ 0)
    (fields false false →
      writes (.amoAdd lc o) (both (if w32 then num ((x + y) % 2 ^ 32) else addWords (toReg old) b)) ∧
      writes (.amoSwp lc o) swapped ∧
      (d.isPoison = false → old.isPoison = false →
        (x = d.val.toNat % 2 ^ (8 * size) → writes (.amoCas lc o) swapped) ∧ (x ≠ d.val.toNat % 2 ^ (8 * size) → same (.amoCas lc o))) ∧
      (d.isPoison = false → old.isPoison = true →
        ∃ u, s.rbSame u lt ∧
          exec (.amoCas lc o) s = .next (u.takeExc lc { Exc.poison old.aux.toNat with write := true, addr := va } c.pc))) ∧
    (fields true false →
      writes (.amoMax lc o) (both (num (if less then y else x))) ∧ writes (.amoMin lc o) (both (num (if less then x else y)))) ∧
    (fields false true →
      logic (.amoAnd lc o) (x &&& y) ∧ logic (.amoOr lc o) (x ||| y) ∧ logic (.amoXor lc o) (x ^^^ y))

/-- On a ready core: CLASS writes the tag byte of ga as data, POISON a poison word of code 0x07, MKDATA the value of ga
as data, MKSYS the value of ga with system class and the payload at the levels that may use it; CLASS, MKDATA and
MKSYS of poison give poison. MKSYS raises privilege at PL0 and below PL3 for payloads from 0x02, and is illegal with
payload 0. LDCOL of a word the tile holds writes its colour; STCOL puts one colour entry for the word, or the 16
words of the line with L = 1, into the store buffer; on CXL memory it completes without effect but the count.
Cites R139, R140, R141, R142, R143. -/
def Obligations.TagInstructions : Prop :=
  ∀ (s : State) (lc line : Nat) (rd ra rb : BitVec 5) (imm : BitVec 12) (pa : Nat) (ws : List Word) (half : Bool), s.ready lc line →
    let c := s.core lc
    let a := c.getG ra
    let b := c.getG rb
    let un : ROp := ⟨rd, ra, 0, 0⟩
    let next := fun (i : Instr) (c' : Core) => exec i s = .next (s.after lc line c')
    let raises := fun (i : Instr) (e : Exc) => exec i s = .next (s.takeExc lc e c.pc)
    let orPoison := fun (w : Word) => if a.isPoison then Word.poison a.aux else w
    next (.class lc un) (c.finish rd (orPoison (Word.data (a.tag.setWidth 64)))) ∧
    next (.poison lc ⟨rd, 0, 0, 0⟩) (c.finish rd (Word.poison 7)) ∧
    next (.mkdata lc un) (c.finish rd (orPoison (Word.data a.val))) ∧
    (let p := imm.toNat
     let i := Instr.mksys lc ⟨rd, ra, imm⟩
     (p = 0 ∨ 64 ≤ p → raises i Exc.illegal) ∧
     (0 < p → p < 64 → c.pl = 0 ∨ (2 ≤ p ∧ c.pl < 3) → raises i Exc.privilege) ∧
     (0 < p → p < 64 → ¬ (c.pl = 0 ∨ (2 ≤ p ∧ c.pl < 3)) → next i (c.finish rd (orPoison (Word.system a.val (BitVec.ofNat 6 p)))))) ∧
    (a.isPoison = false →
      let va := formAddr a.val (imm.signExtend 64)
      s.plain lc false va 1 pa ws →
        ∃ t, exec (.ldcol lc ⟨rd, ra, imm⟩) s = .next t ∧
          s.coreStep t lc (c.finish rd (Word.data (((s.coreView lc (pa / 128) ws).getD (pa % 128 / 8) Word.zero).colour.setWidth 64)))) ∧
    (a.isPoison = true → raises (.ldcol lc ⟨rd, ra, imm⟩) (Exc.poison a.aux.toNat) ∧ raises (.stcol lc ⟨0, ra, rb, 0⟩) (Exc.poison a.aux.toNat)) ∧
    (a.isPoison = false → (c.pl = 0 → a.cls = .pointer) → s.plain lc true (formAddr a.val 0) 1 pa ws → c.sb.length ≤ 127 →
      let i := Instr.stcol lc ⟨0, ra, rb, if half then 0 else 1⟩
      let n := if half then 8 else 128
      let e : SbEntry :=
        { pa := pa / n * n, size := n, upper := none, split := false, kind := if b.isPoison then .colourPoison else .colour,
          word := if b.isPoison then b else Word.data (BitVec.ofNat 64 (b.val.toNat % 64)), tags := [], weak := false, walled := c.walled,
          pl3 := decide (c.pl = 3) }
      (s.isCxl (pa / 128) = false → ∃ t, exec i s = .next t ∧ s.coreStep t lc { c.advance with sb := c.sb ++ [e] }) ∧
      (s.isCxl (pa / 128) = true → ∃ t, exec i s = .next t ∧ ({ s with regs := t.regs } : State).coreStep t lc c.advance)) ∧
    (a.isPoison = false → c.pl = 0 → a.cls ≠ .pointer → s.plain lc true (formAddr a.val 0) 1 pa ws →
      raises (.stcol lc ⟨0, ra, rb, 0⟩) (Exc.tagFault true 2 (formAddr a.val 0)))

/-- Where checking is enabled at the level of the core: without a pointer-class base and with PREQ set the access faults
with reason 2; otherwise the first word, in ascending order, whose colour differs from the address's and where
neither is 0 faults with reason 1 if its page has TD = 0; a store of poison to a word of non-zero colour faults with
reason 3 where the level asks for it; a mismatch only in pages with TD = 1 is deferred. With checking disabled, no
access faults. Cites R71, R72, R73, R74, R75. -/
def Obligations.ColourChecks : Prop :=
  ∀ (c : Core) (write poison : Bool) (base : Word) (va : BitVec 64) (ts : List Touch),
    let miss := fun (t : Touch) => va.extractLsb' 58 6 ≠ t.word.colour ∧ va.extractLsb' 58 6 ≠ 0 ∧ t.word.colour ≠ 0
    let guarded := fun (t : Touch) => poison = true ∧ bitOf (c.sysr 0x030) 8 = true ∧ t.word.colour ≠ 0
    let faults := fun (t : Touch) => (miss t ∧ t.td = false) ∨ guarded t
    let res := tagCheck c write base va poison ts
    (bitOf (c.sysr 0x030) c.pl = false → res = .ok none) ∧
    (bitOf (c.sysr 0x030) c.pl = true →
      (bitOf (c.sysr 0x030) (4 + c.pl) = true → base.cls ≠ .pointer → res = .error (Exc.tagFault write 2 va)) ∧
      ((bitOf (c.sysr 0x030) (4 + c.pl) = false ∨ base.cls = .pointer) →
        (∀ pre t post, ts = pre ++ t :: post → (∀ x ∈ pre, ¬ faults x) → faults t →
          (miss t → res = .error (Exc.tagFault write 1 t.va)) ∧ (¬ miss t → res = .error (Exc.tagFault write 3 t.va))) ∧
        ((∀ t ∈ ts, ¬ faults t) →
          (∀ pre t post, ts = pre ++ t :: post → (∀ x ∈ pre, ¬ miss x) → miss t → res = .ok (some t)) ∧
          ((∀ t ∈ ts, ¬ miss t) → res = .ok none))))

/-- On a ready core whose store buffer is empty, the five fences complete with no effect but the PC; so do PREF.L and
PREF.S whatever their address, and the CMOs of a device address. A CMO on a line of normal memory of this socket with
no message in flight and no work in progress on the line completes: where no cache holds the line, with no effect but
the PC; where caches do, each die's copies and then its slice have been acted on. CMO.INV at PL0 is CMO.CLI. CMO.SET
raises privilege at PL0; elsewhere it takes the L1 entry that its operand names away, unless it only cleans, and does
nothing where its operand names no entry of a cache. Cites R152, R153, R155, R156, R157, R302, R305. -/
def Obligations.MaintenanceAndFences : Prop :=
  ∀ (s : State) (lc line : Nat) (o : IOp) (md : BitVec 7), s.ready lc line → o.rd = 0 → (s.core lc).sb = [] →
    (s.arbour (lcTile lc)).log = [] → s.rbOpen (lcTile lc) →
    let c := s.core lc
    let a := c.getG o.ra
    let z : ROp := ⟨0, 0, 0, 0⟩
    let next := fun (i : Instr) (c' : Core) => exec i s = .next (s.after lc line c')
    let alone := fun (i : Instr) (c' : Core) => ∃ t, exec i s = .next t ∧ s.coreStepRb t lc c'
    let who : CmoWho := { walled := c.walled, pl3 := decide (c.pl = 3) }
    (∀ i ∈ [Instr.fenceL lc z, .fenceS lc z, .fenceA lc z, .fenceI lc z, .fenceD lc z], next i c.advance) ∧
    (a.isPoison = false → next (.prefL lc o) c.advance ∧ next (.prefS lc o) c.advance) ∧
    (a.isPoison = false → ∀ pa device td level,
      let l := pa / 128
      let va := formAddr a.val (o.imm.signExtend 64)
      let xlat := fun (w : Bool) => s.translate lc { fetch := false, write := w } va = (.ok ⟨pa, device, td, level⟩, s)
      let idle := s.net = [] ∧ s.nacked = [] ∧ s.cmoBusy l = false ∧ s.cmoElsewhere l = false
      let nowhere := ∀ lt, lt < 256 → s.l2Any lt l = none ∧ s.llcFind lt l false true = none ∧ ∀ x ∈ (s.slice lt).vb, x.line ≠ l
      let acts := fun (i : Instr) (op : CmoOp) =>
        (device = true → next i c.advance) ∧
        (device = false → idle → nowhere → alone i c.advance) ∧
        (device = false → idle → s.safeMode (lcTile lc) = false →
          let u := (List.range 8).foldl (fun (s : State) d => s.cmoDie op who d l) s
          exec i s = .next ((u.setCore lc (u.core lc).advance).ran lc line c false))
      (xlat false → acts (.cmoCln lc o) .cln ∧ acts (.cmoCli lc o) .cli) ∧
      (xlat false → c.pl = 0 → acts (.cmoInv lc o) .cli) ∧
      (xlat true → c.pl ≠ 0 → acts (.cmoInv lc o) .inv)) ∧
    (md.toNat < 3 → a.isPoison = false →
      let i := Instr.cmoSet lc ⟨0, o.ra, 0, md⟩
      let v := a.val.toNat
      let set := v / 4096 % 2048
      let way := v / 256 % 16
      (c.pl = 0 → exec i s = .next (s.takeExc lc Exc.privilege c.pc)) ∧
      (c.pl ≠ 0 → v % 8 = 1 → md ≠ 0 → set < 64 → way < 8 →
        ∃ t, exec i s = .next t ∧ s.coreStepRb t lc c.advance ∧
          (set ≠ line % 64 → tfind (t.core lc).l1i (8 * set + way) = none)) ∧
      (c.pl ≠ 0 → v % 8 = 2 → md ≠ 0 → (set < 42 ∧ way < 12) ∨ (set = 42 ∧ way < 8) →
        ∃ t, exec i s = .next t ∧ s.coreStepRb t lc c.advance ∧ (t.core lc).l1d = terase c.l1d (12 * set + way)) ∧
      (c.pl ≠ 0 → (v % 8 = 1 ∨ v % 8 = 2) → md = 0 → alone i c.advance) ∧
      (c.pl ≠ 0 → v % 8 = 3 → (s.tile (lcTile lc)).flushing = false →
        field (s.reg (ltDie (lcTile lc)) (ltIdx (lcTile lc)) L2_WAY_DIS []) 32 16 = 0 → tfind (s.tile (lcTile lc)).l2 (16 * set + way) = none →
        alone i c.advance) ∧
      (c.pl ≠ 0 → v % 8 = 0 ∨ 6 ≤ v % 8 ∨ (c.pl = 1 ∧ 4 ≤ v % 8) → alone i c.advance))

/-- On a ready core with an empty store buffer and replay log, room in the release buffer, no check of colours, a handle
that is not poison and legal fields, a queue instruction that the Urn answers at once completes, and gs holds its status
as data: 7 where the queue is not enabled, 6 where Table 13-3 refuses the core, 8 where G asks for another entry size,
else 0 for a push with room, 2 or 3 for one to a full queue, 1 for a pop or peek of an empty one, and 0 for a pop or
peek of the head that the caddy holds, which also writes the entry, first word in gd or all lanes of vd. With an answer
waiting and the core open, QUEUE_ANSWER ends the wait with that status. A QWAIT whose deadline has passed ends with
TIMEOUT, and a wait that an interrupt ends with INTERRUPTED, after which the interrupt is taken, where the Urn had not
performed the operation. Cites R158, R159, R160, R161, R162, R408, R404, R407. -/
def Obligations.QueueInstructions : Prop :=
  (∀ (s : State) (lc line : Nat) (o : ROp), s.ready lc line → (s.core lc).sb = [] → (s.core lc).tagEn = false →
    (s.arbour (lcTile lc)).log = [] → s.rbOpen (lcTile lc) →
    let c := s.core lc
    let h := c.getG o.ra
    let q := h.val.toNat % 2 ^ 16
    let g := o.md.getLsbD 1
    let wait := o.md.getLsbD 0
    let split := s.safeMode (lcTile lc) = false
    let req : QReq := { who := .core lc, walled := c.walled, pl := c.pl, vmid := if c.pl ≤ 1 ∧ c.vm = true then some c.vmid else none }
    let words := (if g then [c.getG o.rd] else (List.range (s.qWords q)).map (fun i => c.getV o.rd i)).map
      (fun w => if c.pl = 0 ∧ w.isSystem = true then Word.data w.val else w)
    let result := fun (w : Word) => match w.cls with
      | .data => Word.data w.val
      | .pointer => Word.pointer w.val
      | .system => if c.pl = 0 then Word.data w.val else w
      | .poison => Word.poison w.aux
    let retires := fun (t : State) (st : Nat) =>
      (t.core lc).pc = (c.pc + 4) % 2 ^ 58 ∧ (o.rb ≠ 0 → (t.core lc).getG o.rb = Word.data (BitVec.ofNat 64 st)) ∧
        (∀ k, k ≠ lc → t.core k = s.core k) ∧ t.mem = s.mem ∧ (t.core lc).p = c.p ∧ (t.core lc).sb = []
    let ends := fun (i : Instr) (st : Nat) =>
      ∃ t, exec i s = .next t ∧ retires t st ∧ (t.core lc).v = c.v ∧ ∀ r, r ≠ o.rb → (t.core lc).getG r = c.getG r
    let gives := fun (i : Instr) (ws : List Word) =>
      ∃ t, exec i s = .next t ∧ retires t 0 ∧
        (g = true → (t.core lc).v = c.v ∧ (o.rd ≠ 0 → o.rd ≠ o.rb → (t.core lc).getG o.rd = result (ws.headD Word.zero)) ∧
          ∀ r, r ≠ o.rb → r ≠ o.rd → (t.core lc).getG r = c.getG r) ∧
        (g = false → (∀ k < ws.length, (t.core lc).getV o.rd k = result (ws.getD k Word.zero)) ∧ ∀ r, r ≠ o.rb → (t.core lc).getG r = c.getG r)
    let checked := fun (i : Instr) (push : Bool) =>
      (s.qEn q = false → ends i 7) ∧ (s.qEn q = true → s.qAllowed q req push = false → ends i 6) ∧
      (s.qEn q = true → s.qAllowed q req push = true → g = true → s.qWords q ≠ 1 → ends i 8)
    let legal := fun (push : Bool) => s.qEn q = true ∧ s.qAllowed q req push = true ∧ (g = true → s.qWords q = 1)
    let class' := s.qf q URN_QCFG URN_QCFG_CLASS
    let policy := s.qf q URN_QCFG URN_QCFG_POLICY
    h.isPoison = false →
    (o.md.toNat < 4 →
      checked (.qpush lc o) true ∧ checked (.qpop lc o) false ∧
      (legal true → s.qContract q = none → s.qFull q = false → (s.urnHalf (qHalf q)).caddyRoom false (words.take (s.qWords q)).length = true →
        ends (.qpush lc o) 0 ∧
        (split → ∃ t, exec (.qpush lc o) s = .next t ∧
          ({ (s.urnCount q 1).accept q (words.take (s.qWords q)) false with cores := t.cores } : State) = t)) ∧
      (legal true → s.qContract q = none → s.qFull q = true → class' = 0 → wait = false → ends (.qpush lc o) 2) ∧
      (legal true → s.qContract q = none → s.qFull q = true → class' ≠ 0 → policy = 0 → ends (.qpush lc o) 3) ∧
      (legal false → s.qCount q = 0 → wait = false → ends (.qpop lc o) 1) ∧
      (∀ ws, legal false → s.qCount q ≠ 0 → ws.length = s.qWords q → (s.urnHalf (qHalf q)).caddyFind q (s.qHead q) = some ws → gives (.qpop lc o) ws)) ∧
    (o.md.toNat < 4 → wait = false →
      checked (.qpeek lc o) false ∧ (legal false → s.qCount q = 0 → ends (.qpeek lc o) 1) ∧
      (∀ ws, legal false → s.qCount q ≠ 0 → ws.length = s.qWords q → (s.urnHalf (qHalf q)).caddyFind q (s.qHead q) = some ws → gives (.qpeek lc o) ws)) ∧
    (o.md = 0 → (c.getG o.rd).isPoison = false →
      (s.qEn q = false → ends (.qwait lc o) 7) ∧ (s.qEn q = true → s.qAllowed q req false = false → ends (.qwait lc o) 6) ∧
      (s.qEn q = true → s.qAllowed q req false = true → s.qCount q ≠ 0 → ends (.qwait lc o) 0))) ∧
  (∀ (s : State) (k : Nat) (w : CoreWait), k < 512 → (s.core k).wait = some w → s.coreOpen k = true → s.tileOpen (lcTile k) = true →
    let c := s.core k
    let done := fun (st : Nat) (t : State) =>
      (t.core k).wait = none ∧ (t.core k).pc = (c.pc + 4) % 2 ^ 58 ∧ (w.rs ≠ 0 → (t.core k).getG w.rs = Word.data (BitVec.ofNat 64 st)) ∧
        (∀ n, n ≠ k → t.core n = s.core n) ∧ t.mem = s.mem ∧
        (st ≠ 0 ∨ w.kind ≠ .pop → (t.core k).v = c.v ∧ ∀ r, r ≠ w.rs → (t.core k).getG r = c.getG r)
    let held := (s.urnHalf 0).waiting.any (fun x => x.who == .core k) = true ∨ (s.urnHalf 1).waiting.any (fun x => x.who == .core k) = true
    (∀ a, s.urnAns.find? (fun a => a.who == .core k) = some a →
      ∃ t, exec (.queueAnswer k) s = .next t ∧ done a.status t ∧
        (a.status = 0 → w.kind = .pop → w.g = true → w.rd ≠ 0 → w.rd ≠ w.rs → (t.core k).getG w.rd = ldtWord c.pl (a.words.getD 0 Word.zero))) ∧
    (∀ d, w.deadline = some d → d ≤ s.time → held → ∃ t, exec (.qwaitTimeout k) s = .next t ∧ done 4 t) ∧
    (∀ info, c.irq = some info → held →
      ∃ u, done 5 u ∧ exec (.queueCancel k) s = .next (u.takeExc k (Exc.interrupt info) (u.core k).pc)))

/-- On a ready core whose governing predicate has PZ = 0: every element operation writes each active lane with the
results on its elements as data, or poison with the first operand's code; inactive lanes keep their contents, or
become 0 with Z. VADD on 64-bit elements makes a pointer of a pointer and a data lane. VCMPP.cc writes the predicate
of the active lanes; VSPLAT, VGET, VPUT, VPERM and VSEL move whole words, where PL0 makes a system class data;
VREDADD writes the sum of the active lanes to lane 0 and zero to the others. MOD[0] = 1 is illegal in every one of
them. Cites R163, R164, R167, R96. -/
def Obligations.VectorIntegerResults : Prop :=
  ∀ (s : State) (lc line : Nat) (o : ROp) (cc : BitVec 3), s.ready lc line →
    let c := s.core lc
    let pn : BitVec 3 := o.md.extractLsb' 4 3
    let es := o.md.toNat / 4 % 4
    let z := o.md.getLsbD 1
    let size := 64 / 2 ^ es
    let p := c.getP pn
    let a := fun (i : Nat) => c.getV o.ra i
    let b := fun (i : Nat) => c.getV o.rb i
    let next := fun (i : Instr) (c' : Core) => exec i s = .next (s.after lc line c')
    let moved := fun (w : Word) => if c.pl = 0 ∧ w.cls = .system then Word.data w.val else w
    let orPoison := fun (ws : List Word) (w : Word) => match firstPoison ws with
      | some code => Word.poison code
      | none => w
    let vec := fun (i : Instr) (f : Nat → Word) =>
      next i (c.setVAll o.rd ((List.range 8).map (fun k => if p.getLsbD k then f k else if z then Word.zero else c.getV o.rd k))).advance
    let vec2 := fun (i : Instr) (f : Word → Word → Word) => vec i (fun k => orPoison [a k, b k] (f (a k) (b k)))
    let el := fun (w : Word) (j : Nat) => w.val.toNat / 2 ^ (size * j) % 2 ^ size
    let sg := fun (x : Nat) => if x < 2 ^ (size - 1) then (x : Int) else (x : Int) - (2 : Int) ^ size
    let elems := fun (f : Nat → Nat → Nat) (x y : Word) =>
      Word.data (BitVec.ofNat 64 ((List.range (64 / size)).foldl (fun (n : Nat) j => n + f (el x j) (el y j) % 2 ^ size * 2 ^ (size * j)) 0))
    let act := (List.range 8).filter (fun k => p.getLsbD k)
    let lane := o.rb.toNat
    let bits := fun (f : Nat → Bool) => BitVec.ofNat 8 (act.foldl (fun (n : Nat) k => n + (f k).toNat * 2 ^ k) 0)
    (o.md.getLsbD 0 = false → c.getPZ pn = 0 →
      (es = 0 → vec2 (.vadd lc o) addWords) ∧
      (es ≠ 0 → vec2 (.vadd lc o) (elems (fun a b => a + b))) ∧
      vec2 (.vsub lc o) (elems (fun a b => a + 2 ^ size - b)) ∧
      vec2 (.vmul lc o) (elems (fun a b => a * b)) ∧
      vec2 (.vmulhu lc o) (elems (fun a b => a * b / 2 ^ size)) ∧
      vec2 (.vmin lc o) (elems (fun a b => if sg a ≤ sg b then a else b)) ∧
      vec2 (.vmax lc o) (elems (fun a b => if sg a ≤ sg b then b else a)) ∧
      vec2 (.vminu lc o) (elems (fun a b => min a b)) ∧
      vec2 (.vmaxu lc o) (elems (fun a b => max a b)) ∧
      vec2 (.vshl lc o) (elems (fun a b => a * 2 ^ (b % size))) ∧
      vec2 (.vshr lc o) (elems (fun a b => a / 2 ^ (b % size))) ∧
      vec2 (.vmulh lc o) (elems (fun a b => (sg a * sg b / (2 : Int) ^ size % (2 : Int) ^ size).toNat)) ∧
      vec2 (.vsra lc o) (elems (fun a b => (sg a / (2 : Int) ^ (b % size) % (2 : Int) ^ size).toNat)) ∧
      vec2 (.vand lc o) (fun a b => Word.data (a.val &&& b.val)) ∧ vec2 (.vor lc o) (fun a b => Word.data (a.val ||| b.val)) ∧
      vec2 (.vxor lc o) (fun a b => Word.data (a.val ^^^ b.val)) ∧ vec2 (.vandn lc o) (fun a b => Word.data (a.val &&& ~~~ b.val)) ∧
      (es = 0 →
        (o.rb = 0 → vec (.vsplat lc o) (fun _ => moved (c.getG o.ra))) ∧
        vec (.vperm lc o) (fun k => orPoison [b k] (moved (a ((b k).val.toNat % 8)))) ∧
        (z = false → o.rb = 0 →
          next (.vredadd lc o) (c.setVAll o.rd [orPoison (act.map a) (Word.data (act.foldl (fun n k => n + (a k).val) 0))]).advance) ∧
        (z = false → next (.vsel lc o)
          (c.setVAll o.rd ((List.range 8).map (fun k => orPoison [a k, b k] (moved (if p.getLsbD k then a k else b k))))).advance) ∧
        (z = false → o.rd.toNat < 8 →
          next (.vcmppCc lc cc o) (match firstPoison (act.flatMap (fun k => [a k, b k])) with
            | some code => c.finishP (o.rd.setWidth 3) 0 (code.setWidth 3)
            | none => c.finishP (o.rd.setWidth 3) (bits (fun k => condHolds cc (a k).val (b k).val)) 0)))) ∧
    (o.md = 0 → lane < 8 →
      next (.vget lc o) (c.finish o.rd (moved (a lane))) ∧ next (.vput lc o) (c.setV o.rd lane (moved (c.getG o.ra))).advance) ∧
    (o.md.getLsbD 0 = true →
      ∀ i ∈ [Instr.vadd lc o, .vsub lc o, .vmul lc o, .vmulh lc o, .vmulhu lc o, .vand lc o, .vor lc o, .vxor lc o, .vandn lc o, .vmin lc o,
        .vmax lc o, .vminu lc o, .vmaxu lc o, .vshl lc o, .vshr lc o, .vsra lc o, .vcmppCc lc cc o, .vsplat lc o, .vget lc o, .vput lc o,
        .vperm lc o, .vredadd lc o, .vsel lc o], exec i s = .next (s.takeExc lc Exc.illegal c.pc))

/-- On a ready core, where the governing predicate of a class 0xC or 0xD instruction with legal fields has PZ not 0,
every lane of vd becomes poison with that code, no flag is raised, and no exception is taken; VCMPP.cc and VFCMPP
give pd that PZ. In class 0xE, with no poison address operand, the predicate is consumed. Cites R166. -/
def Obligations.PoisonedPredicatePoisonsVector : Prop :=
  ∀ (s : State) (lc line : Nat) (o : ROp) (cc : BitVec 3) (rel : BitVec 2), s.ready lc line →
    let c := s.core lc
    let pn : BitVec 3 := o.md.extractLsb' 4 3
    let code := c.getPZ pn
    let es := o.md.toNat / 4 % 4
    let next := fun (i : Instr) (c' : Core) => exec i s = .next (s.after lc line c')
    let poisons := fun (i : Instr) => next i (c.setVAll o.rd (List.replicate 8 (Word.poison (code.setWidth 6)))).advance
    let consumes := fun (i : Instr) => exec i s = .next (s.takeExc lc (Exc.poison code.toNat) c.pc)
    code ≠ 0 →
      (o.md.getLsbD 0 = false →
        (∀ i ∈ [Instr.vadd lc o, .vsub lc o, .vmul lc o, .vmulh lc o, .vmulhu lc o, .vand lc o, .vor lc o, .vxor lc o, .vandn lc o, .vmin lc o,
          .vmax lc o, .vminu lc o, .vmaxu lc o, .vshl lc o, .vshr lc o, .vsra lc o, .vfadd lc o, .vfsub lc o, .vfmul lc o, .vfdiv lc o,
          .vfmin lc o, .vfmax lc o, .vfma lc o, .vfms lc o, .vfnma lc o], poisons i) ∧
        (o.rb.toNat ≤ 5 → poisons (.vfcvt lc o)) ∧ (o.rb.toNat ≤ 1 → poisons (.vfcvti lc o) ∧ poisons (.vfcvtz lc o)) ∧
        (o.rb = 0 → poisons (.vfsqrt lc o) ∧ poisons (.vfabs lc o) ∧ poisons (.vfneg lc o)) ∧
        (es = 0 → poisons (.vperm lc o) ∧ (o.rb = 0 → poisons (.vsplat lc o)) ∧
          (o.md.getLsbD 1 = false → poisons (.vsel lc o) ∧ (o.rb = 0 → poisons (.vredadd lc o)) ∧
            (o.rd.toNat < 8 → next (.vcmppCc lc cc o) (c.finishP (o.rd.setWidth 3) 0 code) ∧
              next (.vfcmpp lc rel o) (c.finishP (o.rd.setWidth 3) 0 code))))) ∧
      ((c.getG o.ra).isPoison = false →
        (o.rb = 0 → es = 0 → consumes (.vldp lc o) ∧ (o.md.getLsbD 0 = false → consumes (.vstp lc o))) ∧
        ((c.getG o.rb).isPoison = false → consumes (.vlds lc o) ∧ (o.md.getLsbD 0 = false → consumes (.vsts lc o))) ∧
        ((∀ i < 8, (c.getV o.rb i).isPoison = false) → consumes (.vldx lc o) ∧ (o.md.getLsbD 0 = false → consumes (.vstx lc o))))

/-- On a ready core whose governing predicate has PZ = 0, with legal fields: each class 0xD instruction computes every
element of every active lane (element 0 of lane 0 alone in the scalar form) with the operation of its format in the
rounding mode and with the flushing of s.fpcsr; a poison operand lane gives a poison lane. The flags are the union
over the active lanes without poison. Where none of them is enabled in TRAPEN they are ORed into FLAGS and the
result is written; otherwise a floating-point exception with these flags is raised and nothing else changes. Cites
R165, R168, R169, R164. -/
def Obligations.FloatingPointResults : Prop :=
  ∀ (s : State) (lc line : Nat) (o : ROp) (rel : BitVec 2), s.ready lc line →
    let c := s.core lc
    let pn : BitVec 3 := o.md.extractLsb' 4 3
    let sc := o.md.getLsbD 0
    let z := o.md.getLsbD 1
    let code := o.md.toNat / 4 % 4
    let fm := fpFmt code
    let r := c.sysr 0x032
    let env : FpEnv := ⟨r.toNat / 2 ^ 10 % 4, r.getLsbD 12⟩
    let p := c.getP pn
    let act := if sc then [0] else (List.range 8).filter (fun k => p.getLsbD k)
    let count := if sc then 1 else 64 / fm.size
    let a := fun (i : Nat) => c.getV o.ra i
    let b := fun (i : Nat) => c.getV o.rb i
    let d := fun (i : Nat) => c.getV o.rd i
    let el := fun (f : FpFmt) (w : Word) (j : Nat) => w.val.toNat / 2 ^ (f.size * j) % 2 ^ f.size
    let lanes := fun (f : Nat → Nat → Nat × FpFlags) (k : Nat) =>
      ((BitVec.ofNat 64 ((List.range count).foldl (fun (n : Nat) j => n + (f k j).1 % 2 ^ fm.size * 2 ^ (fm.size * j)) 0) : BitVec 64),
       (List.range count).foldl (fun (fl : Nat) j => fl ||| (f k j).2) 0)
    let orPoison := fun (ws : List Word) (w : Word) => match firstPoison ws with
      | some code => Word.poison code
      | none => w
    let flagsOf := fun (ops : Nat → List Word) (fl : Nat → Nat) =>
      (act.filter (fun k => (firstPoison (ops k)).isNone)).foldl (fun (n : Nat) k => n ||| fl k) 0
    let flagged := fun (fl : Nat) => c.setSys 0x032 (setField r 0 5 (r.toNat % 32 ||| fl))
    let runs := fun (i : Instr) (fl : Nat) (done : Core) =>
      (fl &&& r.toNat / 32 % 32 = 0 → exec i s = .next (s.after lc line done)) ∧
      (fl &&& r.toNat / 32 % 32 ≠ 0 → exec i s = .next (s.takeExc lc (Exc.fp fl) c.pc))
    let vec := fun (i : Instr) (evs : List Nat) (ops : Nat → List Word) (lane : Nat → BitVec 64 × Nat) =>
      let fl := flagsOf ops (fun k => (lane k).2)
      let res := fun (k : Nat) => orPoison (ops k) (Word.data (lane k).1)
      let e := flagged fl
      let w := (if sc then e.setVAll o.rd [res 0]
        else e.setVAll o.rd ((List.range 8).map (fun k => if p.getLsbD k then res k else if z then Word.zero else d k))).advance
      runs i fl { w with evs := w.evs ++ evs }
    let two := fun (i : Instr) (f : FpFmt → FpEnv → Nat → Nat → Nat × FpFlags) =>
      vec i [] (fun k => [a k, b k]) (lanes (fun k j => f fm env (el fm (a k) j) (el fm (b k) j)))
    let one := fun (i : Instr) (f : FpFmt → FpEnv → Nat → Nat × FpFlags) =>
      vec i [] (fun k => [a k]) (lanes (fun k j => f fm env (el fm (a k) j)))
    let three := fun (i : Instr) (np na : Bool) =>
      vec i [0x011] (fun k => [a k, b k, d k]) (lanes (fun k j => fpFma fm env np na (el fm (a k) j) (el fm (b k) j) (el fm (d k) j)))
    let toInt := fun (i : Instr) (rm : Nat) =>
      vec i [] (fun k => [a k]) (fun k => let x := fpToInt fm env rm (o.rb == 1) (el fm (a k) 0); (BitVec.ofInt 64 x.1, x.2))
    c.getPZ pn = 0 → (sc = true → pn = 0 ∧ z = false) →
      two (.vfadd lc o) fpAdd ∧ two (.vfsub lc o) fpSub ∧ two (.vfmul lc o) fpMul ∧ two (.vfdiv lc o) fpDiv ∧
      two (.vfmin lc o) (fpMinMax false) ∧ two (.vfmax lc o) (fpMinMax true) ∧
      three (.vfma lc o) false false ∧ three (.vfms lc o) false true ∧ three (.vfnma lc o) true false ∧
      (o.rb = 0 → one (.vfsqrt lc o) fpSqrt ∧ one (.vfabs lc o) (fpSignOp false) ∧ one (.vfneg lc o) (fpSignOp true)) ∧
      (o.rb.toNat ≤ 3 → vec (.vfcvt lc o) [] (fun k => [a k]) (fun k =>
        let x := fpToFp (fpFmt o.rb.toNat) fm env (el (fpFmt o.rb.toNat) (a k) 0); (BitVec.ofNat 64 x.1, x.2))) ∧
      (o.rb = 4 ∨ o.rb = 5 → vec (.vfcvt lc o) [] (fun k => [a k]) (fun k =>
        let x := fpOfInt fm env (if o.rb = 4 then (a k).val.toInt else ((a k).val.toNat : Int)); (BitVec.ofNat 64 x.1, x.2))) ∧
      (o.rb.toNat ≤ 1 → toInt (.vfcvti lc o) env.rm ∧ toInt (.vfcvtz lc o) 1) ∧
      (code = 0 → z = false → sc = false → o.rd.toNat < 8 →
        let x := fun (k : Nat) => fpRel rel.toNat (fpFmt 0) env (a k).val.toNat (b k).val.toNat
        let ops := fun (k : Nat) => [a k, b k]
        let fl := flagsOf ops (fun k => (x k).2)
        runs (.vfcmpp lc rel o) fl (match firstPoison (act.flatMap ops) with
          | some code => (flagged fl).finishP (o.rd.setWidth 3) 0 (code.setWidth 3)
          | none => (flagged fl).finishP (o.rd.setWidth 3) (BitVec.ofNat 8 (act.foldl (fun (n : Nat) k => n + (x k).1.toNat * 2 ^ k) 0)) 0))

/-- For each of the four formats, in every rounding mode and with FZ on or off: a NaN operand of a sum, difference,
product, quotient, root or fused operation gives the canonical quiet NaN, and raises invalid where it is signalling;
a finite number by zero gives infinity with divide-by-zero, and 0 by 0, infinity by infinity and the root of a
negative number give NaN with invalid; 0 times infinity raises invalid in a fused operation whatever the addend; a
NaN converts to the integer 0 with invalid; and without flushing every value of the format is returned as it is,
with no flag. Cites R168, 05_ecyen_memory_vector.md. -/
def Obligations.FloatingPointSpecialValues : Prop :=
  ∀ (k : Nat) (env : FpEnv) (x y d : Nat), k < 4 →
    let f := fpFmt k
    let frac := fun (x : Nat) => x % 2 ^ f.mb
    let expo := fun (x : Nat) => x / 2 ^ f.mb % 2 ^ f.eb
    let sign := fun (x : Nat) => x / 2 ^ (f.eb + f.mb) % 2
    let nan := fun (x : Nat) => expo x = 2 ^ f.eb - 1 ∧ frac x ≠ 0
    let snan := fun (x : Nat) => nan x ∧ frac x < 2 ^ (f.mb - 1)
    let inf := fun (x : Nat) => expo x = 2 ^ f.eb - 1 ∧ frac x = 0
    let zero := fun (x : Nat) => expo x = 0 ∧ frac x = 0
    let normal := fun (x : Nat) => expo x ≠ 0 ∧ expo x ≠ 2 ^ f.eb - 1
    let qnan := (2 ^ f.eb - 1) * 2 ^ f.mb + 2 ^ (f.mb - 1)
    let invalid := fun (r : Nat × FpFlags) => r.1 = qnan ∧ r.2 % 2 = 1
    ([fpFmt 0, fpFmt 1, fpFmt 2, fpFmt 3].map (fun f => (f.size, fpNaN f)) =
      [(64, 0x7FF8000000000000), (32, 0x7FC00000), (16, 0x7E00), (16, 0x7FC0)]) ∧
    (∀ r ∈ [fpAdd f env x y, fpSub f env x y, fpMul f env x y, fpDiv f env x y, fpFma f env false false x y d, fpFma f env true false x y d],
      (nan x ∨ nan y → r.1 = qnan) ∧ (snan x ∨ snan y → invalid r)) ∧
    (nan x → (fpSqrt f env x).1 = qnan) ∧ (snan x → invalid (fpSqrt f env x)) ∧
    (normal x → zero y → fpDiv f env x y = ((if sign x = sign y then 0 else 2 ^ (f.eb + f.mb)) + (2 ^ f.eb - 1) * 2 ^ f.mb, 2)) ∧
    (zero x → zero y → invalid (fpDiv f env x y)) ∧ (inf x → inf y → invalid (fpDiv f env x y)) ∧
    (normal x ∨ inf x → sign x = 1 → invalid (fpSqrt f env x)) ∧
    (zero x → inf y → invalid (fpMul f env x y) ∧ invalid (fpFma f env false false x y d)) ∧
    (inf x → inf y → (sign x ≠ sign y → invalid (fpAdd f env x y)) ∧ (sign x = sign y → invalid (fpSub f env x y))) ∧
    (∀ rm u, nan x → (fpToInt f env rm u x).1 = 0 ∧ (fpToInt f env rm u x).2 % 2 = 1) ∧
    (env.fz = false → ¬ nan x → x < 2 ^ f.size → fpPack f env (fpUnpack f false x) = (x, 0))

/-- On a ready core with an empty store buffer, legal fields, no poison address operand and a predicate with PZ = 0,
whose active lanes each lie in one held line of normal memory with no check of colours, the vector loads write each
active lane with the doubleword (with its class) or the zero-extended element, and keep or clear the others; the
vector stores put one store-buffer entry for each active lane, in ascending order, and change nothing else. VLD and
VST have eight active lanes and are ordered; U makes the stores of the R forms weak. Cites R163, R164, R171, R172. -/
def Obligations.VectorMemoryResults : Prop :=
  ∀ (s : State) (lc line : Nat) (o : ROp) (io : IOp) (pa : Nat → Nat) (ws : Nat → List Word), s.ready lc line → (s.core lc).sb = [] →
    let c := s.core lc
    let pn : BitVec 3 := o.md.extractLsb' 4 3
    let es := o.md.toNat / 4 % 4
    let z := o.md.getLsbD 0
    let weak := o.md.getLsbD 1
    let p := c.getP pn
    let some8 := (List.range 8).filter (fun k => p.getLsbD k)
    let view := fun (k : Nat) => s.coreView lc (pa k / 128) (ws k)
    let held := fun (write : Bool) (act : List Nat) (size : Nat) (va : Nat → BitVec 64) => ∀ k ∈ act, s.plain lc write (va k) size (pa k) (ws k)
    let loads := fun (i : Instr) (rd : BitVec 5) (act : List Nat) (size : Nat) (clear : Bool) (va : Nat → BitVec 64) =>
      held false act size va →
        let lane := fun (k : Nat) =>
          if size = 8 then loadedD (view k) (pa k % 128)
          else loadedWith (view k) (pa k % 128) size (Word.data (BitVec.ofNat 64 (lineNat (view k) (pa k % 128) size)))
        let done := (List.range 8).foldl (fun (x : Core) k =>
          if k ∈ act then x.setV rd k (lane k) else if clear then x.setV rd k Word.zero else x) c
        ∃ t, exec i s = .next t ∧ s.coreStep t lc done.advance
    let stores := fun (i : Instr) (rd : BitVec 5) (act : List Nat) (size : Nat) (weak : Bool) (va : Nat → BitVec 64) =>
      held true act size va →
        let entry := fun (k : Nat) =>
          let v := c.getV rd k
          let w := if v.cls = .system then Word.data v.val else v
          let whole := size = 8 ∧ pa k % 8 = 0
          ({ pa := pa k, size := size, upper := none, split := false, kind := if whole then .whole else if w.isPoison then .subPoison else .sub,
             word := if whole ∨ w.isPoison = true then w else Word.data (BitVec.ofNat 64 (w.val.toNat % 2 ^ (8 * size))),
             tags := (touchedWords (view k) (pa k % 128) size).map Word.tag,
             weak := weak, walled := c.walled, pl3 := decide (c.pl = 3) } : SbEntry)
        ∃ t, exec i s = .next t ∧ s.coreStep t lc { c.advance with sb := act.map entry }
    let base := c.getG o.ra
    let imm := fun (k : Nat) => formAddr (c.getG io.ra).val (io.imm.signExtend 64 + BitVec.ofNat 64 (8 * k))
    ((c.getG io.ra).isPoison = false →
      loads (.vld lc io) io.rd (List.range 8) 8 false imm ∧ stores (.vst lc io) io.rd (List.range 8) 8 false imm) ∧
    (base.isPoison = false → c.getPZ pn = 0 →
      (o.rb = 0 → es = 0 →
        let va := fun (k : Nat) => formAddr base.val (BitVec.ofNat 64 (8 * k))
        loads (.vldp lc o) o.rd some8 8 z va ∧ (z = false → stores (.vstp lc o) o.rd some8 8 weak va)) ∧
      ((c.getG o.rb).isPoison = false →
        let va := fun (k : Nat) => formAddr base.val (BitVec.ofNat 64 k * (c.getG o.rb).val)
        loads (.vlds lc o) o.rd some8 (8 / 2 ^ es) z va ∧ (z = false → stores (.vsts lc o) o.rd some8 (8 / 2 ^ es) weak va)) ∧
      ((∀ k ∈ some8, (c.getV o.rb k).isPoison = false) →
        let va := fun (k : Nat) => formAddr base.val (c.getV o.rb k).val
        loads (.vldx lc o) o.rd some8 (8 / 2 ^ es) z va ∧ (z = false → stores (.vstx lc o) o.rd some8 (8 / 2 ^ es) weak va)))

/-- For a logical core of the part: a memory-order squash of a running core with an empty fill shelf only counts, and one of a core that
does not run is without effect; an interrupt command takes the interrupt that the core may take now, where no access of the interrupted
instruction has begun, and is without effect otherwise; an enabled timer of a core in a tile in T0 whose compare value has come clears its
EN bit, timer 2 with IMO = 0 sets P2, and any other pushes its entry into the core's own interrupt queue when that is enabled and has room;
the oldest state message of a core whose tile is in T0 is removed, and sets the pending state when its number is later. Cites R191, R194,
R195, R231, R239, R413, R414. -/
def Obligations.CoreEvents : Prop :=
  ∀ (s : State) (lc k : Nat), lc < 512 →
    let c := s.core lc
    (s.coreRuns lc = true → c.shelf = [] → ∃ t, exec (.memOrderSquash lc) s = .next t ∧ s.coreStep t lc c) ∧
    (s.coreRuns lc = false → exec (.memOrderSquash lc) s = .next s) ∧
    (∀ n ∈ [0, 2],
      let i := if n = 0 then Instr.interruptTaken lc else .directTimer2Interrupt lc
      let may := s.coreRuns lc = true ∧ s.coreBegun lc = false ∧ c.irq = some n
      (may → exec i s = .next (s.takeExc lc (Exc.interrupt n) c.pc)) ∧ (¬ may → exec i s = .next s)) ∧
    (let ctl := c.sysr 0x03A
     let fires := (k = 1 ∨ k = 2) ∧ s.coreExists lc = true ∧ bitOf ctl (k - 1) = true ∧ (c.sysr (0x037 + k)).toNat ≤ s.time
     let off := setBit ctl (k - 1) false
     let u := s.setCore lc (c.setSys 0x03A off)
     let q := iqNum lc
     let h := u.urnHalf (qHalf q)
     (¬ fires → exec (.timerFire lc k) s = .next s) ∧
     (fires → s.tileSt (lcTile lc) = 0 →
       (k = 2 → c.imo = false → exec (.timerFire lc k) s = .next (s.setCore lc (c.setSys 0x03A (setBit off 2 true)))) ∧
       (¬ (k = 2 ∧ c.imo = false) →
         ((u.qEn q && u.iqRoom q k) = false → exec (.timerFire lc k) s = .next u) ∧
         (u.qEn q = true → u.iqRoom q k = true → h.caddyRoom false 2 = true →
           exec (.timerFire lc k) s = .next ((u.iqAccept q (BitVec.ofNat 64 k)).serveWaits q)) ∧
         (u.qEn q = true → u.iqRoom q k = true → h.caddyRoom false 2 = false →
           exec (.timerFire lc k) s = .next (u.caddyStall .hardware q [Word.data (BitVec.ofNat 64 k), Word.zero] false false))))) ∧
    (∀ m, s.stateMsgs.find? (fun m => m.lc == lc) = some m → s.tileOpen (lcTile lc) = true →
      let s' : State := { s with stateMsgs := s.stateMsgs.erase m }
      let later := (m.seq + 2 ^ 16 - c.irqSeq) % 2 ^ 16
      (0 < later ∧ later < 2 ^ 15 →
        exec (.pendingStateMessage lc) s = .next (s'.setCore lc { c with irqPending := m.pending, irqSeq := m.seq })) ∧
      (¬ (0 < later ∧ later < 2 ^ 15) → exec (.pendingStateMessage lc) s = .next (s'.setCore lc c)))

/-- For a tile of the part whose logical core 2 lt exists and holds no injected corruption: a mismatch of an arbour that does not run in safe
mode only drops and counts the L1 lines with bad parity. In safe mode a mismatch that no comparator sees, because it is stuck at agree, is
without effect. A seen one at the same point within 1,000,000 ns takes the fatal path with cause REPEAT; an error in both cores takes it
with cause REG_PARITY; any other that finds an empty shelf is recovered: both records are replaced, ARB_MISMATCH.RECOVERED counts one,
bad L1 lines and uncommitted transactions of the release buffer are dropped, registers and PC stay; where the re-execution asks for
something else, the fatal path with cause REPLAY follows. A pair timeout is a mismatch of the pair comparison. A debug request splits a
safe-mode arbour only in M10 on PM-8512-X1, and ends its replay log. A throttle level takes effect in a tile in T0. The order of record and
fatal path is the model's choice (entry 43). Cites R265, R264, R263, R257, R269, R246, R273, R289. -/
def Obligations.ArbourEvents : Prop :=
  ∀ (s : State) (lt : Nat) (m : Mismatch) (line : Nat), lt < 256 →
    let d := ltDie lt
    let u := ltIdx lt
    let c := s.core (2 * lt)
    let a := s.arbour lt
    let last := s.reg d u ARB_LAST_PC []
    let safe := s.safeArb lt = true ∧ s.coreExists (2 * lt) = true ∧ c.flips = []
    let seen := fun (m : Mismatch) => m.both = true ∨ m.resync ≠ 0 ∨ m.lines ≠ [] ∨ (if m.pair then a.stuckPair else a.stuckSig) = false
    let second := last.getLsbD 0 = true ∧ last.toNat / 4 % 2 ^ 56 * 4 = c.pc ∧ s.time < (s.reg d u ARB_LAST_TIME []).toNat + 1000000
    let counted := fun (m : Mismatch) => if m.pair then s.addFld d u ARB_MISMATCH [] ARB_MISMATCH_PAIR 1 else s
    let replaced := fun (m : Mismatch) =>
      ((counted m).setReg d u ARB_LAST_PC [] (BitVec.ofNat 64 (c.pc + 1))).setReg d u ARB_LAST_TIME [] (BitVec.ofNat 64 s.time)
    let recovers := fun (i : Instr) (m : Mismatch) =>
      ∃ t, exec i s = .next (if m.replay then t.fatalPath lt 3 else t) ∧ t = { s with regs := t.regs, cores := t.cores, arbours := t.arbours } ∧
        t.reg d u ARB_LAST_PC [] = BitVec.ofNat 64 (c.pc + 1) ∧ t.reg d u ARB_LAST_TIME [] = BitVec.ofNat 64 s.time ∧
        t.fld d u ARB_MISMATCH [] ARB_MISMATCH_RECOVERED =
          min (s.fld d u ARB_MISMATCH [] ARB_MISMATCH_RECOVERED + 1) (2 ^ ARB_MISMATCH_RECOVERED.n - 1) ∧
        (t.core (2 * lt)).g = c.g ∧ (t.core (2 * lt)).pc = c.pc ∧ (∀ l ∈ m.lines, ∀ p ∈ (t.core (2 * lt)).l1d ++ (t.core (2 * lt)).l1i, p.2 ≠ l) ∧
        (∀ k, k ≠ 2 * lt → k ≠ 2 * lt + 1 → t.core k = s.core k) ∧
        (t.arbour lt).rb = a.rb.filter (fun e => e.committed) ∧ (t.arbour lt).log = a.log ∧ (∀ k, k ≠ lt → t.arbour k = s.arbour k)
    let timeout : Mismatch := { pair := true, resync := 0, both := false, lines := [], replay := false }
    (s.safeArb lt = false →
      (m.lines = [] → exec (.mismatch lt m) s = .next s) ∧
      (m.lines = [line] → exec (.mismatch lt m) s = .next ((s.l1Drop lt line).errCorrected d u 0 (line * 128)))) ∧
    (s.safeArb lt = true → s.coreExists (2 * lt) = false → exec (.mismatch lt m) s = .next s) ∧
    (safe → ¬ seen m → exec (.mismatch lt m) s = .next s) ∧
    (safe → seen m → second → exec (.mismatch lt m) s = .next ((counted m).fatalPath lt 1)) ∧
    (safe → ¬ second → m.both = true → exec (.mismatch lt m) s = .next ((replaced m).fatalPath lt 2)) ∧
    (safe → seen m → ¬ second → m.both = false → c.shelf = [] → recovers (.mismatch lt m) m) ∧
    exec (.pairTimeout lt) s = exec (.mismatch lt timeout) s ∧
    (safe → a.stuckPair = false → ¬ second → c.shelf = [] → recovers (.pairTimeout lt) timeout) ∧
    (let may := s.mode = .m10 ∧ s.part = .x1 ∧ s.safeArb lt = true
     (¬ may → exec (.debugSplit lt) s = .next s) ∧
     (may → ∃ t, exec (.debugSplit lt) s = .next t ∧ t = { s with regs := t.regs, cores := t.cores, arbours := t.arbours } ∧
       (∀ k, k ≠ 2 * lt → t.core k = s.core k) ∧ (c.flips = [] → t.core (2 * lt) = c) ∧ (t.arbour lt).log = [] ∧
       t.fld d u ARB_STATUS [] ARB_STATUS_HELD = 1 ∧ t.fld d u ARB_STATUS [] ARB_STATUS_LOCKSTEP_BROKEN = 1 ∧ t.safeArb lt = false ∧
       natBit (t.fld 15 1 GH_TILE_LSB [lt / 64] GH_TILE_LSB_LSB) (lt % 64) = true)) ∧
    (s.tileSt lt = 0 → exec (.throttleLevelChange lt) s =
      .next { s with pwr := { s.pwr with throttle := tset s.pwr.throttle 0 lt (s.tileThrottle lt) } }) ∧
    (s.tileSt lt ≠ 0 → exec (.throttleLevelChange lt) s = .next s)

/-- For a tile of the part: a flush command sets FLUSH and starts the full flush, and its end clears FLUSH, sets FLUSH_DONE and lets lines
allocate again (shown for an array whose lines have gone and for which nothing waits); without a flush in progress the end is without
effect. A write to a WAY_DIS register that would break R295, for an LLC slice under the present or the coming Walled mask, only sets REFUSED;
any other replaces DIS and adds the newly disabled ways to PENDING. The end of the flush of a way that is not pending is without effect;
that of a pending one clears PENDING, and sets WAY_DONE with the last. LLC_WALLED_WAYS does not exist on PM-8512-X1; on PM-8512-A1 a legal
mask puts the ways that change into PENDING until MASK_DONE. Cites R293, R295, R296, R297, R300. -/
def Obligations.CacheControl : Prop :=
  ∀ (s : State) (lt way : Nat) (v : BitVec 64), lt < 256 → way < 16 →
    let d := ltDie lt
    let u := ltIdx lt
    let n := llcUnit lt
    let t2 := s.tile lt
    let t3 := s.slice lt
    let r2 := s.reg d u L2_WAY_DIS []
    let r3 := s.reg d n LLC_WAY_DIS []
    let cur := s.fld d n LLC_WALLED_WAYS [] LLC_WALLED_WAYS_MASK
    let want := v.toNat % 2 ^ 16
    let pend := fun (r : BitVec 64) => setField (setField r 0 16 want) 32 16
      (r.toNat / 2 ^ 32 % 2 ^ 16 ||| ((want &&& (65535 ^^^ r.toNat % 2 ^ 16)) &&& (65535 ^^^ r.toNat / 2 ^ 16 % 2 ^ 16)))
    let calm := s.net = [] ∧ s.nacked = []
    let idle3 := calm ∧ t3.parked = [] ∧ t3.txns = []
    (∃ t, exec (.l2Flush lt) s = .next t ∧ (t.tile lt).flushing = true ∧ t.fld d u L2_CTL [] L2_CTL_FLUSH = 1 ∧
      t = { s with regs := t.regs, tiles := t.tiles } ∧ (t.tile lt).l2 = t2.l2) ∧
    (∃ t, exec (.llcFlush lt) s = .next t ∧ (t.slice lt).flushing = true ∧ t.fld d n LLC_CTL [] LLC_CTL_FLUSH = 1 ∧
      t = { s with regs := t.regs, slices := t.slices } ∧ (t.slice lt).lines = t3.lines) ∧
    (t2.flushing = false → exec (.flushDone lt false) s = .next s) ∧
    (t3.flushing = false → exec (.flushDone lt true) s = .next s) ∧
    (t2.flushing = true → calm → t2.l2 = [] → t2.fills = [] → (s.arbour lt).rb = [] →
      ∃ t, exec (.flushDone lt false) s = .next t ∧ t = { s with regs := t.regs, tiles := t.tiles } ∧
        t.tile lt = { t2 with flushing := false } ∧ t.fld d u L2_CTL [] L2_CTL_FLUSH = 0 ∧ t.fld d u L2_STATUS [] L2_STATUS_FLUSH_DONE = 1) ∧
    (t3.flushing = true → idle3 → t3.lines = [] → t3.vb = [] →
      ∃ t, exec (.flushDone lt true) s = .next t ∧ t = { s with regs := t.regs, slices := t.slices } ∧
        t.slice lt = { t3 with flushing := false } ∧ t.fld d n LLC_CTL [] LLC_CTL_FLUSH = 0 ∧
        t.fld d n LLC_STATUS [] LLC_STATUS_FLUSH_DONE = 1) ∧
    (let ok := s.l2WaysOk lt (want ||| r2.toNat / 2 ^ 16 % 2 ^ 16 ||| t2.hwPend)
     (ok = false → exec (.l2WayDisWrite lt v) s = .next (s.setFld d u L2_STATUS [] L2_STATUS_REFUSED 1)) ∧
     (ok = true → exec (.l2WayDisWrite lt v) s = .next (s.setReg d u L2_WAY_DIS [] (pend r2)))) ∧
    (let off := want ||| r3.toNat / 2 ^ 16 % 2 ^ 16 ||| t3.hwPend
     let ok := s.llcWaysOk off cur = true ∧ (∀ m ways, t3.newMask = some (m, ways) → s.llcWaysOk off m = true)
     (¬ ok → exec (.llcWayDisWrite lt v) s = .next (s.setFld d n LLC_STATUS [] LLC_STATUS_REFUSED 1)) ∧
     (ok → idle3 → ∃ t, exec (.llcWayDisWrite lt v) s = .next t ∧ t = { s.setReg d n LLC_WAY_DIS [] (pend r3) with slices := t.slices } ∧
       ∀ k, t.slice k = s.slice k)) ∧
    (r2.getLsbD (32 + way) = false → r2.toNat / 2 ^ 16 % 2 ^ 16 = 0 → exec (.wayFlushDone lt way false) s = .next s) ∧
    (r2.getLsbD (32 + way) = true → r2.toNat / 2 ^ 16 % 2 ^ 16 = 0 → t2.l2 = [] → calm → natBit t2.hwPend way = false →
      ∃ t, exec (.wayFlushDone lt way false) s = .next t ∧ t = { s with regs := t.regs } ∧
        t.reg d u L2_WAY_DIS [] = setBit r2 (32 + way) false ∧
        (r2.toNat / 2 ^ 32 % 2 ^ 16 = 2 ^ way → t.fld d u L2_STATUS [] L2_STATUS_WAY_DONE = 1)) ∧
    (r3.getLsbD (32 + way) = false → exec (.wayFlushDone lt way true) s = .next s) ∧
    (r3.getLsbD (32 + way) = true → idle3 → t3.lines = [] → natBit t3.hwPend way = false → t3.newMask = none →
      ∃ t, exec (.wayFlushDone lt way true) s = .next t ∧ t = { s with regs := t.regs, slices := t.slices } ∧ (∀ k, t.slice k = s.slice k) ∧
        t.reg d n LLC_WAY_DIS [] = setBit r3 (32 + way) false ∧
        (r3.toNat / 2 ^ 32 % 2 ^ 16 = 2 ^ way → t.fld d n LLC_STATUS [] LLC_STATUS_WAY_DONE = 1)) ∧
    (s.part = .x1 → exec (.llcWalledWaysWrite lt v) s = .next s) ∧
    (s.part = .a1 →
      let ok := s.llcWaysOk (r3.toNat % 2 ^ 16 ||| r3.toNat / 2 ^ 16 % 2 ^ 16 ||| t3.hwPend) want
      (ok = false → exec (.llcWalledWaysWrite lt v) s = .next (s.setFld d n LLC_STATUS [] LLC_STATUS_REFUSED 1)) ∧
      (ok = true → t3.newMask = none →
        ∃ t, exec (.llcWalledWaysWrite lt v) s = .next t ∧ (t.slice lt).newMask = some (want, cur ^^^ want) ∧
          t = { s with regs := t.regs, slices := t.slices } ∧ (t.slice lt).lines = t3.lines ∧
          t.reg d n LLC_WAY_DIS [] = setField r3 32 16 (r3.toNat / 2 ^ 32 % 2 ^ 16 ||| (cur ^^^ want)))) ∧
    (t3.newMask = none → exec (.maskDone lt) s = .next s) ∧
    (∀ ways, t3.newMask = some (want, ways) → idle3 → (∀ p ∈ t3.lines, natBit ways (p.1 % 16) = false) →
      ∃ t, exec (.maskDone lt) s = .next t ∧ t = { s with regs := t.regs, slices := t.slices } ∧ t.slice lt = { t3 with newMask := none } ∧
        t.fld d n LLC_WALLED_WAYS [] LLC_WALLED_WAYS_MASK = want ∧ t.fld d n LLC_STATUS [] LLC_STATUS_MASK_DONE = 1 ∧
        ∀ w < 16, (t.reg d n LLC_WAY_DIS []).getLsbD (32 + w) =
          (r3.getLsbD (32 + w) && (!natBit ways w || r3.getLsbD w || natBit t3.hwPend w)))

/-- Each coherence command takes its message out of flight and delivers it to its destination with the kind of the command, unless an older
message of its channel, sender and receiver is still in flight: then it has not arrived. A message from an agent that a home holds for dead
only sets DEAD_MSG. At a slice: a request that hits an unblocked M or E line which no other tile holds is granted (E for RdS, M with the
data or an Ack for RdX and Upg), WbM and EvC are acknowledged and applied, and the requester's Cmp frees the line. At a tile: granted data
enters the fill shelf and Cmp is sent, an Ack gives the line in M, a forward or Inv of an M line is answered with dirty data or Ack, WbAck
frees the writeback buffer's entry, Nack keeps the request to be sent again as retried. At a home: RdNC of a DRAM line without holders is
answered with its words, WrInv of a whole line stores it and answers Cmp. At an IOMMU, Inv removes the table line and the translations
derived from it and answers Ack. NACK_RETRY sends the oldest refused request; a coherence timeout of a line that is not blocked is without
effect, and one of a line that waits for Cmp poisons it and marks the silent agent dead. Cites R315, R316, R317, R320, R321, R325, R328,
R329, R330, R337, R338. -/
def Obligations.CoherenceMessages : Prop :=
  ∀ (s : State) (m : Msg) (lt i x line : Nat),
    let cmds : List (MsgKind × Instr) :=
      [(.rdS, .rds m []), (.rdX, .rdx m []), (.upg, .upg m), (.rdNC, .rdnc m), (.wrInv, .wrinv m), (.wbM, .wbm m []), (.evC, .evc m),
       (.fwdS, .fwds m), (.fwdX, .fwdx m), (.inv, .inv m), (.data, .data m), (.ack, .ack m), (.cmp, .cmp m), (.wbAck, .wback m), (.nack, .nack m)]
    let as_ := fun (k : MsgKind) => ({ m with kind := k } : Msg)
    let s' := fun (k : MsgKind) => ({ s with net := s.net.erase (as_ k) } : State)
    let came := fun (k : MsgKind) => (∀ n, m.src ≠ .socket n) ∧ (s.net.contains (as_ k) = true → s.inOrder (as_ k) = true)
    let T := s.tile lt
    let L := s.slice lt
    let H := s.home i
    (∀ p ∈ cmds,
      (came p.1 → exec p.2 s = .next ((s' p.1).deliver (as_ p.1))) ∧
      (s.net.contains (as_ p.1) = true → s.inOrder (as_ p.1) = false → exec p.2 s = .next s) ∧
      (came p.1 → m.dst = .home i → s.homeDead i m.src = true →
        exec p.2 s = .next ((s' p.1).setFld (8 + i) 0x038 HOME_STATUS [] HOME_STATUS_DEAD_MSG 1))) ∧
    (∀ key l, m.dst = .llc lt → m.src = .tile x → (s.tile x).dead = false → s.llcFind lt m.line false true = some (key, l) →
      tfind L.lines key = some l → l.bad = [] → L.txn m.line = none → (∀ q ∈ L.cq ++ L.parked, q.line ≠ m.line) →
      let b := s.scanOf x
      let after := fun (t : State) (k : MsgKind) (c : CacheLine) (r : Msg) =>
        t = { s with net := t.net, slices := t.slices, regs := t.regs } ∧ t.net = (s' k).net ++ [r] ∧
          (t.slice lt).lines = tput L.lines key c ∧ ∀ n, n ≠ lt → t.slice n = s.slice n
      let blocked := fun (t : State) (k : MsgKind) =>
        (t.slice lt).txns = L.txns.filter (fun y => y.line != m.line) ++ [{ Txn.start (as_ k) [] with phase := .cmp, await := [.tile x] }]
      let reply := fun (k : MsgKind) (g : Grant) (ws : List Word) =>
        ({ mkMsg k (.llc lt) (.tile x) m.line m.walled with grant := g, data := ws, core := m.core } : Msg)
      ((l.walled = m.walled ∨ m.pl3 = true) → (l.st = .m ∨ l.st = .e) → s.otherTiles lt l m.src = [] →
        (came .rdS → (l.pres = 0 ∨ l.pres = 2 ^ b) → ∃ t, exec (.rds m []) s = .next t ∧ blocked t .rdS ∧
          after t .rdS { l with pres := l.pres ||| 2 ^ b, excl := true } (reply .data .e l.data)) ∧
        (came .rdX → ∃ t, exec (.rdx m []) s = .next t ∧ blocked t .rdX ∧
          after t .rdX { l with st := .m, pres := 2 ^ b, excl := true } (reply .data .m l.data)) ∧
        (came .upg → ∃ t, exec (.upg m) s = .next t ∧ blocked t .upg ∧ after t .upg { l with st := .m, pres := 2 ^ b, excl := true }
          (if natBit l.pres b then reply .ack .m [] else reply .data .m l.data))) ∧
      (natBit l.pres b = true →
        let rest : CacheLine := { l with pres := clearBit l.pres b, excl := false }
        (came .wbM → ∃ t, exec (.wbm m []) s = .next t ∧
          after t .wbM (if l.excl = true ∧ (l.st = .m ∨ l.st = .e) then { rest.fresh m.data with st := .m } else rest)
            (mkMsg .wbAck (.llc lt) (.tile x) m.line m.walled)) ∧
        (came .evC → ∃ t, exec (.evc m) s = .next t ∧ after t .evC rest (mkMsg .wbAck (.llc lt) (.tile x) m.line m.walled)))) ∧
    (∀ q, m.dst = .llc lt → s.tileDead m.src = false → came .cmp → L.txn m.line = some q → q.phase = .cmp → q.await = [m.src] → q.held = [] →
      (∀ y ∈ L.txns, y.grant = .none) → (∀ y ∈ L.cq, y.line ≠ m.line) → L.parked = [] →
      ∃ t, exec (.cmp m) s = .next t ∧ t = { s' .cmp with slices := t.slices } ∧
        t.slice lt = { L with txns := L.txns.filter (fun y => y.line != m.line) } ∧ ∀ n, n ≠ lt → t.slice n = s.slice n) ∧
    (m.dst = .tile lt →
      (∀ w, came .wbAck → T.wb.find? (fun w => w.line == m.line) = some w → (∀ e ∈ (s.arbour lt).rb, e.msg = none) →
        exec (.wback m) s = .next ((s' .wbAck).setTile lt { T with wb := T.wb.erase w })) ∧
      (came .nack → exec (.nack m) s =
        .next { s' .nack with nacked := s.nacked ++ [{ m with kind := m.refused, src := .tile lt, dst := m.src, retried := true }] }) ∧
      (∀ q lc n, m.src = .llc n → T.missOf m.line = some q → s.tileSt lt ≠ 4 →
        let done := mkMsg .cmp (.tile lt) m.src m.line m.walled
        (came .data → q.kind = .rdS → q.core = some lc → (s.core lc).shelf.length < 32 → ∃ t, exec (.data m) s = .next t ∧
          t = { s with net := t.net, tiles := t.tiles, cores := t.cores } ∧ t.net = (s' .data).net ++ [done] ∧
          t.tile lt = { T with miss := T.miss.erase q } ∧ t.core lc = { s.core lc with shelf := (s.core lc).shelf ++ [⟨m.line, true, m.data⟩] }) ∧
        (∀ key l, came .ack → q.kind = .upg → s.l2Any lt m.line = some (key, l) → ∃ t, exec (.ack m) s = .next t ∧
          t = { s with net := t.net, tiles := t.tiles } ∧ t.net = (s' .ack).net ++ [done] ∧
          t.tile lt = { T with miss := T.miss.erase q, l2 := tput T.l2 key { l with st := .m } })) ∧
      (∀ key l n, m.src = .llc n → s.tileSt lt < 3 → s.l2Any lt m.line = some (key, l) → tfind T.l2 key = some l → l.bad = [] → l.st = .m →
        let ans := fun (t : State) (k : MsgKind) (r : Msg) (l2 : Tbl CacheLine) =>
          t = { s with net := t.net, tiles := t.tiles, cores := t.cores, arbours := t.arbours, regs := t.regs } ∧ t.net = (s' k).net ++ [r] ∧
            (t.tile lt).l2 = l2 ∧ (t.tile lt).wb = T.wb ∧ (∀ k, (t.core k).g = (s.core k).g ∧ (t.core k).sb = (s.core k).sb)
        let dirty : Msg := { mkMsg .data (.tile lt) m.src m.line m.walled with data := l.data, dirty := true, nc := m.nc }
        (came .fwdS → m.nc = false → ∃ t, exec (.fwds m) s = .next t ∧ ans t .fwdS dirty (tput T.l2 key { l with st := .s })) ∧
        (came .fwdX → ∃ t, exec (.fwdx m) s = .next t ∧ ans t .fwdX dirty (terase T.l2 key)) ∧
        (came .inv → ∃ t, exec (.inv m) s = .next t ∧ ans t .inv (mkMsg .ack (.tile lt) m.src m.line m.walled) (terase T.l2 key)))) ∧
    (∀ r n ch chline, m.dst = .home i → m.src = .nca n → s.classify (m.line * 128) = .dram r ch chline →
      s.sfFind i m.line = none → H.blocks m.line = false → H.parked = [] → (∀ w ∈ H.wb, w.line ≠ m.line) →
      (s.chan ch).stalled = [] →
      (came .rdNC → tget (s.chan ch).raw ⟨[], false, []⟩ chline = ⟨[], false, []⟩ → ∃ t, exec (.rdnc m) s = .next t ∧
        t = { s with net := t.net, homes := t.homes, regs := t.regs } ∧ (∀ k, t.home k = s.home k) ∧
        t.net = (s' .rdNC).net ++ [{ mkMsg .data (.home i) m.src m.line m.walled with
          data := if (s.chan ch).lineDone chline then s.dramLine ch chline else zeroLine, core := m.core }]) ∧
      (came .wrInv → m.mask = 2 ^ 128 - 1 → (s.chan ch).canWrite chline = true → s.mf ch ERB_INJ_STATUS ERB_INJ_STATUS_REMAIN = 0 →
        ∃ t, exec (.wrinv m) s = .next t ∧ (∀ k, t.home k = s.home k) ∧
          t.net = (s' .wrInv).net ++ [{ mkMsg .cmp (.home i) m.src m.line m.walled with core := m.core }] ∧
          ∀ w < 16, t.dramWord ch chline w =
            storeWhole (if (s.chan ch).lineDone chline then s.dramWord ch chline w else Word.zero) (m.data.getD w Word.zero))) ∧
    (m.dst = .iommu i → (∃ n, m.src = .home n) → came .inv →
      ∃ t, exec (.inv m) s = .next t ∧ (t.iommu i).lines = (s.iommu i).lines.filter (fun l => l != m.line) ∧
        (t.iommu i).tlb = (s.iommu i).tlb.filter (fun e => !e.lines.contains m.line) ∧
        t.net = (s' .inv).net ++ [mkMsg .ack (.iommu i) m.src m.line m.walled]) ∧
    (s.nacked = [] → exec .nackRetry s = .next s) ∧
    (∀ q rest, s.nacked = q :: rest → exec .nackRetry s = .next (({ s with nacked := rest } : State).send { q with retried := true })) ∧
    (H.txn line = none → (∀ t ∈ H.snoops, t.line ≠ line) → exec (.coherenceTimeout (.home i) line) s = .next s) ∧
    (L.txn line = none → exec (.coherenceTimeout (.llc lt) line) s = .next s) ∧
    (∀ t, H.txn line = some t → (∀ y ∈ H.snoops, y.line ≠ line) → s.remoteHome line = none → t.phase = .cmp →
      let u := s.homeWrite line (poisonLine 0x03) t.req.walled
      let e := (((u.sfFind i line).map (fun p => p.2)).getD (SfEnt.blank line)).without t.await
      exec (.coherenceTimeout (.home i) line) s = .next
        ((((u.sfKeep i e).homeSilent i line t.await true t.inj t.req.walled).homeEnd i t).homeAdvance i line 64)) ∧
    (∀ t key l, L.txn line = some t → t.phase = .cmp → t.await = [.tile x] → s.llcFind lt line false true = some (key, l) →
      let u := (s.setTile x { s.tile x with dead := true }).llcPut lt key
        { l.fresh (poisonLine 0x03) with st := if l.st = .e then .m else l.st, excl := false, pres := clearBit l.pres (s.scanOf x) }
      exec (.coherenceTimeout (.llc lt) line) s = .next
        ((((u.err (ltDie lt) (llcUnit lt) { ErrRec.mk1 4 0x05 (x % 32) (line * 128) with walled := t.req.walled, poison := 3, misc := x % 32 }).llcEnd
          lt t).llcAdvance lt line 64).quarantine x))

/-- A request that arrives at a home for a line that a transaction blocks, from an agent that is not dead, is put at the
end of the conflict queue while it has fewer than 14 entries (16 for a retried request); otherwise the queue stays
as it is, the home counts a Nack and sends one back. In both cases the command completes, and no memory and no cache
changes. That entries are numbered by their place in the queue is the model's choice (entry 48). Cites R320, R321. -/
def Obligations.HomeConflictQueue : Prop :=
  ∀ (s : State) (i : Nat) (m : Msg), m.dst = .home i → (∀ n, m.src ≠ .socket n) → s.homeDead i m.src = false →
    ((s.home i).txn m.line).isSome = true → (∀ f ∈ (s.home i).fwds, f.line ≠ m.line) → (∀ k e, s.sfFind i m.line = some (k, e) → e.bad = []) →
    ∀ p ∈ ([(.rdS, .rds m []), (.rdX, .rdx m []), (.upg, .upg m), (.rdNC, .rdnc m), (.wrInv, .wrinv m)] : List (MsgKind × Instr)),
      let m' : Msg := { m with kind := p.1 }
      let s' : State := { s with net := s.net.erase m' }
      let h := s.home i
      let n := h.cq.countP (fun x => !isFwd x.kind)
      (s.net.contains m' = true → s.inOrder m' = true) →
      (n < (if m.retried then 16 else 14) → exec p.2 s = .next (s'.setHome i { h with cq := h.cq ++ [m'] })) ∧
      (¬ n < (if m.retried then 16 else 14) →
        exec p.2 s = .next ((s'.addFld (8 + i) 0x038 HOME_CQ_STATUS [] HOME_CQ_STATUS_NACKS 1).send
          { m' with kind := .nack, src := .home i, dst := m.src, refused := p.1 }))

/-- For a channel of the part with no stalled write, a line within its capacity without symbol errors whose granule may be written, and no
injection waiting at the channel: CHANNEL_WRITE completes. Word w of the line then holds what the masked write makes of the word held
before (zero with tag 0x00 in a line that nothing has written since its granule was INVALID): the whole new word
when all eight mask bits are set, its merged bytes when some are, the old word when none is. The line counts as
written; every other word of every channel reads as before. A first write that finds the fill table full waits
instead, in order, and counts a stall. A line beyond the capacity is no line of the channel. Cites R356, R357, R358, R359, R331. -/
def Obligations.ChannelWriteStores : Prop :=
  ∀ (s : State) (ch chline mask : Nat) (ws : List Word) (walled : Bool), ch < 16 → chline < 2 ^ 32 → mask < 2 ^ 128 →
    let go := Instr.channelWrite ch chline ws mask walled
    let c := s.chan ch
    let room := c.canWrite chline && !(c.stalled.any (fun w => granOf w.chline == granOf chline))
    (s.chanLines ch ≤ chline → exec go s = .next s) ∧
    (chline < s.chanLines ch → tget c.raw ⟨[], false, []⟩ chline = ⟨[], false, []⟩ → c.stalled = [] → c.canWrite chline = true → s.mf ch ERB_INJ_STATUS ERB_INJ_STATUS_REMAIN = 0 →
      ∃ t, exec go s = .next t ∧
        (∀ w < 16,
          let old := if c.lineDone chline then s.dramWord ch chline w else Word.zero
          let new := ws.getD w Word.zero
          let bytes := mask / 2 ^ (8 * w) % 256
          let x := t.dramWord ch chline w
          (bytes = 255 → x = storeWhole old new) ∧ (bytes = 0 → x = old) ∧
          (0 < bytes → bytes < 255 → new.isPoison = true → x = if old.isPoison then old else Word.poison new.aux) ∧
          (0 < bytes → bytes < 255 → new.isPoison = false → x = storeSub old new.val bytes)) ∧
        (∀ k l w, k < 16 → l < 2 ^ 32 → w < 16 → (k ≠ ch ∨ l ≠ chline) → t.dramWord k l w = s.dramWord k l w) ∧
        (t.chan ch).lineDone chline = true ∧ (t.chan ch).stalled = [] ∧ (∀ k, k ≠ ch → t.chan k = s.chan k)) ∧
    (chline < s.chanLines ch → room = false → ∃ t, exec go s = .next t ∧ (t.chan ch).stalled = c.stalled ++ [⟨chline, ws, mask, walled⟩] ∧ t.mem = s.mem ∧
      t.memTags = s.memTags ∧ t.mf ch MEM_STATUS MEM_STATUS_VG_STALL = 1)

/-- For a channel of the part: a read of a line without standing errors changes no byte and no channel state, and one beyond the capacity nothing; a
background fill writes zero with tag 0x00 to the lowest unwritten line of a FILLING granule and is without effect in
another; initialisation fills the next INVALID granule while 8 fill entries are free, and sets
DONE where none is left or the channel is not trained; a patrol of a channel that is
not scrubbed is without effect, and
one of a clean line only moves its position; calibration keeps its time; the refresh rate doubles above 85 degrees and returns
below 82; MEM_MARK with a device outside the rank is refused; MEM_RANGE is locked with its node, and an overlapping
or otherwise illegal value is refused. Cites R346, R353, R357, R358, R360, R361, R362, R363, R54. -/
def Obligations.ChannelEvents : Prop :=
  ∀ (s : State) (ch chline g rank dimm t10 n : Nat) (bad : List Nat) (walled late : Bool) (v : BitVec 64), ch < 16 → n < 4 →
    let c := s.chan ch
    let die := 8 + ch / 8
    (s.chanLines ch ≤ chline → exec (.channelRead ch chline [] bad walled) s = .next s) ∧
    (chline < s.chanLines ch → tget c.raw ⟨[], false, []⟩ chline = ⟨[], false, []⟩ →
      ∃ t, exec (.channelRead ch chline [] bad walled) s = .next t ∧ t = { s with regs := t.regs } ∧
        (∀ l w, t.dramWord ch l w = s.dramWord ch l w)) ∧
    (c.fillMap g = none → exec (.granuleFillWrite ch g) s = .next s) ∧
    (∀ map k, c.fillMap g = some map → k < 512 → natBit map k = false → (∀ j < k, natBit map j = true) → s.chAwake ch = true →
      c.stalled = [] → tget c.valid false g = false → s.mf ch ERB_INJ_STATUS ERB_INJ_STATUS_REMAIN = 0 →
      ∃ t, exec (.granuleFillWrite ch g) s = .next t ∧ (∀ w < 16, t.dramWord ch (512 * g + k) w = Word.zero) ∧
        (t.chan ch).lineDone (512 * g + k) = true) ∧
    (let next := c.nextInvalid c.initPos (c.valid.length + c.fill.length + 1)
     let init := Instr.granuleInit ch
     (s.mode.up = false → exec init s = .next s) ∧
     (s.mode.up = true → s.chTrained ch = true → 512 * next < s.chanLines ch →
       (56 < c.fill.length → exec init s = .next s) ∧
       (c.fill.length ≤ 56 → ∃ t, exec init s = .next t ∧ t = { s with regs := t.regs, chans := t.chans } ∧
         t.chan ch = { c.allocFill next with initPos := next + 1 } ∧ ∀ k, k ≠ ch → t.chan k = s.chan k)) ∧
     (s.mode.up = true → (s.chTrained ch = false ∨ s.chanLines ch ≤ 512 * next) → ∃ t, exec init s = .next t ∧ t = { s with regs := t.regs } ∧
       natBit (t.fld die 0x03A GK_INIT_STATUS [] GK_INIT_STATUS_DONE) (ch % 8) = true)) ∧
    ((s.flag die 0x03A GK_SCRUB_CTL [] GK_SCRUB_CTL_EN = false ∨ s.mode.up = false ∨ s.chTrained ch = false) →
      exec (.patrolRead ch [] bad late) s = .next s) ∧
    (s.flag die 0x03A GK_SCRUB_CTL [] GK_SCRUB_CTL_EN = true → s.mode.up = true → s.chTrained ch = true → c.patrolNext = none →
      ∃ t, exec (.patrolRead ch [] bad late) s = .next t ∧ (t.chan ch).patrolPos = 0 ∧
        t.fld die 0x03A GK_SCRUB_STATUS [] GK_SCRUB_STATUS_POS = 0 ∧ t = { s with regs := t.regs, chans := t.chans }) ∧
    (∀ line, s.flag die 0x03A GK_SCRUB_CTL [] GK_SCRUB_CTL_EN = true → s.mode.up = true → s.chTrained ch = true → c.patrolNext = some line →
      tget c.raw ⟨[], false, []⟩ line = ⟨[], false, []⟩ →
      ∃ t, exec (.patrolRead ch [] bad late) s = .next t ∧ t = { s with regs := t.regs, chans := t.chans } ∧
        t.chan ch = { c with patrolPos := line + 1 } ∧ ∀ k, k ≠ ch → t.chan k = s.chan k) ∧
    (s.chTrained ch = true → rank ≤ s.mf ch MEM_CFG MEM_CFG_RANKS →
      exec (.zqCalibration ch rank) s = .next (s.setChan ch { c with lastZq := tset c.lastZq 0 rank s.time }) ∧
      exec (.dqsOscillatorRead ch rank) s = .next (s.setChan ch { c with lastOsc := tset c.lastOsc 0 rank s.time })) ∧
    (s.chTrained ch = true → dimm ≤ 1 → dimm < c.fastRefresh.length →
      ∃ t, exec (.dimmTemperatureRead ch dimm t10) s = .next t ∧ t = { s with chans := t.chans } ∧
        (t.chan ch).fastRefresh.getD dimm false = (if 850 < t10 then true else if t10 < 820 then false else c.fastRefresh.getD dimm false)) ∧
    (let limit := if s.chX8 ch then 10 else 20
     let illegal := ∃ q < 8, v.getLsbD (8 * q + 7) = true ∧ limit ≤ v.toNat / 2 ^ (8 * q) % 32
     (illegal → exec (.memMarkWrite ch v) s = .next (s.setMf ch MEM_STATUS MEM_STATUS_MARK_REFUSED 1)) ∧
     (¬ illegal → exec (.memMarkWrite ch v) s = .next (s.setReg die (ch % 8) MEM_MARK [] (v &&& 0xDFDFDFDFDFDFDFDF)))) ∧
    (let lock := s.flag 8 0 TRL_NODE_CTL [] TRL_NODE_CTL_LOCK
     (lock = true → exec (.memRangeWrite n v) s = .next (s.addFld 8 0 TRL_NODE_STATUS [] TRL_NODE_STATUS_LOCK_VIOL 1)) ∧
     (lock = false → s.rangeOk n v = true → exec (.memRangeWrite n v) s = .next (s.setReg 8 0 MEM_RANGE [n] (v &&& 0x07FFFFFFFFFFFFFF))) ∧
     (lock = false → s.rangeOk n v = false → exec (.memRangeWrite n v) s = .next (s.setMf 0 MEM_STATUS MEM_STATUS_MAP_REFUSED 1)) ∧
     (s.mode ≠ .m4 → s.mode ≠ .m8 → s.rangeOk n v = false))

/-- For a die of the package and an input port whose link carries nothing else: a flit of a stale epoch is fatal. A flit of a current epoch
that arrives with no error enters the port's input buffer; with one error it is corrected, counted and taken; with more it is kept for a
replay, at most twice, and nothing else is taken from the port meanwhile; a replay without an error brings it into the buffer; after two
failed replays a body or tail flit goes on with its words poison 0x02 and a head flit is lost, which is fatal. Agents inject nothing while
injection is barred. Of the flits on their way to a port, the oldest arrives. On one die a flit moves along x first, then along y, each hop
one stop nearer, and leaves the mesh at its destination. A replay where no flit has failed is without effect; a POLL answers with the flits
that hold at the stop. Cites R371, R375, R379, R380, R389, R393, R395. -/
def Obligations.MeshFlits : Prop :=
  ∀ (s : State) (die st port err : Nat) (f : Flit) (late : Option Nat), die < 10 → die < 8 ∨ port < 5 →
    let x : FlitAt := { die := die, stop := st, port := port, flit := f, err := 0, inj := false, tries := 0 }
    let unit := (s.stopLoc die st).unit
    let stale := (f.epoch + 4 - s.epoch) % 4 = 2
    let rx := fun (e : Nat) => exec (.flitReceive die st port f e late) s
    let key := 2 ^ 16 * die + 2 ^ 8 * st + port
    let corr := fun (s : State) (c : RField) => (s.meshErrs die st c).errCorrected die unit port 0
    let link := s.flits.filter (fun y => y.die == die && y.stop == st && y.port == port)
    let noInj := fun (a : Nat × Nat × Nat) => s.fld a.1 (s.stopLoc a.1 a.2.1).unit ERB_INJ_STATUS [] ERB_INJ_STATUS_REMAIN = 0
    ((tfind s.flitFails key).isSome = true → rx err = .next s) ∧
    (link = [] → s.injectBar die st port f = true → rx err = .next s) ∧
    (link = [] → s.injectBar die st port f = false → tfind s.flitFails key = none →
      (stale → rx err = .next (((s.meshErrs die st MESH_ERRCNT_STALE).meshLog die st port 5 f.header).fatal die unit 3 port 0)) ∧
      (¬ stale →
        rx 0 = .next (s.flitEnter die st port f late) ∧
        rx 1 = .next ((corr s MESH_ERRCNT_CORR).flitEnter die st port f late) ∧
        (2 ≤ err → rx err = .next { corr s MESH_ERRCNT_REPLAY with
          flitFails := tput (corr s MESH_ERRCNT_REPLAY).flitFails key { x with tries := 1 } }))) ∧
    (∀ y rest, link = y :: rest → y.flit = f → y.err = 0 → port < 4 → tfind s.flitFails key = none → ¬ stale →
      rx 0 = .next (({ s with flits := s.flits.erase y } : State).flitEnter die st port f late)) ∧
    (let t := s.flitEnter die st port f late
     t.bufOf die st port f.vc = s.bufOf die st port f.vc ++ [{ flit := f, late := late, due := 0 }] ∧
       t = { s with ports := { s.ports with buf := t.ports.buf } }) ∧
    (tfind s.flitFails key = none → exec (.flitReplay die st port err late) s = .next s) ∧
    (∀ y, tfind s.flitFails key = some y → y.die = die → y.stop = st → y.port = port → port = 4 ∨ noInj (portPeer die st port) →
      let s' : State := { s with flitFails := terase s.flitFails key }
      let rp := fun (e : Nat) => exec (.flitReplay die st port e late) s
      rp 0 = .next (s'.flitEnter die st port y.flit late) ∧
      rp 1 = .next ((corr s' MESH_ERRCNT_CORR).flitEnter die st port y.flit late) ∧
      (2 ≤ err → y.tries < 2 → rp err = .next { corr s' MESH_ERRCNT_REPLAY with
        flitFails := tput (corr s' MESH_ERRCNT_REPLAY).flitFails key { y with err := 0, tries := y.tries + 1 } }) ∧
      (2 ≤ err → 2 ≤ y.tries → y.flit.kind ≥ 2 → rp err = .next
        ((((s'.meshErrs die st MESH_ERRCNT_POISONED).meshLog die st port 1 y.flit.header).err die unit
          { ErrRec.mk1 3 0x49 port 0 with walled := y.flit.walled, inj := y.inj, poison := 2 }).flitEnter die st port y.flit.poisoned late)) ∧
      (2 ≤ err → 2 ≤ y.tries → y.flit.kind < 2 →
        rp err = .next ((s'.meshLog die st port 2 y.flit.header).fatal die unit 1 port 0))) ∧
    (∀ a b, a < 64 → b < 64 →
      (portTo a b = none ↔ a = b) ∧
      ∀ p, portTo a b = some p →
        let n := (neighbour a p).1
        let dist := fun (u v : Nat) => (u - v) + (v - u)
        p < 4 ∧ n < 64 ∧ dist (n % 8) (b % 8) + dist (n / 8) (b / 8) + 1 = dist (a % 8) (b % 8) + dist (a / 8) (b / 8) ∧
          (a % 8 ≠ b % 8 → n / 8 = a / 8)) ∧
    (∃ t, exec (.poll die st) s = .next t ∧ t = { s with out := s.out ++
      [.poll die st (s.heldFlits.filter (fun x => x.die == die && x.stop == st)).length (s.prevFlits die st)] })

/-- A write to a route or tile-map register of a bank of a compute die takes effect, but for its reserved bits, while injection is off, or in the
bank that is not current while no flip is in progress; otherwise it only sets REFUSED. A flip starts only in M4, M5
and M8, with no flip in progress and with every admitted contract's path equal in both banks; it holds injection
until the held channels have drained, then the epoch advances by one modulo 4, and it is done when no flit of
another epoch is left. The drain limit ends it without a change of epoch. Cites R7, R389, R390, R391. -/
def Obligations.RouteBanksAndFlips : Prop :=
  ∀ (s : State) (die bank idx : Nat) (v : BitVec 64), die < 8 → bank < 2 → idx < 4 →
    let busy := s.fld 8 0x03B MESH_FLIP_STATUS [] MESH_FLIP_STATUS_BUSY
    let takes := s.injEn = false ∨ (bank ≠ s.epoch % 2 ∧ busy = 0)
    let refused := s.setFld die 0x040 MESH_DIE_STATUS [] MESH_DIE_STATUS_REFUSED 1
    let maps := s.mode = .m4 ∨ s.mode = .m5 ∨ s.mode = .m8
    let differ := s.admitted.any (fun n => s.contractPath 0 n != s.contractPath 1 n)
    (takes → exec (.meshRouteWrite die bank true idx v) s = .next (s.setReg die 0x040 MESH_TILEMAP [bank, idx] (v &&& 0x3F3F3F3F3F3F3F3F)) ∧
      exec (.meshRouteWrite die bank false 0 v) s = .next (s.setReg die 0x040 MESH_ROUTE [bank] (v &&& 0xFF))) ∧
    (¬ takes → exec (.meshRouteWrite die bank true idx v) s = .next refused ∧ exec (.meshRouteWrite die bank false 0 v) s = .next refused) ∧
    (busy ≠ 0 → exec .meshFlipGo s = .next s) ∧
    (busy = 0 → ¬ maps → exec .meshFlipGo s = .next (s.setFlip MESH_FLIP_STATUS_REFUSED 1)) ∧
    (busy = 0 → maps → differ = true → exec .meshFlipGo s = .next (s.setFlip MESH_FLIP_STATUS_CONTRACT 1)) ∧
    (busy = 0 → maps → differ = false → exec .meshFlipGo s = .next { s.setFlip MESH_FLIP_STATUS_BUSY 1 with flip := .hold }) ∧
    (s.flip = .hold → s.heldFlits = [] →
      ∃ t, exec .flipDrainDone s = .next t ∧ t.flip = .flipped ∧ t.epoch = (s.epoch + 1) % 4 ∧ t = { s with regs := t.regs, flip := t.flip }) ∧
    ((s.flip ≠ .hold ∨ s.heldFlits ≠ []) → exec .flipDrainDone s = .next s) ∧
    (s.flip = .hold → ∃ t, exec .flipTimeout s = .next t ∧ t.flip = .none ∧ t.epoch = s.epoch ∧
      t.fld 8 0x03B MESH_FLIP_STATUS [] MESH_FLIP_STATUS_TIMEOUT = 1 ∧ t.fld 8 0x03B MESH_FLIP_STATUS [] MESH_FLIP_STATUS_BUSY = 0) ∧
    (s.flip ≠ .hold → exec .flipTimeout s = .next s) ∧
    (s.flip = .flipped → s.meshFlits.all (fun x => x.flit.epoch == s.epoch) = true →
      ∃ t, exec .flipDone s = .next t ∧ t.flip = .none ∧ t.epoch = s.epoch ∧ t.fld 8 0x03B MESH_FLIP_STATUS [] MESH_FLIP_STATUS_DONE = 1 ∧
        t.fld 8 0x03B MESH_FLIP_STATUS [] MESH_FLIP_STATUS_BUSY = 0) ∧
    ((s.flip ≠ .flipped ∨ s.meshFlits.all (fun x => x.flit.epoch == s.epoch) = false) → exec .flipDone s = .next s)

/-- Outside M0 a read or write of the control space completes with the data or a bus error; a wrong size, a misaligned
offset and an absent die are told apart; an access that the Trellis loses reports the lowest reason that applies; a bus error (other than
WORLD) with the root on changes nothing but the root's record, which keeps the first error, by key among those of one Trellis cycle, and
only sets MORE for another. A read of TRL_NODE_STATUS clears its counts. LOCK locks a
node, SNAP is set in a slow node only and ends with fresh values or SNAP_FAIL and kept copies, TRL_BUSERR_INFO is cleared whole by
its VALID bit, a replay is counted and the third failed one is fatal, and a root broadcast writes the register of
every node of a kind. What is left unchanged is stated with each. Cites R41, R42, R44, R45, R47, R50, R54, R56,
R395, R397. -/
def Obligations.ControlSpaceAccesses : Prop :=
  ∀ (s : State) (w : CtlWho) (off size : Nat) (v : BitVec 64), s.mode ≠ .m0 →
    let isError := fun (x : Except Nat CtlAt) e => match x with | .error n => n = e | .ok _ => False
    let answered := fun (t : State) (r : Nat) (d : BitVec 64) => t.emit (.ctl w r d)
    (∀ e, s.ctlFind w off size true = .error e → exec (.registerWrite w off size v 0) s = .next (answered (s.busError w off true e) e 0)) ∧
    (∀ e, s.ctlFind w off size false = .error e → exec (.registerRead w off size 0) s = .next (answered (s.busError w off false e) e 0)) ∧
    (∀ a, s.ctlFind w off size true = .ok a → exec (.registerWrite w off size v 0) s = .next (answered (s.ctlWriteAt w a v) 0 0)) ∧
    (∀ a, s.ctlFind w off size false = .ok a →
      exec (.registerRead w off size 0) s = .next (answered (s.ctlReadAt w a).2 0 (s.ctlReadAt w a).1)) ∧
    (∀ a, s.ctlFind w off size true = .ok a →
      exec (.registerWrite w off size v 2) s = .next (answered ((s.ctlWriteAt w a v).busError w off true 8) 8 0)) ∧
    (∀ a, s.ctlFind w off size false = .ok a →
      exec (.registerRead w off size 2) s = .next (answered ((s.ctlReadAt w a).2.busError w off false 8) 8 0)) ∧
    (let low := fun (write : Bool) (size own : Nat) => match s.ctlFind w off size write with | .error n => min n own | .ok _ => own
     exec (.registerWrite w off size v 1) s = .next (answered (s.busError w off true (low true size 8)) (low true size 8) 0) ∧
     exec (.registerRead w off size 1) s = .next (answered (s.busError w off false (low false size 8)) (low false size 8) 0) ∧
     (∀ write, exec (.trellisTimeout w off write) s = .next (answered (s.busError w off write (low write 8 7)) (low write 8 7) 0))) ∧
    (∀ write, (size ≠ 8 → isError (s.ctlFind w off size write) 1) ∧
      (size = 8 → off % 8 ≠ 0 → isError (s.ctlFind w off size write) 2) ∧
      (size = 8 → off % 8 = 0 → 11 ≤ off / 2 ^ 32 → off / 2 ^ 32 ≤ 14 → isError (s.ctlFind w off size write) 3)) ∧
    (∀ write e, s.mode ≠ .m1 → (s.mode = .m2 → 3 ≤ s.boot.step) → w.kind < 16 → e < 16 → e ≠ 6 →
      let u := s.busError w off write e
      let info := fun (x : State) f => x.fld 15 0 TRL_BUSERR_INFO [] f
      let valid := s.flag 15 0 TRL_BUSERR_INFO [] TRL_BUSERR_INFO_VALID
      let earlier := s.ctl.busCycle = some s.trellisCycle ∧
        w.kind * 2 ^ 16 + w.num % 2 ^ 16 < info s TRL_BUSERR_INFO_KIND * 2 ^ 16 + info s TRL_BUSERR_INFO_INITIATOR
      u = { s with regs := u.regs, ctl := u.ctl } ∧
      (valid = true → ¬ earlier → u = s.setFld 15 0 TRL_BUSERR_INFO [] TRL_BUSERR_INFO_MORE 1) ∧
      (valid = false ∨ earlier →
        info u TRL_BUSERR_INFO_REASON = e ∧ info u TRL_BUSERR_INFO_KIND = w.kind ∧ info u TRL_BUSERR_INFO_INITIATOR = w.num % 2 ^ 16 ∧
        info u TRL_BUSERR_INFO_VALID = 1 ∧ info u TRL_BUSERR_INFO_MORE = valid.toNat ∧ u.ctl = { s.ctl with busCycle := some s.trellisCycle } ∧
        u.reg 15 0 TRL_BUSERR_ADDR [] = BitVec.ofNat 64 (off % 2 ^ 36))) ∧
    (s.headerOn .root 15 = true → ∃ t, exec (.buserrClear w) s = .next t ∧ t = { s with regs := t.regs, out := s.out ++ [.ctl w 0 0] } ∧
      t.reg 15 0 TRL_BUSERR_INFO [] = 0 ∧ t.reg 15 0 TRL_BUSERR_ADDR [] = 0) ∧
    (∀ die unit c, s.nodeCls die unit = some c →
      let key := regKey die unit TRL_NODE_STATUS []
      (s.headerOn c die = true →
        (∃ t, exec (.lock w die unit) s = .next t ∧ t.locked die unit = true ∧ t = { s with regs := t.regs, out := s.out ++ [.ctl w 0 0] }) ∧
        exec (.snap w die unit) s = .next (answered (if c.slow then s.setFld die unit TRL_NODE_CTL [] TRL_NODE_CTL_SNAP 1 else s) 0 0) ∧
        (∃ t, exec (.registerRead w key 8 0) s = .next t ∧ t.fld die unit TRL_NODE_STATUS [] TRL_NODE_STATUS_GUARD_VIOL = 0 ∧
          t.fld die unit TRL_NODE_STATUS [] TRL_NODE_STATUS_LOCK_VIOL = 0 ∧
          t.fld die unit TRL_NODE_STATUS [] TRL_NODE_STATUS_SNAP_FAIL = s.fld die unit TRL_NODE_STATUS [] TRL_NODE_STATUS_SNAP_FAIL ∧
          t = { s with regs := t.regs, free := t.free, out := t.out })) ∧
      (s.mode ≠ .m1 → c ≠ .tsv →
        ∃ t, exec (.bwr die unit ERB_THRESH.off v) s = .next t ∧ t = { s with regs := t.regs, out := t.out } ∧
          (∀ d u, s.nodeCls d u = some c →
            t.fld d u ERB_THRESH [] ERB_THRESH_CE = (if v.toNat % 256 = 0 then 1 else v.toNat % 256)) ∧
          (∀ d u, s.nodeCls d u ≠ some c → d < 16 → u < 2 ^ 10 → t.reg d u ERB_THRESH [] = s.reg d u ERB_THRESH []))) ∧
    (∀ die unit,
      (s.flag die unit TRL_NODE_CTL [] TRL_NODE_CTL_SNAP = false → ∀ b, exec (.snapDone die unit b) s = .next s) ∧
      (s.flag die unit TRL_NODE_CTL [] TRL_NODE_CTL_SNAP = true → ∀ b, ∃ t, exec (.snapDone die unit b) s = .next t ∧
        t = { s with regs := t.regs, ctl := t.ctl, free := t.free } ∧ t.ctl.guard = s.ctl.guard ∧ t.flag die unit TRL_NODE_CTL [] TRL_NODE_CTL_SNAP = false ∧
        (b = true → t.flag die unit TRL_NODE_STATUS [] TRL_NODE_STATUS_SNAP_FAIL = true ∧
          ∀ r, (die, unit, r) ∈ slowRegs → ∃ x, tfind t.ctl.shadow (regKey die unit r []) = some x ∧ x.held.isSome = true) ∧
        (b = false → ∀ p ∈ t.ctl.shadow, p.1 / 2 ^ 22 ≠ die * 2 ^ 10 + unit)) ∧
      (∀ fails,
        let u := s.errCorrected die unit 0 0
        exec (.trellisReplay die unit fails) s = .next (if s.mode = .m1 then s else if 3 ≤ fails then u.fatal die unit 4 0 0 else u)))

/-- For a guarded register that answers: the first write arms it with its value, initiator and time and changes no
register; the complement from the same initiator within 2,560 ns commits the value; every other outcome of Table 2-5
(another value, another initiator, not armed, a window that has passed, a new first write) discards the pending
pair, leaves the register and counts one violation, and a second write after its window counts two. Every write
completes without a bus error. ERB_INJ_CTL commits as an injection, WW_WDOG_KICK restarts the watchdog. A window's
expiry does nothing to a register that is not armed. Cites R51, R52, R593, R508. -/
def Obligations.GuardedPairs : Prop :=
  ∀ (s : State) (w : CtlWho) (node : Option (Nat × Nat)) (v : BitVec 64),
    let k := guardKey node
    let place := node.getD (15, 2)
    let die := place.1
    let unit := place.2
    let r := if node.isSome then ERB_INJ_CTL else WW_WDOG_KICK
    let viol := fun (x : State) => x.fld die unit TRL_NODE_STATUS [] TRL_NODE_STATUS_GUARD_VIOL
    let more := fun (n : Nat) => min (n + 1) (2 ^ 32 - 1)
    let ok := fun (x : Except Nat CtlAt) => match x with | .ok _ => True | .error _ => False
    let arm := Instr.guardArm w node v
    let commit := Instr.guardCommit w node v
    unit < 2 ^ 10 → s.mode ≠ .m0 →
    (tfind s.ctl.guard k = none → exec (.guardWindowExpiry node) s = .next s) ∧
    (∀ g, tfind s.ctl.guard k = some g → ∃ t, exec (.guardWindowExpiry node) s = .next t ∧ tfind t.ctl.guard k = none ∧
      viol t = more (viol s) ∧ t = { s with regs := t.regs, ctl := t.ctl } ∧ t.reg die unit r [] = s.reg die unit r []) ∧
    (ok (s.ctlFind w k 8 true) → ok (s.ctlFind w (k + 8) 8 true) →
      (∃ t, exec arm s = .next t ∧ tfind t.ctl.guard k = some { who := w, value := v, time := s.time } ∧
        t = { s with regs := t.regs, ctl := t.ctl, out := s.out ++ [.ctl w 0 0] } ∧
        t.reg die unit r [] = s.reg die unit r [] ∧
        (tfind s.ctl.guard k = none → t.regs = s.regs) ∧ (tfind s.ctl.guard k ≠ none → viol t = more (viol s))) ∧
      (tfind s.ctl.guard k = none → ∃ t, exec commit s = .next t ∧ viol t = more (viol s) ∧
        t = { s with regs := t.regs, out := s.out ++ [.ctl w 0 0] } ∧ t.reg die unit r [] = s.reg die unit r []) ∧
      (∀ g, tfind s.ctl.guard k = some g →
        let inTime := s.time ≤ g.time + 2560
        let good := inTime ∧ g.who.kind = w.kind ∧ g.who.num = w.num ∧ v = ~~~ g.value
        let dropped : State := { s with ctl := { s.ctl with guard := terase s.ctl.guard k } }
        (good → node = none → exec commit s = .next ((dropped.setReg 15 2 WW_WDOG_KICK [] g.value).wdogKick.emit (.ctl w 0 0))) ∧
        (good → node ≠ none → ∃ c, s.nodeCls die unit = some c ∧
          exec commit s = .next ((dropped.injCommit c die unit g.value).emit (.ctl w 0 0))) ∧
        (¬ good → ∃ t, exec commit s = .next t ∧ tfind t.ctl.guard k = none ∧
          viol t = (if inTime then more (viol s) else more (more (viol s))) ∧
          t = { s with regs := t.regs, ctl := t.ctl, out := s.out ++ [.ctl w 0 0] } ∧ t.reg die unit r [] = s.reg die unit r [])))

/-- On PM-8512-A1, with the Walled-world node powered: an Open write to it is a bus error WORLD; a Walled write of
WW_RANGEn is discarded with REFUSED when it enables a span outside one MEM_RANGE or with LIMIT below BASE, else
stored; one of WW_CTL that names no core is discarded with REFUSED, else binds the monitor queue; starting the
watchdog sets EN, its count to 0 and a legal period, and starting it again changes neither count nor period. The
warning is given once when the time left reaches WARN_MS; at the end of the count the device warm-resets with
EXPIRED set (unless an event of higher rank came in the same Trellis cycle), after a scrub where a Walled range is enabled. GH_MEXT_CTL extends slots 8 to 15 with sha384 of the
slot and the digest, and no other slot. Cites R497, R502, R504, R508, R509, R567. -/
def Obligations.WalledWorldNode : Prop :=
  ∀ (s : State) (w : CtlWho) (n slot : Nat) (v : BitVec 64), n < 16 → s.part = .a1 →
    let ww := fun (x : State) f => x.fld 15 2 WW_STATUS [] f
    let lc := v.toNat % 2 ^ 10
    let base := v.toNat % 2 ^ 27
    let limit := v.toNat / 2 ^ 27 % 2 ^ 27
    let spans := base ≤ limit ∧ ∃ k < 4, (s.memRange k).toNat / 2 ^ 44 % 4 ≠ 0 ∧ (s.memRange k).toNat % 2 ^ 22 ≤ base / 32 ∧
      limit / 32 ≤ (s.memRange k).toNat / 2 ^ 22 % 2 ^ 22
    let keep := fun (t : State) => t = { s with regs := t.regs, out := s.out ++ [.ctl w 0 0] }
    (s.headerOn .ww 15 = true → w.walled = false →
      ∀ r ∈ [regKey 15 2 WW_RANGE [n], regKey 15 2 WW_CTL [], regKey 15 2 WW_WDOG_CTL []],
        ∃ t, exec (.registerWrite w r 8 v 0) s = .next t ∧ t.out.getLast? = some (.ctl w 6 0)) ∧
    (s.headerOn .ww 15 = true → w.walled = true →
      ((v.getLsbD 54 = true → spans) →
        ∃ t, exec (.wwRangeWrite w n v) s = .next t ∧ keep t ∧ t.reg 15 2 WW_RANGE [n] = v &&& 0x7FFFFFFFFFFFFF) ∧
      (v.getLsbD 54 = true → ¬ spans →
        ∃ t, exec (.wwRangeWrite w n v) s = .next t ∧ keep t ∧ t.reg 15 2 WW_RANGE [n] = s.reg 15 2 WW_RANGE [n] ∧ ww t WW_STATUS_REFUSED = 1) ∧
      (s.coreExists lc = false →
        ∃ t, exec (.moncoreWrite w v) s = .next t ∧ keep t ∧ t.reg 15 2 WW_CTL [] = s.reg 15 2 WW_CTL [] ∧ ww t WW_STATUS_REFUSED = 1) ∧
      (s.coreExists lc = true → ∃ t, exec (.moncoreWrite w v) s = .next t ∧ keep t ∧ t.fld 15 2 WW_CTL [] WW_CTL_MONCORE = lc ∧
        (s.qEn monQueue = true → t.qf monQueue URN_QBASE URN_QBASE_ITARGET = lc ∧ t.qf monQueue URN_QCFG URN_QCFG_IBEN = 1)) ∧
      (let p := v.toNat / 2 ^ 8 % 2 ^ 16
       let wd := fun (x : State) f => x.fld 15 2 WW_WDOG_CTL [] f
       (s.wdogOn = false → ∃ t, exec (.watchdogStart w v) s = .next t ∧ t.wdogOn = true ∧ t.wdog = 0 ∧
         wd t WW_WDOG_CTL_PERIOD_MS = (if 1 ≤ p ∧ p ≤ 60000 then p else wd s WW_WDOG_CTL_PERIOD_MS) ∧
         t.fld 15 2 WW_WDOG_STATUS [] WW_WDOG_STATUS_KICKS = 0) ∧
       (s.wdogOn = true → ∃ t, exec (.watchdogStart w v) s = .next t ∧ keep t ∧
         wd t WW_WDOG_CTL_PERIOD_MS = wd s WW_WDOG_CTL_PERIOD_MS ∧ wd t WW_WDOG_CTL_EN = 1))) ∧
    (let warn := s.fld 15 2 WW_WDOG_CTL [] WW_WDOG_CTL_WARN_MS
     let due := s.wdogOn = true ∧ s.wdogWarned = false ∧ warn ≠ 0 ∧ s.wdogLeft ≤ warn * 1000000
     (due → ∃ t, exec .wdogWarn s = .next t ∧ t.wdogWarned = true ∧ ww t WW_STATUS_WARNED = 1) ∧ (¬ due → exec .wdogWarn s = .next s)) ∧
    (let due := s.wdogOn = true ∧ s.mode.wdogRuns = true ∧ s.wdogLeft = 0 ∧ s.boot.scrub = false ∧ s.outranked 2 = false
     (¬ due → exec .watchdogExpiry s = .next s) ∧
     (due → ∃ t, exec .watchdogExpiry s = .next t ∧ t.fld 15 2 WW_WDOG_STATUS [] WW_WDOG_STATUS_EXPIRED = 1 ∧
       (s.anyWalled = false → t.mode = .m2) ∧
       (s.anyWalled = true → t.mode = s.mode ∧ t.boot.scrub = true ∧ ∀ c ∈ t.mem, s.walledLine (c.1 / 2 ^ 39) (c.1 % 2 ^ 39 / 128) = false))) ∧
    (s.boot.scrub = false → exec .walledScrubDone s = .next s) ∧
    (s.boot.scrub = true → ∃ t, exec .walledScrubDone s = .next t ∧ t.mode = .m2 ∧ t.boot.scrub = false ∧ t.mem = s.mem ∧
      t.fld 15 2 WW_WDOG_STATUS [] WW_WDOG_STATUS_EXPIRED = s.fld 15 2 WW_WDOG_STATUS [] WW_WDOG_STATUS_EXPIRED) ∧
    (s.headerOn .gh 15 = true → w.walled = true →
      let d := (List.range 48).map (fun i => (s.reg 15 1 GH_MEXT_D [i / 8]).toNat / 2 ^ (8 * (i % 8)) % 256)
      ∃ t, exec (.measurementExtend w slot) s = .next t ∧ keep t ∧
        (∀ m < 16, (m ≠ slot % 16 ∨ m < 8) → t.measSlot m = s.measSlot m) ∧
        (8 ≤ slot % 16 → t.regs = ((s.setFld 15 1 GH_MEXT_CTL [] GH_MEXT_CTL_SLOT (slot % 16)).measExtend (slot % 16) d).regs))

/-- With rounds off, or on a socket that follows another source, a ROUND is without effect; else the next round is announced for the tick
START + k * PERIOD_US * 1,000 with its buffer, and to every joined socket by socket 0, or only counted as MISSED when the tick, by the own
timebase, is less than 10 us ahead. At the tick every unit that is there and not late writes its record and has its COMPLETE bit; 50 us later
the header is written, words 2 to 15, then word 1, then word 0, each after the Cmp of the last; when all of it has been written LAST_SEQ takes
the round's number and VALID is set. Before these times the commands are without effect. CLEAR empties the trace buffer of a stop. Cites R551,
R552, R553, R554, R555, R556, R558. -/
def Obligations.CounterRounds : Prop :=
  ∀ (s : State) (remote : Option (Nat × Nat)) (late : List Nat) (die st : Nat),
    let rf := fun (x : State) f => x.fld 15 0x004 CNT_RND_CTL [] f
    let rs := fun (x : State) f => x.fld 15 0x004 CNT_RND_STATUS [] f
    let follows := rf s CNT_RND_CTL_SYNC ≠ 0 ∧ s.socketId ≠ 0
    let off := rf s CNT_RND_CTL_EN = 0 ∨ ¬ (remote ≠ none ↔ follows)
    let own := (s.rnd.next, s.fld 15 0x004 CNT_RND_START [] CNT_RND_START_START + s.rnd.next * rf s CNT_RND_CTL_PERIOD_US * 1000)
    let k := (remote.getD own).1
    let tick := (remote.getD own).2
    let buffer := s.fld 15 0x004 CNT_RND_BASE [] CNT_RND_BASE_BASE * 2 ^ 17 + k % 2 ^ rf s CNT_RND_CTL_LOG2B * 2 ^ 17
    let at_ := if remote.isSome then (tick + (s.reg 15 3 CLK_TS_OFFSET []).toNat) % 2 ^ 64 else tick
    (off → exec (.round remote) s = .next s) ∧
    (¬ off → at_ < s.time + 10000 → ∃ t, exec (.round remote) s = .next t ∧ t = { s with regs := t.regs, rnd := { s.rnd with next := k + 1 } } ∧
      rs t CNT_RND_STATUS_MISSED = min (rs s CNT_RND_STATUS_MISSED + 1) (2 ^ 16 - 1)) ∧
    (¬ off → s.time + 10000 ≤ at_ → ∃ t, exec (.round remote) s = .next t ∧ t = { s with rnd := t.rnd, out := t.out } ∧
      t.rnd.next = k + 1 ∧
      t.rnd.rounds = s.rnd.rounds ++ [{ k := k, tick := tick, own := at_, buffer := buffer, latched := false, complete := 0, header := [], left := [] }] ∧
      t.out = s.out ++ (if s.socketId = 0 then
        ((List.range 8).filter (fun n => n != 0 && s.fbReach n)).map (fun n => Out.footbridge n 3 [k, tick]) else [])) ∧
    (let first := s.rnd.rounds.find? (fun r => !r.latched)
     (first = none → exec (.roundLatch late) s = .next s) ∧
     ∀ r, first = some r →
       (s.time < r.own → exec (.roundLatch late) s = .next s) ∧
       (r.own ≤ s.time → ∃ recs : List (Nat × Bool × Nat × Nat × List (BitVec 64)), ∃ c,
         (∀ i u, (i, u) ∈ recs ↔ i < 838 ∧ i ∉ late ∧ s.rndUnit i = some u) ∧
         (∀ i < 838, c / 2 ^ i % 2 = (if i ∉ late ∧ (s.rndUnit i).isSome then 1 else 0)) ∧
         exec (.roundLatch late) s = .next (recs.foldl (fun (x : State) p => x.rndRecord r p)
           { s with rnd := { s.rnd with rounds := s.rnd.rounds.map (fun x => if x.k = r.k then { x with latched := true, complete := c } else x) } }))) ∧
    (s.rnd.rounds = [] → exec .roundHeaderWrite s = .next s) ∧
    (∀ r rest, s.rnd.rounds = r :: rest →
      let header := s.rndHeader r
      let p := ({ s with rnd := { s.rnd with rounds := { r with header := header, left := [(2, 14), (1, 1), (0, 1)] } :: rest } } : State).headerPut
        (r.buffer / 128) header [(2, 14), (1, 1), (0, 1)]
      (header.length = 16 ∧ header.getD 0 Word.zero = Word.data (BitVec.ofNat 64 r.tick)) ∧
      ((r.latched = false ∨ s.time < r.own + 50000 ∨ r.left ≠ []) → exec .roundHeaderWrite s = .next s) ∧
      (r.latched = true → r.own + 50000 ≤ s.time → r.left = [] →
        (p.1 ≠ [] → exec .roundHeaderWrite s = .next
          { p.2 with rnd := { p.2.rnd with rounds := { r with header := header, left := p.1 } :: rest } }) ∧
        (p.1 = [] → ∃ t, exec .roundHeaderWrite s = .next t ∧ t = { p.2 with rnd := { p.2.rnd with rounds := rest }, regs := t.regs } ∧
          rs t CNT_RND_STATUS_LAST_SEQ = r.k % 2 ^ 32 ∧ rs t CNT_RND_STATUS_VALID = 1))) ∧
    (die < 10 → ∃ t, exec (.clear die st) s = .next t ∧ t = { s with regs := t.regs } ∧
      t.stopFld die st CNT_TRC_CTL CNT_TRC_CTL CNT_TRC_CTL_I [] CNT_TRC_CTL_FULL = 0 ∧
      t.stopFld die st CNT_TRC_CTL CNT_TRC_CTL CNT_TRC_CTL_I [] CNT_TRC_CTL_PTR = 0)

/-- For a core or kiosk: an operation on a queue that is not enabled answers NO_QUEUE, one that Table 13-3 refuses
DENIED, a single-word form of a queue of longer entries SIZE. A push to a queue with room places the entry in the
caddy at TAIL, advances TAIL and answers OK; to a full lossless queue FULL, or it waits; to a full best-effort queue
the new or the oldest entry is dropped, counted, and it answers DROPPED; an entry to be placed that finds no
caddy room waits. A pop or peek of an empty queue answers
EMPTY or the pop waits; of another it answers the head entry, and the pop advances HEAD. A wait on a queue with an
entry answers OK. Every operation that passes the checks counts in SEQ (log entry 100). A wait with 1,024 others waiting is
not made and sets WAIT_OVF. A caddy entry's write-back writes
it to its ring and, when that is done, frees its slots; pushes that wait for caddy space are tried then. Cites R158, R161, R162, R403, R404, R407, R411. -/
def Obligations.UrnOperations : Prop :=
  ∀ (s : State) (who : QWho) (q half : Nat) (ws : List Word) (wait single : Bool), q < 65536 → half < 2 →
    ((∃ lc, who = .core lc) ∨ ∃ k n, who = .kiosk k n) →
    let r := s.urnReq who
    let h := qHalf q
    let u := s.urnHalf h
    let push := Instr.urnPush who q ws wait single
    let pop := Instr.urnPop who q wait single
    let peek := Instr.urnPeek who q single
    let look := Instr.urnWait who q
    let may := fun (p : Bool) => s.qEn q = true ∧ s.qAllowed q r p = true
    let sized := single = true → s.qWords q = 1
    let busy := 1024 ≤ (u.waiting.filter (fun x => !x.caddy)).length
    let queued := fun (k : WaitKind) (l : List Word) => s.setUrn h { u with waiting := u.waiting ++ [⟨who, k, q, l, false, false, true⟩] }
    let ovf := (s.setFld (8 + h) 0x030 URN_STATUS [] URN_STATUS_WAIT_OVF 1).qOp q
    let told := fun (t : State) (st : Nat) (l : List Word) => ∃ a, t.urnAns = s.urnAns ++ [a] ∧ a.who = who ∧ a.status = st ∧ a.words = l
    let entry := ws.take (s.qWords q)
    let next := fun (n : Nat) => (n + 1) % 2 ^ 21
    let drops := fun (t : State) => t.qf q URN_QSTAT URN_QSTAT_DROPS
    (s.qEn q = false → ∀ i ∈ [push, pop, peek, look], exec i s = .next (s.answer who q 7 [])) ∧
    (s.qEn q = true → s.qAllowed q r true = false → exec push s = .next (s.answer who q 6 [])) ∧
    (s.qEn q = true → s.qAllowed q r false = false → ∀ i ∈ [pop, peek, look], exec i s = .next (s.answer who q 6 [])) ∧
    (may true → ¬ sized → exec push s = .next (s.answer who q 8 [])) ∧
    (may false → ¬ sized → exec pop s = .next (s.answer who q 8 []) ∧ exec peek s = .next (s.answer who q 8 [])) ∧
    (may true → sized → s.qContract q = none → (s.qFull q = false → s.qCount q ≠ 0) →
      (s.qFull q = false → u.caddyRoom false entry.length = true → ∃ t, exec push s = .next t ∧ told t 0 [] ∧ s.qHead q = t.qHead q ∧
        t.qTail q = next (s.qTail q) ∧ (t.urnHalf h).caddy = u.caddy ++ [⟨q, s.qTail q, entry, false⟩]) ∧
      (s.qFull q = true → s.qf q URN_QCFG URN_QCFG_CLASS = 0 →
        (wait = false → ∃ t, exec push s = .next t ∧ told t 2 [] ∧ t.qHead q = s.qHead q ∧ t.qTail q = s.qTail q ∧ t.urn = s.urn) ∧
        (wait = true → ¬ busy → ∃ t, exec push s = .next t ∧ t.urnAns = s.urnAns ∧ t.qTail q = s.qTail q ∧
          (t.urnHalf h).waiting = u.waiting ++ [⟨who, .push, q, entry, false, false, true⟩]) ∧
        (wait = true → busy → ∃ t, exec push s = .next t ∧ told t 2 [] ∧ t.urn = s.urn ∧
          t.flag (8 + h) 0x030 URN_STATUS [] URN_STATUS_WAIT_OVF = true)) ∧
      ((s.qFull q = false ∨ (s.qf q URN_QCFG URN_QCFG_CLASS ≠ 0 ∧ s.qf q URN_QCFG URN_QCFG_POLICY ≠ 0)) →
        u.caddyRoom false entry.length = false → ∃ t, exec push s = .next t ∧ t.urnAns = s.urnAns ∧
          t.qHead q = s.qHead q ∧ t.qTail q = s.qTail q ∧
          t.urnHalf h = { u with waiting := u.waiting ++ [⟨who, .push, q, entry, true, false, wait⟩] }) ∧
      (s.qFull q = true → s.qf q URN_QCFG URN_QCFG_CLASS ≠ 0 → s.qf q URN_QCFG URN_QCFG_POLICY = 0 →
        ∃ t, exec push s = .next t ∧ told t 3 [] ∧ t.qHead q = s.qHead q ∧ t.qTail q = s.qTail q ∧ t.urn = s.urn ∧
          drops t = min (drops s + 1) (2 ^ 24 - 1)) ∧
      (s.qFull q = true → s.qf q URN_QCFG URN_QCFG_CLASS ≠ 0 → s.qf q URN_QCFG URN_QCFG_POLICY ≠ 0 → 2 ≤ s.qCap q →
        u.caddyRoom false entry.length = true → ∃ t, exec push s = .next t ∧ told t 3 [] ∧ t.qHead q = next (s.qHead q) ∧
          t.qTail q = next (s.qTail q) ∧ drops t = min (drops s + 1) (2 ^ 24 - 1))) ∧
    (may false → sized → s.qCount q = 0 →
      exec peek s = .next ((s.qOp q).answer who q 1 []) ∧
      (wait = false → exec pop s = .next ((s.qOp q).answer who q 1 [])) ∧
      (wait = true → ¬ busy → exec pop s = .next (queued .pop [])) ∧
      (wait = true → busy → exec pop s = .next (ovf.answer who q 1 []))) ∧
    (may false → (s.qCount q ≠ 0 → exec look s = .next ((s.qOp q).answer who q 0 [])) ∧
      (s.qCount q = 0 → ¬ busy → exec look s = .next (queued .wait [])) ∧
      (s.qCount q = 0 → busy → exec look s = .next (ovf.answer who q 1 []))) ∧
    (∀ x, may false → sized → s.qCount q ≠ 0 → u.caddyFind q (s.qHead q) = some x →
      exec peek s = .next ((s.qOp q).answer who q 0 x) ∧
      (u.waiting = [] → u.hold = [] → iqOwner q = none → ∃ t, exec pop s = .next t ∧ told t 0 x ∧ t.urn = s.urn ∧
        t.qHead q = next (s.qHead q) ∧ t.qTail q = s.qTail q ∧ t.qSeq q = (s.qSeq q + 1) % 2 ^ 16)) ∧
    (let v := s.urnHalf half
     let go := Instr.caddyWritebackDone half
     (v.caddy = [] → exec go s = .next s) ∧
     ∀ e rest, v.caddy = e :: rest →
       let p := s.ringWrite e.queue e.idx e.words
       let w := p.2.urnHalf half
       exec go s = .next ((if p.1 then p.2.setUrn half { w with caddy := w.caddy.erase e } else p.2).caddyRetryAll half))

/-- A doorbell write of a wrong size or length, to a queue not enabled or refused by Table 13-3 is discarded and
counted; to a queue with room it pushes its words as data; to a full lossless queue it is held, to a full best-
effort queue with POLICY 0 dropped and counted twice. A write that finds the hold full, or others before it in its root
port, waits there. A write to the MSI window of another size or offset sets
MSI_BAD; else it pushes an entry of KIND 0x04 with the requester ID and the data. A held entry is discarded only
after HOLD_US. A queue is enabled with HEAD and TAIL 0 when its descriptor meets Table 13-2, else refused with the
failing row; while it is enabled its BASE cannot be changed; disabling it clears EN. An admission always ends with
DONE; one that succeeds makes a new contract of the queue. A withdrawal frees the queue. Cites R399, R400, R401,
R402, R410, R411, R422, R427, R470. -/
def Obligations.UrnDevicesAndDescriptors : Prop :=
  ∀ (s : State) (q n i rid off data half : Nat) (walled sized late pl3 : Bool) (ws : List (BitVec 64)) (v : BitVec 64),
    q < 65536 → n < 64 → i < 2 → half < 2 →
    let h := qHalf q
    let u := s.urnHalf h
    let bell := Instr.doorbell rid walled q ws sized late
    let r : QReq := ⟨.function rid, walled, 3, none⟩
    let good := sized = true ∧ s.qEn q = true ∧ ws.length = s.qWords q ∧ s.qAllowed q r true = true
    let drops := fun (x : State) => x.qf q URN_QSTAT URN_QSTAT_DROPS
    let bells := fun (x : State) => x.fld (8 + h) 0x030 URN_DROPS [] URN_DROPS_DB
    let stays := fun (g : Nat) (i : Instr) (w : PortWrite) =>
      ∃ t, exec i s = .next t ∧ (t.urnHalf g).ports = (s.urnHalf g).ports ++ [w] ∧ t = { s with urn := t.urn }
    let ring := PortWrite.doorbell rid walled q ws sized late
    (u.ports ≠ [] → stays h bell ring) ∧
    (u.ports = [] → ¬ good → exec bell s = .next (s.addFld (8 + h) 0x030 URN_DROPS [] URN_DROPS_DB 1)) ∧
    (u.ports = [] → good → s.qContract q = none →
      (s.qFull q = false → s.qCount q ≠ 0 → u.caddyRoom false ws.length = true → ∃ t, exec bell s = .next t ∧
        t.qHead q = s.qHead q ∧ t.qTail q = (s.qTail q + 1) % 2 ^ 21 ∧
        (t.urnHalf h).caddy = u.caddy ++ [⟨q, s.qTail q, ws.map Word.data, false⟩] ∧ t = { s with regs := t.regs, urn := t.urn }) ∧
      (s.qFull q = true → s.qf q URN_QCFG URN_QCFG_CLASS = 0 → u.hold.length < 256 →
        ∃ t, exec bell s = .next t ∧ t = { s with regs := t.regs, urn := t.urn } ∧
          (t.urnHalf h).hold = u.hold ++ [⟨q, ws.map Word.data, false, false, s.time⟩] ∧ t.qTail q = s.qTail q) ∧
      (s.qFull q = true → s.qf q URN_QCFG URN_QCFG_CLASS = 0 → 256 ≤ u.hold.length → stays h bell ring) ∧
      (s.qFull q = true → s.qf q URN_QCFG URN_QCFG_CLASS ≠ 0 → s.qf q URN_QCFG URN_QCFG_POLICY = 0 → ∃ t, exec bell s = .next t ∧
        t = { s with regs := t.regs } ∧ t.qTail q = s.qTail q ∧ drops t = min (drops s + 1) (2 ^ 24 - 1) ∧
        bells t = min (bells s + 1) (2 ^ 16 - 1))) ∧
    (let lc := off / 4096
     let m := iqNum lc
     let w := s.urnHalf (qHalf m)
     let w0 : BitVec 64 := BitVec.ofNat 64 (4 + rid % 2 ^ 16 * 2 ^ 16 + data % 2 ^ 32 * 2 ^ 32)
     let go := Instr.msi i rid off data sized
     ((sized = false ∨ off % 4096 ≠ 0) → exec go s = .next (s.setFld (8 + i) 0x039 IOM_STATUS [] IOM_STATUS_MSI_BAD 1)) ∧
     (sized = true → off % 4096 = 0 → s.coreExists lc = true → w.ports ≠ [] → stays (qHalf m) go (.msi lc rid data)) ∧
     (sized = true → off % 4096 = 0 → s.coreExists lc = true → s.qEn m = true → w.ports = [] →
       (s.iqRoom m 4 = true → w.caddyRoom false 2 = true → s.qCount m ≠ 0 → w.waiting = [] → ∃ t, exec go s = .next t ∧
         (t.urnHalf (qHalf m)).caddy = w.caddy ++ [⟨m, s.qTail m, [Word.data w0, Word.data (BitVec.ofNat 64 s.time)], false⟩] ∧
         t.qTail m = (s.qTail m + 1) % 2 ^ 21 ∧ t = { s with regs := t.regs, urn := t.urn }) ∧
       (s.iqRoom m 4 = false → w.hold.length < 256 → ∃ t, exec go s = .next t ∧ t = { s with urn := t.urn } ∧
         (t.urnHalf (qHalf m)).hold = w.hold ++ [⟨m, [Word.data w0], true, false, s.time⟩]) ∧
       (s.iqRoom m 4 = false → 256 ≤ w.hold.length → stays (qHalf m) go (.msi lc rid data)))) ∧
    (let w := s.urnHalf half
     let limit := s.fld (8 + half) 0x030 URN_CTL [] URN_CTL_HOLD_US * 1000
     w.ports = [] →
       ((∀ e ∈ w.hold, s.time - e.since ≤ limit) →
         ∃ t, exec (.holdExpiry half) s = .next t ∧ (t.urnHalf half).hold = w.hold ∧ t = { s with urn := t.urn }) ∧
       (∀ e, w.hold = [e] → limit < s.time - e.since →
         exec (.holdExpiry half) s = .next ((s.setUrn half { w with hold := [] }).holdDiscard e.queue))) ∧
    (s.reg (8 + h) 0x030 URN_QCFG [qIdx q] &&& 1 = 0 →
      let old := s.reg (8 + h) 0x030 URN_QCFG [qIdx q]
      let cfg := (if s.part = .a1 then v ||| 1 else ((v ||| 1) &&& ~~~0x10000) ||| (old &&& 0x10000)) &&& 0xFFFFFFFF00FFFFFF
      let check := s.enableFail cfg (s.reg (8 + h) 0x030 URN_QBASE [qIdx q])
      (∀ code, check = some code → ∃ t, exec (.queueEnable q v true) s = .next t ∧ t = { s with regs := t.regs } ∧
        t.flag (8 + h) 0x030 URN_STATUS [] URN_STATUS_REFUSED = true ∧ t.fld (8 + h) 0x030 URN_STATUS [] URN_STATUS_REASON = code ∧
        t.reg (8 + h) 0x030 URN_QCFG [qIdx q] = s.reg (8 + h) 0x030 URN_QCFG [qIdx q]) ∧
      (check = none → (∀ e ∈ u.hold, e.queue ≠ q) → ∃ t, exec (.queueEnable q v true) s = .next t ∧ t = { s with regs := t.regs, urn := t.urn } ∧
        t.reg (8 + h) 0x030 URN_QCFG [qIdx q] = cfg ∧ t.qEn q = true ∧ t.qHead q = 0 ∧ t.qTail q = 0 ∧
        t.reg (8 + h) 0x030 URN_QSTAT [qIdx q] = 0) ∧
      exec (.queueDescriptorWrite q true v walled) s = .next (s.setReg (8 + h) 0x030 URN_QBASE [qIdx q] (v &&& 0x3FFFFFFFFFFFFF80))) ∧
    (s.qEn q = true → v.toNat / 2 ^ 7 % 2 ^ 45 ≠ s.qf q URN_QBASE URN_QBASE_BASE →
      ∃ t, exec (.queueDescriptorWrite q true v walled) s = .next t ∧ t = { s with regs := t.regs } ∧
        t.reg (8 + h) 0x030 URN_QBASE [qIdx q] = s.reg (8 + h) 0x030 URN_QBASE [qIdx q] ∧
        t.fld (8 + h) 0x030 URN_STATUS [] URN_STATUS_REASON = 1) ∧
    (s.reg (8 + h) 0x030 URN_QCFG [qIdx q] &&& 0xFF000000 = 0 → ∃ t, exec (.queueDisable q) s = .next t ∧ t.qEn q = false) ∧
    (let req := s.tsvReq
     ∃ t, exec (.admitContract walled pl3) s = .next t ∧ t.flag 8 0x031 TSV_STATUS [] TSV_STATUS_DONE = true ∧
       ((∀ k < 64, s.cf k TSV_CCFG TSV_CCFG_VALID = 1) → t.fld 8 0x031 TSV_STATUS [] TSV_STATUS_REASON = 1 ∧ t = { s with regs := t.regs }) ∧
       (req.skind ≠ 3 → t.fld 8 0x031 TSV_STATUS [] TSV_STATUS_REASON = 0 →
         ∃ k < 64, s.cf k TSV_CCFG TSV_CCFG_VALID = 0 ∧ t.cf k TSV_CCFG TSV_CCFG_VALID = 1 ∧ t.cf k TSV_CCFG TSV_CCFG_QUEUE = req.queue ∧
           t.qContract req.queue = some k ∧ s.qContract req.queue = none)) ∧
    (s.cf n TSV_CCFG TSV_CCFG_VALID = 0 → exec (.withdraw n) s = .next (s.setFld 8 0x031 TSV_CMD [] TSV_CMD_NUM n)) ∧
    (s.cf n TSV_CCFG TSV_CCFG_VALID = 1 → ∃ t, exec (.withdraw n) s = .next t ∧ t.cf n TSV_CCFG TSV_CCFG_VALID = 0 ∧
      t.cf n TSV_CCFG TSV_CCFG_WREASON = 1 ∧ t.qContract (s.cf n TSV_CCFG TSV_CCFG_QUEUE) = none ∧
      t.flag 8 0x031 TSV_STATUS [] TSV_STATUS_DONE = true)

/-- For a kiosk that runs its next instruction (its word is one that the kiosk decodes, and no context is being stopped): each ALU, immediate and tag instruction whose must-be-zero bits are zero
writes its result to rd, poison when an operand is poison, goes on to the next instruction and changes nothing else
but a hub cluster's instruction count; with wrong bits it raises ILLEGAL, a privileged tag instruction below KP1
PRIVILEGE. k0 reads as the zero word and discards writes; a written register reads back; the others keep their
value. A division enters the divider with its operands and writes rd when it completes. A kiosk that runs nothing is
unchanged. Cites R435, R440, R449, R60, R111. -/
def Obligations.KioskResults : Prop :=
  ∀ (s : State) (k : Nat) (o : KR) (i : KI),
    let a := s.kr k o.ra
    let b := s.kr k o.rb
    let c := s.kr k i.ra
    let d := s.kr k i.rd
    let x := a.val
    let y := b.val
    let sh := y.toNat % 64
    let num := fun (n : Nat) => Word.data (BitVec.ofNat 64 n)
    let bool := fun (p : Bool) => num p.toNat
    let imm : BitVec 64 := i.imm.signExtend 64
    let n := i.imm.toNat
    let of := fun (ws : List Word) (w : Word) => match firstPoison ws with | some code => Word.poison code | none => w
    let gives := fun (ins : Instr) (rd : BitVec 4) (w : Word) => exec ins s = .next ((s.setKr k rd w).kNext k .seq)
    let raises := fun (ins : Instr) (e : KExc) => exec ins s = .next (s.kRaise k e ((s.ksk k).at (s.ksk k).cur))
    let alu : List (Instr × Word) := [(.kioskAdd k o, addWords a b), (.kioskSub k o, .data (x - y)), (.kioskAnd k o, .data (x &&& y)),
      (.kioskOr k o, .data (x ||| y)), (.kioskXor k o, .data (x ^^^ y)), (.kioskAndn k o, .data (x &&& ~~~ y)),
      (.kioskShl k o, .data (x <<< sh)), (.kioskShr k o, .data (x >>> sh)), (.kioskSra k o, .data (x.sshiftRight sh)),
      (.kioskMin k o, .data (if x.toInt ≤ y.toInt then x else y)), (.kioskMax k o, .data (if x.toInt ≤ y.toInt then y else x)),
      (.kioskMinu k o, num (min x.toNat y.toNat)), (.kioskMaxu k o, num (max x.toNat y.toNat)),
      (.slt k o, bool (decide (x.toInt < y.toInt))), (.sltu k o, bool (decide (x.toNat < y.toNat))),
      (.kioskMul k o, num (x.toNat * y.toNat)), (.kioskMulhu k o, num (x.toNat * y.toNat / 2 ^ 64))]
    let one : List (Instr × Word) := [(.kioskMov k o, if s.kp1 k = false ∧ a.isSystem = true then .data x else a),
      (.kioskClz k o, .data (clz64 x)), (.kioskPopc k o, num (((List.range 64).filter (fun j => x.getLsbD j)).length)),
      (.kioskRev k o, .data (rev64 x))]
    let tag : List (Instr × Word) := [(.kioskClass k o, num a.tag.toNat), (.kioskMkdata k o, .data x)]
    let priv : List (Instr × Word) := [(.kioskMkptr k o, .pointer x), (.kioskMksys k o, .system x 1)]
    (k < 512 → s.kRuns k = false → ∀ p ∈ alu ++ one ++ tag ++ priv, exec p.1 s = .next s) ∧
    (s.kReady k [o.rd, o.ra, o.rb] none → ∀ p ∈ alu,
      (o.fn.toNat < 64 → gives p.1 o.rd (of [a, b] p.2)) ∧ (64 ≤ o.fn.toNat → raises p.1 KExc.illegal)) ∧
    (s.kReady k [o.rd, o.ra] none →
      (∀ p ∈ one, (o.fn.toNat < 64 → o.rb = 0 → gives p.1 o.rd (of [a] p.2)) ∧ ((64 ≤ o.fn.toNat ∨ o.rb ≠ 0) → raises p.1 KExc.illegal)) ∧
      (∀ p ∈ tag, (o.fn.toNat < 8 → o.rb = 0 → gives p.1 o.rd (of [a] p.2)) ∧ ((8 ≤ o.fn.toNat ∨ o.rb ≠ 0) → raises p.1 KExc.illegal)) ∧
      (∀ p ∈ priv, (o.fn.toNat < 8 → o.rb = 0 → s.kp1 k = true → gives p.1 o.rd (of [a] p.2)) ∧
        (o.fn.toNat < 8 → o.rb = 0 → s.kp1 k = false → raises p.1 KExc.privilege))) ∧
    (s.kReady k [o.rd] none →
      (o.ra = 0 → o.rb = 0 → o.fn.toNat < 8 → gives (.kioskPoison k o) o.rd (Word.poison 7)) ∧
      ((o.ra ≠ 0 ∨ o.rb ≠ 0 ∨ 8 ≤ o.fn.toNat) → raises (.kioskPoison k o) KExc.illegal)) ∧
    (s.kReady k [i.rd, i.ra] none →
      gives (.kioskAddi k i) i.rd (of [c] (addWords c (.data imm))) ∧ gives (.kioskAndi k i) i.rd (of [c] (.data (c.val &&& imm))) ∧
      gives (.kioskOri k i) i.rd (of [c] (.data (c.val ||| imm))) ∧ gives (.kioskXori k i) i.rd (of [c] (.data (c.val ^^^ imm))) ∧
      (n < 64 → gives (.kioskShli k i) i.rd (of [c] (.data (c.val <<< n))) ∧ gives (.kioskShri k i) i.rd (of [c] (.data (c.val >>> n))) ∧
        gives (.kioskSrai k i) i.rd (of [c] (.data (c.val.sshiftRight n)))) ∧
      (64 ≤ n → ∀ ins ∈ [Instr.kioskShli k i, .kioskShri k i, .kioskSrai k i], raises ins KExc.illegal)) ∧
    (s.kReady k [i.rd] none →
      (i.ra ≠ 0 → raises (.kioskLi k i) KExc.illegal ∧ raises (.lih k i) KExc.illegal) ∧
      (i.ra = 0 → gives (.kioskLi k i) i.rd (.data imm) ∧
        (let m := 16 * (n / 2 ^ 16)
         gives (.lih k i) i.rd (of [d] (num (d.val.toNat - d.val.toNat / 2 ^ m % 2 ^ 16 * 2 ^ m + n % 2 ^ 16 * 2 ^ m)))))) ∧
    (s.kReady k [o.rd, o.ra, o.rb] (some 0) → o.fn.toNat < 64 →
      ∀ p ∈ [(Instr.kioskDiv k o, KLongKind.div), (.kioskDivu k o, .divu), (.kioskRem k o, .rem), (.kioskRemu k o, .remu)],
        let q := s.ksk k
        let l : KLong := ⟨p.2, q.cur, kPlace k q o.rd, s.kPc k, a, b, Word.zero, 0, s.kp1 k, 0⟩
        exec p.1 s = .next ((s.setKsk k { q with longs := q.longs ++ [l] }).kNext k .seq)) ∧
    (∀ l, k < 512 → s.kOn k = true → s.kStat k KSK_STATUS_INTERR = false → (s.ksk k).stopping = [] →
      (s.ksk k).longs.find? (fun l => l.kind.unit == 0) = some l →
      let u := l.a.val
      let v := l.b.val
      let quot := match l.kind with
        | .div => if v = 0 then BitVec.ofInt 64 (-1) else BitVec.ofInt 64 (u.toInt.tdiv v.toInt)
        | .rem => if v = 0 then u else BitVec.ofInt 64 (u.toInt.tmod v.toInt)
        | .divu => if v = 0 then BitVec.ofInt 64 (-1) else BitVec.ofNat 64 (u.toNat / v.toNat)
        | _ => if v = 0 then u else BitVec.ofNat 64 (u.toNat % v.toNat)
      ∃ t, exec (.longOperationComplete k 0) s = .next t ∧ (t.ksk k).word l.dest = (if l.dest % 16 = 0 then Word.zero else of [l.a, l.b] (.data quot)) ∧
        (t.ksk k).longs = (s.ksk k).longs.filter (fun x => x.kind.unit != 0) ∧ (∀ j, j ≠ l.dest → (t.ksk k).word j = (s.ksk k).word j) ∧
        t.mem = s.mem) ∧
    (∀ rd r w, s.kr k 0 = Word.zero ∧ (∀ j, (s.setKr k 0 w).ksk j = s.ksk j) ∧ (rd ≠ 0 → (s.setKr k rd w).kr k rd = w) ∧
      (r ≠ rd → (s.setKr k rd w).kr k r = s.kr k r))

/-- For a kiosk that runs its next instruction, not in a delay slot: a branch whose condition holds executes its slot
and goes to its target, otherwise it executes the slot and goes to PC + 8, or annuls the slot with A = 1; poison in
either operand raises POISON. J, JAL and JR execute the slot and go to their target, JAL and JR writing PC + 8, and
a misaligned or poison JR target raises. In a delay slot a branch, KRET, YIELD or HALT raises ILLEGAL. KRDC reads
and KWRC writes a control register at its level. KRET leaves the handler and resumes at KEPC and KENPC. YIELD makes
its context READY. HALT stops it with CODE 0 once its stores are done. FENCE.K waits for the context's long
operations and stores. Cites R438, R444, R446, R451, R453, R458. -/
def Obligations.KioskControlFlow : Prop :=
  ∀ (s : State) (k : Nat) (o : KR) (b : KB) (g : KJ),
    let q := s.ksk k
    let cur := q.cur
    let p := q.at cur
    let raises := fun (ins : Instr) (e : KExc) => exec ins s = .next (s.kRaise k e p)
    let slotTo := fun (t : Nat) => (⟨(p.pc + 4) % 65536, t % 65536, true⟩ : KPos)
    let at' := fun (t : State) (pos : KPos) => (t.ksk k).at cur = pos ∧ (t.ksk k).cur = cur ∧ t = { s with regs := t.regs, kiosks := t.kiosks }
    let sameRegs := fun (t : State) => (t.ksk k).regs = q.regs
    let link := Word.data (BitVec.ofNat 64 ((p.pc + 8) % 65536))
    let target := fun (off : Int) => (((p.pc : Int) + 4 * off) % 65536).toNat
    let u := s.kr k b.ra
    let v := s.kr k b.rb
    let x := s.kr k o.ra
    let bare := o.rd = 0 ∧ o.ra = 0 ∧ o.rb = 0
    let n := o.fn.toNat / 64
    (p.slot = true →
      (s.kReady k [b.ra, b.rb] none → raises (.bCc k b) KExc.illegal) ∧
      (s.kReady k [] none → ∀ ins ∈ [Instr.j k g, .kret k o, .yield k o, .halt k o], raises ins KExc.illegal)) ∧
    (p.slot = false → s.kReady k [b.ra, b.rb] none →
      (u.isPoison = true → raises (.bCc k b) (KExc.poison u)) ∧
      (u.isPoison = false → v.isPoison = true → raises (.bCc k b) (KExc.poison v)) ∧
      (u.isPoison = false → v.isPoison = false → ∃ t, exec (.bCc k b) s = .next t ∧ sameRegs t ∧
        at' t (if condHolds b.cond u.val v.val then slotTo (target b.off.toInt)
          else if b.a then KPos.at (p.pc + 8) else slotTo (p.pc + 8)))) ∧
    (p.slot = false → s.kReady k [] none →
      (g.rd = 0 → exec (.j k g) s = .next (s.kNext k (.slot (target g.off.toInt)))) ∧ (g.rd ≠ 0 → raises (.j k g) KExc.illegal)) ∧
    (p.slot = false → s.kReady k [g.rd] none → exec (.jal k g) s = .next ((s.setKr k g.rd link).kNext k (.slot (target g.off.toInt)))) ∧
    (p.slot = false → s.kReady k [o.rd, o.ra] none → o.rb = 0 → o.fn = 0 →
      (x.isPoison = true → raises (.jr k o) (KExc.poison x)) ∧
      (x.isPoison = false → x.val.toNat % 4 ≠ 0 → raises (.jr k o) (KExc.align (BitVec.ofNat 64 (x.val.toNat % 65536)))) ∧
      (x.isPoison = false → x.val.toNat % 4 = 0 → ∃ t, exec (.jr k o) s = .next t ∧ (t.ksk k).regs = ((s.setKr k o.rd link).ksk k).regs ∧
        at' t (slotTo (x.val.toNat % 65536)))) ∧
    (s.kReady k [o.rd] none → o.ra = 0 → o.rb = 0 →
      (∀ r, kcrRead n = some r → (r = false ∨ s.kp1 k = true) →
        exec (.krdc k o) s = .next ((s.setKr k o.rd (Word.data (s.kcrValue k n))).kNext k .seq)) ∧
      (kcrRead n = some true → s.kp1 k = false → raises (.krdc k o) KExc.privilege) ∧ (kcrRead n = none → raises (.krdc k o) KExc.illegal)) ∧
    (s.kReady k [o.ra] none → o.rd = 0 → o.rb = 0 → kcrRead n ≠ none →
      (n ≠ 0x0A → s.kp1 k = false → raises (.kwrc k o) KExc.privilege) ∧
      ((n = 0x0A ∨ s.kp1 k = true) → x.isPoison = true → raises (.kwrc k o) (KExc.poison x)) ∧
      ((n = 0x0A ∨ s.kp1 k = true) → x.isPoison = false →
        exec (.kwrc k o) s = .next ((s.setKsk k (q.kcrWrite n x.val)).kNext k .seq) ∧
        (∀ m, m ≠ n → (q.kcrWrite n x.val).kc m = q.kc m) ∧
        (n = 0x07 ∨ n = 0x0A ∨ n = 0x04 → (q.kcrWrite n x.val).kc n = x.val) ∧
        (n = 0x08 → ∀ c < 3, ((q.kcrWrite n x.val).kc 8).getLsbD c = ((q.kc 8).getLsbD c && !x.val.getLsbD c) ∧
          ((q.kcrWrite n x.val).kc 8).getLsbD (8 + c) = x.val.getLsbD (8 + c)))) ∧
    (p.slot = false → s.kReady k [] none → bare → n = 0 →
      (s.kp1 k = false → raises (.kret k o) KExc.privilege) ∧
      (s.kp1 k = true → q.handler = false → raises (.kret k o) KExc.illegal) ∧
      (∀ c, q.handler = true → q.running = some c → (k < 256 ∨ q.savedIe = false) → ∃ t, exec (.kret k o) s = .next t ∧
        (t.ksk k).handler = false ∧ (t.ksk k).noctx = false ∧ (t.ksk k).ie = q.savedIe ∧ ((t.ksk k).at c).pc = (q.kc 1).toNat % 65536 ∧
        ((t.ksk k).at c).npc = (q.kc 2).toNat % 65536 ∧ (t.ksk k).running = some c ∧ sameRegs t) ∧
      (∀ c, q.handler = false → q.running = some c → c < 4 →
        (s.kBegun k = false → ∃ t, exec (.yield k o) s = .next t ∧ (t.ksk k).running = none ∧ t.kCtxState k c = 1 ∧ (t.ksk k).at c = p.step .seq ∧ sameRegs t) ∧
        (s.kStoresOut k = true → exec (.halt k o) s = .next s) ∧
        (s.kStoresOut k = false → ∃ t, exec (.halt k o) s = .next t ∧
          (t.ksk k).running = none ∧ t.kCtxState k c = 0 ∧ t.kf k KSK_CTX_FAULT KSK_CTX_FAULT_H [c] KSK_CTX_FAULT_CODE = 0 ∧ sameRegs t))) ∧
    (s.kReady k [] none → bare → o.fn = 0 →
      ((∃ l ∈ q.longs, l.ctx = cur) ∨ s.kStoresOut k = true → exec (.fenceK k o) s = .next s) ∧
      ((∀ l ∈ q.longs, l.ctx ≠ cur) → s.kStoresOut k = false → exec (.fenceK k o) s = .next (s.kNext k .seq)))

/-- For a kiosk that runs its next instruction: LDL and STL move a word of the data SRAM at an aligned address, a
misaligned or poison address and a system word stored below KP1 raise; LDM and STM write what the access returns,
zero-extended for the narrow forms, when the access is done: at a tile kiosk whose window admits the address of
normal memory, LDM when its line has come, STM at once while fewer than eight stores are outstanding; a queue instruction takes what the Urn answers: its
status in rd and a popped entry where the instruction says (a push to a queue with room, a pop, peek or wait of one
with an entry: OK), and an operation on a queue that is not enabled ends
with NO_QUEUE; bulk and block operations enter their unit with their operands as read, a block longer than 65,536
bytes raises ILLEGAL; the completion of a unit without an operation is without effect. Where a body changes nothing
but what is named, the whole next state is stated. Cites R440, R441, R442, R443, R449, R451. -/
def Obligations.KioskMemoryAndQueues : Prop :=
  ∀ (s : State) (k : Nat) (o : KR) (i : KI),
    let q := s.ksk k
    let raises := fun (ins : Instr) (e : KExc) => exec ins s = .next (s.kRaise k e (q.at q.cur))
    let kp1 := s.kp1 k
    let base := s.kr k i.ra
    let data := s.kr k i.rd
    let near := (base.val + i.imm.signExtend 64).toNat % 65536
    let word := tget q.dsram Word.zero (near / 8)
    let shown := fun (w : Word) => if w.isSystem then (if kp1 then w else Word.data w.val) else if w.isPoison then Word.poison w.aux
      else if w.isPointer then Word.pointer w.val else Word.data w.val
    let far := (base.val + i.imm.signExtend 64).toNat % 2 ^ 58
    (s.kReady k [i.rd, i.ra] none →
      (base.isPoison = true → ∀ ins ∈ [Instr.ldl k i, .stl k i, .ldmB k i, .ldmH k i, .ldmW k i, .ldmD k i, .stmB k i, .stmH k i, .stmW k i,
        .stmD k i], raises ins (KExc.poison base)) ∧
      (base.isPoison = false → near % 8 ≠ 0 → ∀ ins ∈ [Instr.ldl k i, .stl k i], raises ins (KExc.align (BitVec.ofNat 64 near))) ∧
      (base.isPoison = false → near % 8 = 0 →
        (tget q.dbad 0 (near / 8) = 0 → exec (.ldl k i) s = .next ((s.setKr k i.rd (shown word)).kNext k .seq)) ∧
        (data.isSystem = true → kp1 = false → raises (.stl k i) KExc.privilege) ∧
        ((data.isSystem = true → kp1 = true) → ∃ t, exec (.stl k i) s = .next t ∧
          tget (t.ksk k).dsram Word.zero (near / 8) = storeWhole word data ∧
          (∀ j, j ≠ near / 8 → tget (t.ksk k).dsram Word.zero j = tget q.dsram Word.zero j) ∧ (t.ksk k).regs = q.regs ∧
          (t.ksk k).at q.cur = (q.at q.cur).step .seq ∧ t = { s with regs := t.regs, kiosks := t.kiosks } ∧
          (256 ≤ k → tget (t.ksk k).dbad 0 (near / 8) = 0))) ∧
      (base.isPoison = false → ∀ u w,
        (∀ f ∈ [(Instr.ldmB k i, 1), (.ldmH k i, 2), (.ldmW k i, 4)], far % 8 + f.2 ≤ 8 →
          s.kGetPart k q.cur q.cur far f.2 f.2 = (.ok w, u) → u.ksk k = q → exec f.1 s = .next ((u.setKr k i.rd w).kNext k .seq)) ∧
        (far % 8 = 0 → s.kGetPart k q.cur q.cur far 8 8 = (.ok w, u) → u.ksk k = q → u.kp1 k = kp1 →
          exec (.ldmD k i) s = .next ((u.setKr k i.rd (shown w)).kNext k .seq))) ∧
      (base.isPoison = false → ∀ u,
        (∀ f ∈ [(Instr.stmB k i, 1), (.stmH k i, 2), (.stmW k i, 4)], far % 8 + f.2 ≤ 8 →
          s.kPutPart k q.cur q.cur far f.2 f.2 (if data.isPoison then data else Word.data data.val) = (.ok (), u) → u.ksk k = q →
            exec f.1 s = .next (u.kNext k .seq)) ∧
        (data.isSystem = true → kp1 = false → raises (.stmD k i) KExc.privilege) ∧
        ((data.isSystem = true → kp1 = true) → far % 8 = 0 → s.kPutPart k q.cur q.cur far 8 8 (sttWord (s.kLevel k) data) = (.ok (), u) → u.ksk k = q →
          exec (.stmD k i) s = .next (u.kNext k .seq))) ∧
      (base.isPoison = false → k < 256 → q.cur < 5 → (s.kWalled k = true ∨ s.walledMem far = false) → (s.classify far).isDevice = false →
        let within' := fun (write : Bool) (size : Nat) => far % 8 + size ≤ 8 ∧
          ∃ m < 4, twinHas (s.reg (kskDie k) (kskUnit k) KSK_TWIN [m]) write q.cur far size = true
        (∀ m, s.net.find? (fun m => m.dst == kskAgent k && m.line == far / 128 && m.kind == .data) = some m → far / 128 ∉ q.stale →
          let w := m.data.getD (far % 128 / 8) Word.zero
          ∀ f ∈ [(Instr.ldmB k i, 1), (.ldmH k i, 2), (.ldmW k i, 4), (.ldmD k i, 8)], within' false f.2 →
            (∀ x ∈ s.kStores k, x.line = far / 128 → x.mask &&& partMask far f.2 = 0) → ∃ t, exec f.1 s = .next t ∧
              (∀ j, (t.ksk k).word j = if j = kPlace k q i.rd ∧ j % 16 ≠ 0 then
                  (if f.2 = 8 then shown w else if w.isPoison = true then Word.poison w.aux
                    else Word.data (BitVec.ofNat 64 (w.val.toNat / 2 ^ (8 * (far % 8)) % 2 ^ (8 * f.2))))
                else q.word j) ∧
              (t.ksk k).at q.cur = (q.at q.cur).step .seq ∧ t.net = s.net.erase m ∧ t.mem = s.mem) ∧
        ((s.kStores k).length < 8 → ∀ f ∈ [(Instr.stmB k i, 1), (.stmH k i, 2), (.stmW k i, 4), (.stmD k i, 8)], within' true f.2 →
          (f.2 = 8 → data.isSystem = true → kp1 = true) →
            let n := far % 128 / 8
            let w := if f.2 = 8 ∨ data.isPoison = true then data
              else Word.data (BitVec.ofNat 64 (data.val.toNat % 2 ^ (8 * f.2) * 2 ^ (8 * (far % 8))))
            let u := (s.ncWrite (kskAgent k) (far / 128) (List.replicate n Word.zero ++ [w] ++ List.replicate (15 - n) Word.zero)
              (partMask far f.2) (s.kWalled k)).kCount k 3
            exec f.1 s = .next (((u.setKsk k ((u.ksk k).setPos (u.ksk k).cur ((q.at q.cur).step .seq))).kCount k 1).kStopPoll k)))) ∧
    (let a := s.kr k o.ra
     let b := s.kr k o.rb
     let c := s.kr k o.rd
     let queue := a.val.toNat % 2 ^ 16
     let r := s.kReq k
     let wait := o.fn.getLsbD 0
     let one := o.fn.getLsbD 1
     let entryOk := one = true ∨ (b.isPoison = false ∧ b.val.toNat % 8 = 0)
     let told := fun (u : State) (st : Nat) => ((u.setKr k o.rd (Word.data (BitVec.ofNat 64 st))).kCount k 4).kNext k .seq
     let long := fun (kind : KLongKind) (d : Word) (f : Nat) =>
       s.setKsk k { q with longs := q.longs ++ [⟨kind, q.cur, kPlace k q o.rd, s.kPc k, a, b, d, f, kp1, 0⟩] }
     (s.kReady k [o.rd, o.ra, o.rb] none → a.isPoison = false →
       (s.qEn queue = false →
         (o.fn.toNat < 4 → entryOk → exec (.kqpop k o) s = .next (told s 7)) ∧
         (o.fn.toNat < 2 → b.isPoison = false → b.val.toNat % 8 = 0 → exec (.kqpeek k o) s = .next (told s 7)) ∧
         (o.fn = 0 → (q.at q.cur).slot = false → exec (.kqwait k o) s = .next (told s 7))) ∧
       (∀ st l u, o.fn.toNat < 4 → one = true → s.kStoresOut k = false → u.ksk k = q →
         s.urnPush r queue [if b.isSystem ∧ kp1 = false then Word.data b.val else b] wait true = (.done st l, u) →
           exec (.kqpush k o) s = .next (told u st)) ∧
       (∀ x u, o.fn.toNat < 4 → one = true → u.ksk k = q → u.kp1 k = kp1 → s.urnPop r queue wait true = (.done 0 [x], u) →
         exec (.kqpop k o) s = .next (told (u.setKr k o.rb (shown x)) 0)) ∧
       (∀ st u, o.fn = 0 → (q.at q.cur).slot = false → u.ksk k = q → s.urnWaitOp r queue = (.done st [], u) →
         exec (.kqwait k o) s = .next (told u st))) ∧
     (s.kReady k [o.rd, o.ra, o.rb] none → a.isPoison = false → s.qEn queue = true →
       let h := s.urnHalf (qHalf queue)
       let done := fun (res : QRes × State) (st : Nat) (ws : List Word) (t : State → State) (ins : Instr) =>
         ∃ u, res = (.done st ws, u) ∧ u.kiosks = s.kiosks ∧ exec ins s = .next (told (t u) st)
       (o.fn.toNat < 4 → one = true → s.kStoresOut k = false → s.qAllowed queue r true = true → s.qWords queue = 1 →
         s.qContract queue = none → s.qFull queue = false → s.qCount queue ≠ 0 → h.caddyRoom false 1 = true →
         done (s.urnPush r queue [if b.isSystem ∧ kp1 = false then Word.data b.val else b] wait true) 0 [] id (.kqpush k o)) ∧
       (s.qAllowed queue r false = true → s.qCount queue ≠ 0 →
         (o.fn = 0 → (q.at q.cur).slot = false → exec (.kqwait k o) s = .next (told (s.qOp queue) 0)) ∧
         (∀ x, h.caddyFind queue (s.qHead queue) = some [x] →
           (o.fn.toNat < 4 → one = true → s.qWords queue = 1 → h.waiting = [] → h.hold = [] → iqOwner queue = none →
             done (s.urnPop r queue wait true) 0 [x] (fun u => u.setKr k o.rb (shown x)) (.kqpop k o)) ∧
           (o.fn.toNat < 2 → b.isPoison = false → b.val.toNat % 8 = 0 → 256 ≤ k →
             let j := b.val.toNat % 65536 / 8
             exec (.kqpeek k o) s = .next (told ((s.qOp queue).setKsk k { q with
               dsram := tset q.dsram Word.zero j (storeWhole (tget q.dsram Word.zero j) (shown x)), dbad := terase q.dbad j }) 0))))) ∧
     (s.kReady k [o.rd, o.ra, o.rb] none → a.isPoison = true →
       (o.fn.toNat < 4 → raises (.kqpush k o) (KExc.poison a) ∧ raises (.kqpop k o) (KExc.poison a)) ∧
       (o.fn.toNat < 2 → raises (.kqpeek k o) (KExc.poison a))) ∧
     (s.kReady k [o.rd, o.ra, o.rb] (some 2) → a.isPoison = false → b.isPoison = false → b.val.toNat % 8 = 0 → o.fn.toNat % 4 = 0 →
       o.fn.toNat < 4096 →
       (s.kStoresOut k = false → exec (.kqbpush k o) s = .next (((long .bpush Word.zero (o.fn.toNat / 4 + 1)).kCount k 4).kNext k .seq)) ∧
       exec (.kqbpop k o) s = .next (((long .bpop Word.zero (o.fn.toNat / 4 + 1)).kCount k 4).kNext k .seq)) ∧
     (s.kReady k [o.rd, o.ra, o.rb] (some 1) → a.isPoison = false → b.isPoison = false → c.isPoison = false → o.fn.toNat < 16 →
       let size := c.val.toNat
       (65536 < size → raises (.bcopy k o) KExc.illegal ∧ raises (.bfill k o) KExc.illegal) ∧
       (size ≤ 65536 → exec (.bcopy k o) s = .next ((long .bcopy c o.fn.toNat).kNext k .seq)) ∧
       (size ≤ 65536 → (size % 8 ≠ 0 ∨ b.val.toNat % 8 ≠ 0) → raises (.bfill k o) KExc.illegal) ∧
       (size ≤ 65536 → size % 8 = 0 → b.val.toNat % 8 = 0 → (a.isSystem = true → kp1 = true) →
         exec (.bfill k o) s = .next ((long .bfill c o.fn.toNat).kNext k .seq)) ∧
       (size ≤ 65536 → o.rb = 0 → exec (.bcrc k o) s = .next ((long .bcrc c o.fn.toNat).kNext k .seq)) ∧
       (size ≤ 65536 → o.fn.getLsbD 3 = false → b.val.toNat % 8 = 0 → exec (.bhash k o) s = .next ((long .bhash c o.fn.toNat).kNext k .seq)))) ∧
    (∀ unit, k < 512 → unit < 3 → (∀ l ∈ q.longs, l.kind.unit ≠ unit) → exec (.longOperationComplete k unit) s = .next s)

/-- An ILLEGAL instruction of a context and a sampled interrupt enter the handler as R453 gives: KEPC, KENPC and KCAUSE,
IE 0, KVBASE and the vector; an imprecise fault sets IMPRECISE, INFO and KLOPPC. An internal error sets INTERR.
TIMER and DOORBELL pend, a second message sets MSG_OVR. The next READY context after the last is dispatched; a slice
that ends makes its context READY; an answer of the Urn ends a wait with its status. GO makes a stopped context of
an enabled kiosk READY, STOP stops one with CODE 0, or waits for the instruction it has begun, its long operations
and the kiosk's stores; RESET stops all, clears
registers and faults and keeps the SRAMs; WORLD changes only with EN 0, by a Walled access on PM-8512-A1, and zeroes
the SRAMs and context registers. Cites R432, R434, R442, R450, R453, R455, R456, R457, R460. -/
def Obligations.KioskEvents : Prop :=
  ∀ (s : State) (k n : Nat) (o : KR) (v : BitVec 64) (world walled : Bool), k < 512 → n < 4 →
    let q := s.ksk k
    let p := q.at q.cur
    let off := s.kOn k = false ∨ s.kEn k = false ∨ s.kStat k KSK_STATUS_DFAULT = true ∨
      s.kStat k KSK_STATUS_INTERR = true ∨ s.kStat k KSK_STATUS_SRAM_CLR = true
    let code := fun (t : State) (c : Nat) => t.kf k KSK_CTX_FAULT KSK_CTX_FAULT_H [c] KSK_CTX_FAULT_CODE
    (s.kReady k [o.rd, o.ra, o.rb] none → 64 ≤ o.fn.toNat → q.handler = false → q.running ≠ none → ∃ t, exec (.kioskAdd k o) s = .next t ∧
      q.entered (t.ksk k) p 1 0) ∧
    let inM := 256 ≤ k ∧ s.kRuns k = true ∧ s.kBegun k = true
    (off ∨ inM ∨ q.irq = none → exec (.kioskInterruptEntry k) s = .next s) ∧
    (∀ c, ¬ off → ¬ inM → q.irq = some c → ∃ t, exec (.kioskInterruptEntry k) s = .next t ∧ (t.ksk k).handler = true ∧
      (q.running ≠ none → q.entered (t.ksk k) p (2 ^ 4 + c * 2 ^ 5) (0x40 * (c + 1)) ∧ (t.ksk k).noctx = false) ∧
      (q.running = none → (t.ksk k).noctx = true)) ∧
    (s.kRuns k = false ∨ s.kBegun k = true ∨ q.lfault = none → exec (.kioskImpreciseException k) s = .next s) ∧
    (∀ f, s.kRuns k = true → s.kBegun k = false → q.lfault = some f → q.handler = false → q.running ≠ none → p.pc ≠ (f.pc + 4) % 65536 →
      ∃ t, exec (.kioskImpreciseException k) s = .next t ∧ (t.ksk k).handler = true ∧ (t.ksk k).kc 1 = BitVec.ofNat 64 p.pc ∧
        (t.ksk k).kc 9 = BitVec.ofNat 64 (f.pc + 2 ^ 63) ∧ ((t.ksk k).kc 3).getLsbD 8 = true ∧
        ((t.ksk k).kc 3).toNat / 2 ^ 12 % 16 = f.code % 16) ∧
    (s.kGone k = true → exec (.kioskInternalError k) s = .next s) ∧
    (s.kGone k = false → ∃ u, exec (.kioskInternalError k) s =
        .next (((u.kSpoil k).kErr k { ErrRec.mk1 4 0x08 (kskJ k) 0 with walled := s.kWalled k }).kFaultMsg k) ∧
      u.kStat k KSK_STATUS_INTERR = true ∧ (u.ksk k).handler = false ∧
      ((∀ l ∈ q.longs, l.ctx ≠ n) → s.kStoresOut k = false → s.kCtxState k n ≠ 0 → u.kCtxState k n = 0 ∧ code u n = 15)) ∧
    exec (.ktimerExpiry k) s = .next (if (q.kc 7).toNat ≤ s.time then s.setKsk k (q.setKc 8 (q.kc 8 ||| 2)) else s) ∧
    (off ∨ q.handler = true ∨ q.running ≠ none ∨ (∀ c < 4, s.kCtxState k c ≠ 1) → exec (.contextDispatch k none) s = .next s) ∧
    (∀ d < 4, ¬ off → q.handler = false → q.running = none → s.kCtxState k ((q.last + 1 + d) % 4) = 1 →
      (∀ e < d, s.kCtxState k ((q.last + 1 + e) % 4) ≠ 1) → ∃ t, exec (.contextDispatch k none) s = .next t ∧
        (t.ksk k).running = some ((q.last + 1 + d) % 4) ∧ t.kCtxState k ((q.last + 1 + d) % 4) = 3 ∧ (t.ksk k).regs = q.regs) ∧
    (q.handler = true ∨ s.kBegun k = true ∨ q.running = none → exec (.sliceEnd k) s = .next s) ∧
    (q.handler = false → s.kBegun k = false → q.running = some n → ∃ t, exec (.sliceEnd k) s = .next t ∧ (t.ksk k).running = none ∧ t.kCtxState k n = 1) ∧
    ((256 ≤ k ∨ s.tileOpen k = true) → (tfind q.waits n = none → exec (.kioskWake k n) s = .next s) ∧
      ((s.kOn k = false ∨ q.running = some n) → (∃ a ∈ s.urnAns, a.who = .kiosk k n) → exec (.kioskWake k n) s = .next s) ∧
      ∀ w a, s.kOn k = true → q.running ≠ some n → tfind q.waits n = some w → s.urnAns.find? (fun a => a.who == .kiosk k n) = some a → a.words = [] → ∃ t,
        exec (.kioskWake k n) s = .next t ∧ tfind (t.ksk k).waits n = none ∧ t.urnAns = s.urnAns.erase a ∧
        (t.ksk k).word w.dest = (if w.dest % 16 = 0 then Word.zero else Word.data (BitVec.ofNat 64 a.status)) ∧
        (s.kCtxState k n = 2 → tfind q.stopping n = none → t.kCtxState k n = 1)) ∧
    (∃ t, exec (.kskDoorbell k v) s = .next t ∧ (t.ksk k).kc 11 = v ∧ ((t.ksk k).kc 8) = q.kc 8 ||| 1 ∧
      ((q.kc 8).getLsbD 0 = true → t.kStat k KSK_STATUS_MSG_OVR = true) ∧ ((q.kc 8).getLsbD 0 = false → t.regs = s.regs)) ∧
    (∃ t, exec (.kioskReset k) s = .next t ∧ t.kCtxState k n = 0 ∧ t.kStat k KSK_STATUS_INTERR = false ∧ t.kStat k KSK_STATUS_DFAULT = false ∧
      (t.ksk k).regs = [] ∧ (t.ksk k).kcr = [] ∧ (t.ksk k).longs = [] ∧ (t.ksk k).stopping = [] ∧ (t.ksk k).running = none ∧ (t.ksk k).isram = q.isram ∧
      (t.ksk k).dsram = q.dsram) ∧
    let boundary := (q.running = some n → q.handler = false → s.kBegun k = false)
    (∃ t, exec (.kioskEnable k false) s = .next t ∧ t.kEn k = false ∧
      ((∀ c < 4, s.kCtxState k c ≠ 2) → boundary → s.kStoresOut k = false → q.longs = [] → q.stopping = [] → t.kCtxState k n = 0)) ∧
    exec (.kioskEnable k true) s = .next (s.setKf k KSK_CTL KSK_CTL_H [] KSK_CTL_EN 1) ∧
    (s.kWalled k = world ∨ s.part = .x1 → exec (.kioskWorldChange k world walled) s = .next s) ∧
    (s.kWalled k ≠ world → s.part = .a1 → (s.kEn k = true ∨ walled = false) →
      exec (.kioskWorldChange k world walled) s = .next (s.setKStat k KSK_STATUS_REFUSED true)) ∧
    (s.kWalled k ≠ world → s.part = .a1 → s.kEn k = false → walled = true → ∃ t, exec (.kioskWorldChange k world walled) s = .next t ∧
      t.kWalled k = world ∧ t.kStat k KSK_STATUS_SRAM_CLR = true ∧ (t.ksk k).isram = [] ∧ (t.ksk k).dsram = [] ∧
      (∀ j, (t.ksk k).word j = Word.zero)) ∧
    exec (.sramClrDone k) s = .next (s.setKStat k KSK_STATUS_SRAM_CLR false) ∧
    exec (.go k n) s = .next (if s.kCtxState k n = 0 ∧ s.kEn k = true then s.setKf k KSK_CTX KSK_CTX_H [n] KSK_CTX_STATE 1 else s) ∧
    (s.kCtxState k n = 0 ∨ tfind q.stopping n ≠ none → exec (.stop k n) s = .next s) ∧
    (s.kCtxState k n ≠ 0 → tfind q.stopping n = none →
      (s.kCtxState k n ≠ 2 → q.running = some n → q.handler = false → s.kBegun k = true → s.kRuns k = true → s.kEn k = true → ∃ t,
        exec (.stop k n) s = .next t ∧ (t.ksk k).running = some n ∧ tfind (t.ksk k).stopping n = some 0 ∧ t.kCtxState k n = s.kCtxState k n) ∧
      (boundary → ∃ t, exec (.stop k n) s = .next t ∧ (t.ksk k).running ≠ some n ∧
        ((∀ l ∈ q.longs, l.ctx ≠ n) → s.kStoresOut k = false → t.kCtxState k n = 0 ∧ code t n = 0) ∧
        ((∃ l ∈ q.longs, l.ctx = n) ∨ s.kStoresOut k = true → tfind (t.ksk k).stopping n = some 0 ∧ t.kCtxState k n = 2)))

/-- A memory request at a running root port of a package that does not sleep: malformed or poisoned writes are logged in
AER; one that passes the port and the IOMMU (untranslated, or translated by ATS) is performed on memory line by
line, each write awaiting its Cmp, or waits; it pushes an MSI or a doorbell, and a read is answered with its bytes,
poisoned where a word is; a refused one sets FAULT and a read
completes with Unsupported Request. A Translation Request is answered with the translation, R = W = 0 where it would
fault. A configuration read of a function answers its register, of an absent one all ones, of one below a port it is
sent there; a write replaces the writable bits and clears the W1C bits. Clearing BME clears it. An FLR sets
FLR_BUSY; its end returns the configuration space to reset but for AER status and WORLD and sets FLR_DONE. A
completion or its timeout answers the oldest read of its port that has been sent, a failed one with all ones. A CXL read response, or
poison 0x05 after its timeout, reaches the home that waits for it. Cites R463, R464, R465, R468, R477, R478, R484,
R485, R486. -/
def Obligations.IoInbound : Prop :=
  ∀ (s : State) (t : Tlp) (rp rid d line addr status : Nat) (pasid : Option Nat) (data : List (BitVec 64)) (v : BitVec 32)
    (walled lo hi : Bool), t.rp < 40 → rp < 40 → rid < 65536 → d < 1024 →
    let awake := s.mode ≠ .m6 ∧ s.mode ≠ .m7
    let i := t.rp / 20
    let a := s.portTlp t.rp false (if t.write then t.size else 0)
    let ins := fun (ats : Bool) => if ats then Instr.translatedRequest t else Instr.tlpMemoryRequest t
    let shaped := t.size ≠ 0 ∧ t.addr % 4096 + t.size ≤ 4096 ∧ (t.write = true → t.size ≤ 512)
    let mayPass := fun (ats : Bool) => s.rpRuns t.rp = true ∧ awake ∧ shaped ∧ (t.write && t.poison) = false ∧
      a.cfgF (rpRid t.rp) 1 2 1 = 1 ∧ a.acsBad t ats = false ∧ (∀ p ∈ a.io.reads, ¬ (p.t.write = true ∧ (p.t.rp = t.rp ∨ (t.write = true ∧ p.t.rp / 4 = t.rp / 4))))
    let comes := fun (ats : Bool) (pa : Nat) (w : Bool) (b : State) =>
      (ats = true → a.atsOk i t.rid = (.ok w, b) ∧ t.addr = pa ∧ pa < 2 ^ 52) ∧
      (ats = false → ∃ bits r x, a.ioTranslate i t.rid (t.pasid.getD 0) t.addr = (.ok pa bits r x w, b) ∧ (if t.write then x else r) = true)
    let memory := fun (b : State) (pa : Nat) => (b.classify pa).isDevice = false
    (∀ ats, ∃ u, exec (ins ats) s = .next u) ∧
    (s.rpRuns t.rp = false → ∀ ats, exec (ins ats) s = .next s) ∧
    (s.rpRuns t.rp = true → awake → ∀ ats,
      (¬ shaped → exec (ins ats) s = .next (a.rpAer t.rp 18)) ∧
      (shaped → (t.write && t.poison) = true → exec (ins ats) s = .next (a.rpAer t.rp 12))) ∧
    (∀ ats pa w b, mayPass ats → comes ats pa w b →
      (memory b pa → w = false → b.walledMem pa = true → exec (ins ats) s = .next ((b.rangeViol 1 t.rid pa).tlpRefuse t false)) ∧
      (memory b pa → (w = true ∨ b.walledMem pa = false) →
        (∀ l rest, linesOf pa t.size = l :: rest →
          let q : InReq := { InReq.arrived t ats with dest := some (pa, w) }
          (t.write = true →
            let put := b.ncPut (portAgent t.rp) l (lineSlice pa t.size l t.data).1 (lineSlice pa t.size l t.data).2 w
            exec (ins ats) s = .next (if put.1 then (if rest = [] then put.2 else put.2.tlpLines { q with lines := 1 } pa w rest)
              else put.2.tlpWait q)) ∧
          (t.write = false → ∀ c, b.ncRead (portAgent t.rp) l w = (none, c) → exec (ins ats) s = .next (c.tlpWait q)) ∧
          (t.write = false → rest = [] → t.addr % 512 + t.size ≤ 512 → ∀ ws c, b.ncRead (portAgent t.rp) l w = (some ws, c) →
            let bytes := unpackNat (packNat (ws.map Word.val) / 2 ^ (8 * (pa % 128)) % 2 ^ (8 * t.size)) t.size
            let bad := ∃ k, pa % 128 / 8 ≤ k ∧ k ≤ (pa % 128 + t.size - 1) / 8 ∧ (ws.getD k Word.zero).isPoison = true
            (¬ bad → exec (ins ats) s = .next (c.tlpAnswer t 0 bytes false)) ∧
            (bad → exec (ins ats) s = .next ((c.tlpAnswer t 0 bytes true).rpAer t.rp 12))))) ∧
      (∀ off, b.classify pa = .msi off → t.write = true → t.size = 4 →
        exec (ins ats) s = .next (b.msiWindow i t.rid off ((t.data.headD 0).toNat % 2 ^ 32) true)) ∧
      (∀ j h off q fn, b.classify pa = .mmio j → b.claimOf pa = .pfBell h off → b.bellQueue (.pfBell h off) = some (q, fn) →
        t.write = true → b.cfgF fn 0x85 0 1 = 0 →
        exec (ins ats) s = .next (b.doorbell t.rid (b.fnWalled fn) q (unpackNat (packNat t.data) t.size) (t.size % 8 == 0) false))) ∧
    (∀ b, (mayPass false → a.ioTranslate i t.rid (t.pasid.getD 0) t.addr = (.refused, b) →
        exec (.tlpMemoryRequest t) s = .next (b.tlpRefuse t false)) ∧
      (mayPass true → a.atsOk i t.rid = (.error .refused, b) → exec (.translatedRequest t) s = .next (b.tlpRefuse t false)) ∧
      (let r := b.tlpRefuse t false
       r.flag (8 + i) 0x039 IOM_STATUS [] IOM_STATUS_FAULT = true ∧ r.mem = b.mem ∧
         r.out = b.out ++ (if t.write then [] else [.tlpCompletion t.rid 1 [] false]))) ∧
    (s.rpRuns rp = true → awake →
      (s.cfgF (rpRid rp) 1 2 1 = 0 → exec (.translationRequest rp rid pasid addr) s =
        .next ((s.iomFault (rp / 20) rid false).emit (.tlpCompletion rid 1 [] false))) ∧
      (∀ x0 w b pa bits r x c, s.cfgF (rpRid rp) 1 2 1 = 1 → s.atsOk (rp / 20) rid = (.ok x0, b) →
        b.ioTranslate (rp / 20) rid (pasid.getD 0) addr = (.ok pa bits r x w, c) → (w = true ∨ c.walledMem pa = false) →
        exec (.translationRequest rp rid pasid addr) s = .next (c.emit (.translation rid pa bits r x))) ∧
      (∀ w b c, s.cfgF (rpRid rp) 1 2 1 = 1 → s.atsOk (rp / 20) rid = (.ok w, b) →
        b.ioTranslate (rp / 20) rid (pasid.getD 0) addr = (.refused, c) →
        exec (.translationRequest rp rid pasid addr) s = .next (c.emit (.translation rid 0 12 false false))) ∧
      exec (.pcieMessage rp rid 0) s = .next (s.rpAer rp 20) ∧ exec (.pcieMessage rp rid 1) s = .next s ∧
      exec (.pcieMessage rp rid 2) s = .next (s.emit (.tlpCompletion rid 1 [] false))) ∧
    (let read := Instr.configurationRequest rid d none 15 walled
     let write := Instr.configurationRequest rid d (some v) 15 walled
     let f := s.fnOf rid
     let hidden := f.integrated = true ∧ s.fnWalled rid = true ∧ walled = false
     let old := s.cfgGet rid d
     let rw : BitVec 32 := BitVec.ofNat 32 (cfgMask f d).1
     let w1c : BitVec 32 := BitVec.ofNat 32 (cfgMask f d).2
     (s.cfgTarget rid = .absent → exec read s = .next (s.emit (.cfg rid d 0xFFFFFFFF)) ∧ exec write s = .next s) ∧
     (s.cfgTarget rid = .fn → exec read s = .next (s.emit (.cfg rid d old)) ∧
       (hidden → exec write s = .next s ∧ exec (.bmeClear rid walled) s = .next s) ∧
       (¬ hidden → d ∉ [1, 0x12, 0x16, 0x20, 0x83] →
         exec write s = .next (s.cfgSet rid d (((old &&& ~~~ rw) ||| (v &&& rw)) &&& ~~~ (v &&& w1c)))) ∧
       (¬ hidden → ∃ u, exec (.bmeClear rid walled) s = .next u ∧ u.cfgF rid 1 2 1 = 0 ∧ u = { s with io := u.io })) ∧
     (∀ p, s.cfgTarget rid = .below p → (∀ m ∈ s.io.mmio, m.who ≠ .config ∧ (m.port = p → m.sent = true)) →
       (s.io.mmio.filter (fun m => m.port == p && m.answer.isNone)).length < 1024 → ∃ u, exec read s = .next u ∧ u = { s with io := u.io, regs := u.regs, out := u.out } ∧
       u.out = s.out ++ [.portRead p (rid * 4096 + 4 * d) 4 true] ∧
       u.io.mmio = s.io.mmio ++ [⟨.config, p, rid * 4096 + 4 * d, 4, true, true, none⟩])) ∧
    (let f := s.fnOf rid
     (f.integrated = true → exec (.flr rid) s = .next (s.setCfgF rid 0x85 0 1 1)) ∧
     ((f.integrated = false ∨ s.cfgF rid 0x85 0 1 = 0) → exec (.flrDone rid) s = .next s) ∧
     (f.integrated = true → s.cfgF rid 0x85 0 1 = 1 → ∃ u, exec (.flrDone rid) s = .next u ∧ u.cfgF rid 0x85 0 1 = 0 ∧
       u.cfgF rid 0x85 1 1 = 1 ∧ u.cfgF rid 1 2 1 = 0 ∧ u.fnWalled rid = s.fnWalled rid ∧ u.mem = s.mem ∧
       ∀ k, 0x41 ≤ k → k ≤ 0x45 → u.cfgGet rid k = s.cfgGet rid k)) ∧
    (let b := s.portTlp rp false (8 * data.length)
     let waits := fun (x : MmioReq) => x.port == rp && x.sent && x.answer.isNone
     let done := exec (.pcieCompletion rp status data false) s
     let late := exec (.mmioCompletionTimeout rp) s
     (∀ m ∈ s.io.mmio, m.port = rp → m.sent = true) → ∀ m, s.io.mmio.find? waits = some m →
       let put := fun (x : State) (y : BitVec 64) => x.setMmio (x.io.mmio.map (fun (z : MmioReq) => if z = m then { m with answer := some y } else z))
       let gone := fun (x : State) => x.setMmio (x.io.mmio.erase m)
       let given := fun (x : State) (y : BitVec 64) (st : Nat) (ds : List (BitVec 64)) => match m.who with
         | .core _ => put x y
         | .kiosk k _ => put (x.iselRead k m.addr true 0) y
         | .config => (gone x).emit (.cfg (m.addr / 4096) (m.addr % 4096 / 4) (y.setWidth 32))
         | .peer p r => ((gone x).iselRead (520 + p / 4) m.addr true 0).emit (.tlpCompletion r st ds false)
         | .gone => gone x
       (status = 0 → done = .next (given b (data.headD 0) 0 data)) ∧
       (status = 1 → done = .next ((given b 0xFFFFFFFFFFFFFFFF 1 []).rpAer rp 20)) ∧
       late = .next ((given s 0xFFFFFFFFFFFFFFFF 1 []).rpAer rp 14)) ∧
    ((∀ m ∈ s.io.mmio, m.port = rp → m.sent = true → m.answer ≠ none) → exec (.mmioCompletionTimeout rp) s = .next s) ∧
    (let k := s.homeOf line
     let h := s.home k
     let b := s.setHome k { h with cxlReads := h.cxlReads.erase line }
     let gives := fun (x : Txn) (ws : List Word) => (((b.homeGrant k x ws false none).homeAdvance k line 32).settle).tlpRetry
     (line ∉ h.cxlReads → exec (.cxlMemResponse line data lo hi) s = .next s ∧ exec (.cxlTimeout line) s = .next s) ∧
     (∀ x, line ∈ h.cxlReads → h.txn line = some x → x.phase = .upper →
       exec (.cxlMemResponse line data lo hi) s = .next (gives x ((List.range 16).map (fun n =>
         if (if n < 8 then lo else hi) then Word.poison 0x05 else Word.data (data.getD n 0)))) ∧
       ∀ iod win, s.classify (line * 128) = .cxl iod win →
         let r := s.reg (8 + iod) 0x039 IOM_CXLWIN [win]
         exec (.cxlTimeout line) s = .next ((gives x (poisonLine 0x05)).err (8 + iod) (0x10 + field r 45 3)
           (ErrRec.mk1 3 0x0F (field r 48 2) (line * 128)))))

/-- An IOM_INV command while one runs is refused. ADDR and FUNCTION remove exactly the IOTLB entries they name, send an
ATS Invalidate Request and wait with GO = 1; SYNC waits for the requests that have been translated and not performed;
UNBLOCK ends the blocking of its function. The
completion clears GO, once the function's translated requests before it are performed; the timeout also sets TIMEOUT and ATS_TIMEOUT and blocks the function. An Invalidate Request
removes exactly a cluster's entries it names and is answered when the cluster's requests in flight are done. COMMIT switches the active bank. A frame of a port
without hot-plug roots does nothing; a quiet frame sends the outputs and counts equal frames; eight frames with the
button pressed set Attention Button Pressed, 2,500 equal frames change Presence Detect. A Slot Control write
replaces its low 13 bits. A running Footbridge link retrains after its failed replays, a training one goes down with
a record; a link that trains shows its peer and clears the routes that do not reach their socket. A root port link
shows its speed and width, or goes down. Cites R463, R479, R480, R481, R483, R488, R489, R490, R492, R493, R494. -/
def Obligations.IoControl : Prop :=
  ∀ (s : State) (i rid a n c rp port bits l : Nat) (p : Option Nat), i < 2 → rid < 65536 → c < 16 → rp < 40 → port < 10 → l < 6 →
    (∀ q, p = some q → q < 2 ^ 20) →
    let f := fun (t : State) (x : RField) => t.fld (8 + i) 0x039 IOM_INV [] x
    let go := fun (t : State) => f t IOM_INV_GO
    let mine := fun (q : InReq) => q.t.rp / 20 = i
    let owed := ∃ q ∈ s.io.reads, mine q ∧ q.awaited = true
    let quiet := fun (k : Nat) => ∀ j ∈ clKiosks k, s.kRequests j = []
    let inv := fun (t : State) => tfind t.io.inv i
    let meets := fun (page k : Nat) => a / 2 ^ n * 2 ^ n < (page + 1) * 2 ^ k ∧ page * 2 ^ k < (a / 2 ^ n + 1) * 2 ^ n
    let tlbKeeps := fun (t : State) (ranged : Bool) => ∀ e : IoTlbEnt, e ∈ (t.iommu i).tlb ↔ e ∈ (s.iommu i).tlb ∧
      ¬ (e.rid = rid ∧ (∀ q, p = some q → e.pasid = q) ∧ (ranged = true → meets e.page e.bits))
    let atcKeeps := fun (t : State) (ranged : Bool) => ∀ e : AtcEnt, e ∈ tget t.io.atc [] c ↔ e ∈ tget s.io.atc [] c ∧
      ¬ ((∀ q, p = some q → e.pasid = q) ∧ (ranged = true → meets e.page e.bits))
    (go s = 1 → ∀ x ∈ [Instr.addr i rid p a n, .function i rid p, .sync i, .unblock i rid],
      exec x s = .next (s.setFld (8 + i) 0x039 IOM_STATUS [] IOM_STATUS_REFUSED 1)) ∧
    (go s = 0 →
      (12 ≤ n → n ≤ 58 → a % 4096 = 0 → a < 2 ^ 64 → ∃ t, exec (.addr i rid p a n) s = .next t ∧ go t = 1 ∧ inv t = some ⟨false, ⟨[], []⟩⟩ ∧
        t.out = s.out ++ [.atsInvalidate rid a n (p.getD 0) p.isSome] ∧ tlbKeeps t true) ∧
      (∃ t, exec (.function i rid p) s = .next t ∧ go t = 1 ∧ inv t = some ⟨false, ⟨[], []⟩⟩ ∧
        t.out = s.out ++ [.atsInvalidate rid 0 64 (p.getD 0) p.isSome] ∧ tlbKeeps t false) ∧
      (∃ t, exec (.sync i) s = .next t ∧ t.iommus = s.iommus ∧ t.out = s.out ∧
        ((∀ q ∈ s.io.reads, mine q → q.dest = none) → ¬ owed → (∀ k < 8, quiet (8 * i + k)) → (∀ m ∈ s.io.mmio, m.answer ≠ none) →
          go t = 0 ∧ inv t = none) ∧
        ((∃ q ∈ s.io.reads, mine q ∧ q.dest ≠ none) → go t = 1 ∧ inv t ≠ none)) ∧
      (∃ t, exec (.unblock i rid) s = .next t ∧ go t = 0 ∧ t.out = s.out ∧
        (∀ x, x ∈ (t.iommu i).blocked ↔ x ∈ (s.iommu i).blocked ∧ x ≠ rid) ∧ (t.iommu i).tlb = (s.iommu i).tlb)) ∧
    (inv s = none → exec (.invalidationComplete i) s = .next s ∧ exec (.atsTimeout i) s = .next s) ∧
    (∀ v, inv s = some v →
      (v.come = true → exec (.invalidationComplete i) s = .next s) ∧
      (v.come = false → (∀ k < 8, clRid (8 * i + k) ≠ f s IOM_INV_RID) →
        let waits := ∃ q ∈ s.io.reads, mine q ∧ q.translated = true ∧ q.t.rid = f s IOM_INV_RID
        ∃ t, exec (.invalidationComplete i) s = .next t ∧ t = { s with regs := t.regs, io := t.io } ∧
          (¬ owed → ¬ waits → go t = 0 ∧ inv t = none) ∧ (waits → go t = go s ∧ ∃ x, inv t = some x ∧ x.come = true)) ∧
      (f s IOM_INV_KIND = 3 → exec (.atsTimeout i) s = .next s) ∧
      (f s IOM_INV_KIND ≠ 3 → ∃ t, exec (.atsTimeout i) s = .next t ∧ go t = 0 ∧ inv t = none ∧ f t IOM_INV_TIMEOUT = 1 ∧
        t.flag (8 + i) 0x039 IOM_STATUS [] IOM_STATUS_ATS_TIMEOUT = true ∧ f s IOM_INV_RID ∈ (t.iommu i).blocked)) ∧
    (∀ r : Bool, s.io.atsWaits = [] → ∃ t, exec (.invalidateRequest c (if r then some (a, n) else none) p) s = .next t ∧ atcKeeps t r ∧
      t = { s with io := t.io, out := t.out } ∧
      (quiet c → (∀ m ∈ s.io.mmio, m.answer ≠ none) → t.out = s.out ++ [.atsComplete (clRid c)] ∧ t.io.atsWaits = []) ∧
      (¬ quiet c → t.out = s.out ∧ t.io.atsWaits = [(c, s.clOut [c])])) ∧
    (let w := fun (t : State) (x : RField) => t.fld (8 + i) 0x039 IOM_PWIN_CTL [] x
     ∃ t, exec (.commit i) s = .next t ∧ w t IOM_PWIN_CTL_ACTIVE = 1 - w s IOM_PWIN_CTL_ACTIVE ∧ w t IOM_PWIN_CTL_COMMIT = 0 ∧
       t = { s with regs := t.regs }) ∧
    (let frame := exec (.hotPlugFrame port bits) s
     let hp := fun (r : Nat) => r < 4 ∧ s.rpHp (4 * port + r) = true
     let st := fun (t : State) (r lo : Nat) => t.cfgF (rpRid (4 * port + r)) 0x16 lo 1
     let x := fun (r : Nat) => s.slot (4 * port + r)
     let b := fun (r k : Nat) => natBit (bits / 2 ^ (8 * r) % 256) k
     let steady := fun (r : Nat) => b r 0 = (x r).prsnt ∧ (x r).unsent = false ∧ (x r).pwrSince = none
     let outs := (List.range 4).foldl (fun k r => k + s.slotOut (4 * port + r) * 2 ^ (8 * r)) 0
     ((∀ r, ¬ hp r) → frame = .next s) ∧
     ((∃ r, hp r) → (∀ r, hp r → steady r ∧ b r 1 = false ∧ (x r).equal < 2499) → ∃ t, frame = .next t ∧
       t = { s with io := { s.io with slots := t.io.slots }, out := s.out ++ [.slotFrame port outs] } ∧
       ∀ r, hp r → t.slot (4 * port + r) = { x r with equal := (x r).equal + 1, attn := 0, noPg := 0 }) ∧
     (∀ r, hp r → (∀ q, hp q → q = r) → steady r → st s r 5 = 0 →
       (b r 1 = true → (x r).attn = 7 → (x r).equal < 2499 → ∃ t, frame = .next t ∧ st t r 16 = 1 ∧ (t.slot (4 * port + r)).attn = 8) ∧
       (b r 1 = false → (x r).equal = 2499 → st s r 22 ≠ (b r 0).toNat →
         ∃ t, frame = .next t ∧ st t r 22 = (b r 0).toNat ∧ st t r 19 = 1))) ∧
    (s.rpHp rp = false → exec (.slotControlWrite rp bits) s = .next s) ∧
    (s.rpHp rp = true → ∃ t, exec (.slotControlWrite rp bits) s = .next t ∧ t = { s with io := t.io } ∧ (t.slot rp).unsent = true ∧
      t.cfgF (rpRid rp) 0x16 0 13 = bits % 2 ^ 13 ∧ t.cfgF (rpRid rp) 0x16 16 16 = s.cfgF (rpRid rp) 0x16 16 16) ∧
    (let d := 8 + l / 3
     let u := 0x018 + l % 3
     let g := fun (t : State) (x : RField) => t.fld d u FB_STATUS [] x
     (g s FB_STATUS_STATE ≠ 2 → exec (.linkRetrain l) s = .next s) ∧
     (g s FB_STATUS_STATE = 2 → ∃ t,
       exec (.linkRetrain l) s = .next (foldN 8 (fun (x : State) _ => x.errCorrected d u l 0) (t.count d u cntFb 3 8 false)) ∧
       t = { s with regs := t.regs } ∧ g t FB_STATUS_STATE = 1 ∧
       g t FB_STATUS_RETRAINS = min (g s FB_STATUS_RETRAINS + 1) (2 ^ 16 - 1) ∧
       g t FB_STATUS_REPLAYS = min (g s FB_STATUS_REPLAYS + 8) (2 ^ 32 - 1)) ∧
     (g s FB_STATUS_STATE ≠ 1 → exec (.linkDown l) s = .next s) ∧
     (g s FB_STATUS_STATE = 1 → exec (.linkDown l) s =
       .next ((({ s with io := { s.io with fbUp := tset s.io.fbUp false l false, retrain := tset s.io.retrain 0 l 3 } }).setFld d u
         FB_STATUS [] FB_STATUS_STATE 0).err d u (ErrRec.mk1 4 0x0D l 0))) ∧
     (∀ peer plink near same, peer < 8 → plink < 6 →
       let e := exec (.footbridgeLinkTrained l peer plink near same) s
       let runs := s.mode.ioRuns = true ∧ tget s.io.retrain 0 l < 3
       let lost := fun (k : Nat) => k < 8 ∧ s.fbLinkTo k = some l ∧ k ≠ peer ∧ natBit near k = false
       (¬ runs → e = .next s) ∧
       (runs → (∀ k, ¬ lost k) → ∃ t, e = .next t ∧ t = { s with regs := t.regs, io := t.io } ∧ g t FB_STATUS_STATE = 2 ∧
         g t FB_STATUS_PEER_SOCKET = peer ∧ g t FB_STATUS_PEER_LINK = plink ∧ g t FB_STATUS_MAPDIFF = (!same).toNat ∧
         tget t.io.fbUp false l = true ∧ tget t.io.retrain 0 l = 0) ∧
       (runs → ∃ t, e = .next t ∧ ∀ k, lost k → t.flag 8 0x018 FB_ROUTE [] (FB_ROUTE_VALID k) = false))) ∧
    (∀ up speed width,
      let e := exec (.rootPortLinkChange rp up speed width) s
      let g := fun (t : State) (lo k : Nat) => t.cfgF (rpRid rp) 0x14 lo k
      let was := tget s.io.linkUp false rp
      let runs := s.rpExists rp = true ∧ s.domSt (0x200 + 0x40 * (rp / 20) + 8 + rp % 20 / 4) PWR_DOM_STATUS_STATE ≠ 3 ∧
        s.mode.ioRuns = true ∧ (up = true → speed ≠ 0 ∧ width ≠ 0)
      (¬ runs → e = .next s) ∧
      (runs → (s.rpHp rp = false ∨ was = up ∨ s.cfgF (rpRid rp) 0x16 5 1 = 0) → ∃ t, e = .next t ∧ t = { s with io := t.io } ∧
        tget t.io.linkUp false rp = up ∧ g t 29 1 = up.toNat ∧
        (up = true → g t 16 4 = min speed (if s.rpCxl rp then 6 else 7) ∧ g t 20 6 = min width (rpWidth (s.portCfg rp).option (rp % 4))) ∧
        (s.rpHp rp = true → was ≠ up → t.cfgF (rpRid rp) 0x16 24 1 = 1)))

/-- A request for a state of a domain (a TARGET write, a vote, an idle timer, a wake or a held packet): a refused one
sets REFUSED with its reason; else with a change to the same state in progress it clears what is pending, with
another in progress it becomes pending; in that state already nothing is left pending; a tile that may not yet go
lower keeps it pending; otherwise the change starts with BUSY and PROG. An Open write that would lower or re-policy
a Walled-held domain, or change the Walled votes on PM-8512-A1, is vetoed. Other TARGET writes also set POLICY, WAKE
and the LOWSTATE and TIMER_US that are in range. The first Walled vote displaces what
has begun or is pending. A change that completes shows its state, counts EPOCH, and hands over the held packets or
answers them with DOMAIN_OFF. A packet for a running domain, or a snoop, is handed over; a wake of the same Trellis
cycle as an event of a higher rank is discarded. Cites R26, R505, R506, R525, R526, R527, R528, R529, R531. -/
def Obligations.PowerDomains : Prop :=
  ∀ (s : State) (w : CtlWho) (dom : Nat) (v : BitVec 64) (p : List Flit) (snoop answer : Bool) (cls : DomCls), domCls dom = some cls →
    let st := fun (x : State) (f : RField) => x.domSt dom f
    let ctl := fun (x : State) (f : RField) => x.domCtl dom f
    let vote := fun (x : State) (f : RField) => x.domVote dom f
    let same := fun (u : State) (l : List RField) => ∀ f ∈ l, st u f = st s f
    let lowers := fun (t : Nat) => cls = .tile ∧ t > st s PWR_DOM_STATUS_STATE ∧ s.lowerOk (domTile dom) t = false
    let served := fun (u : State) (t : Nat) => st u PWR_DOM_STATUS_STATE = st s PWR_DOM_STATUS_STATE ∧
      (∀ r, s.domRefusal dom t = some r → st u PWR_DOM_STATUS_REFUSED = 1 ∧ st u PWR_DOM_STATUS_REASON = r ∧
        same u [PWR_DOM_STATUS_BUSY, PWR_DOM_STATUS_PROG, PWR_DOM_STATUS_PEND, PWR_DOM_STATUS_PTGT]) ∧
      (s.domRefusal dom t = none →
        (st s PWR_DOM_STATUS_BUSY = 1 → same u [PWR_DOM_STATUS_BUSY, PWR_DOM_STATUS_PROG] ∧
          (st s PWR_DOM_STATUS_PROG = t → st u PWR_DOM_STATUS_PEND = 0) ∧
          (st s PWR_DOM_STATUS_PROG ≠ t → st u PWR_DOM_STATUS_PEND = 1 ∧ st u PWR_DOM_STATUS_PTGT = t)) ∧
        (st s PWR_DOM_STATUS_BUSY = 0 →
          (st s PWR_DOM_STATUS_STATE = t → st u PWR_DOM_STATUS_PEND = 0 ∧ st u PWR_DOM_STATUS_BUSY = 0) ∧
          (st s PWR_DOM_STATUS_STATE ≠ t → lowers t → st u PWR_DOM_STATUS_PEND = 1 ∧ st u PWR_DOM_STATUS_PTGT = t ∧
            st u PWR_DOM_STATUS_BUSY = 0 ∧ dom ∈ u.pwr.lower) ∧
          (st s PWR_DOM_STATUS_STATE ≠ t → ¬ lowers t → st u PWR_DOM_STATUS_BUSY = 1 ∧ st u PWR_DOM_STATUS_PROG = t ∧
            st u PWR_DOM_STATUS_PEND = 0)))
    let goal := if st s PWR_DOM_STATUS_BUSY ≠ 0 then st s PWR_DOM_STATUS_PROG else st s PWR_DOM_STATUS_STATE
    let running := st s PWR_DOM_STATUS_STATE = 0 ∧ st s PWR_DOM_STATUS_BUSY = 0
    (let t := field v 0 3
     let e := exec (.pwrDomTarget w dom v) s
     let held := s.wHeld dom = true ∧ w.walled = false ∧ (t > goal ∨ field v 4 2 ≠ ctl s PWR_DOM_CTL_POLICY ∨
       field v 8 3 ≠ ctl s PWR_DOM_CTL_LOWSTATE ∨ field v 12 17 ≠ ctl s PWR_DOM_CTL_TIMER_US)
     (held → e = .next (s.powerVeto w dom)) ∧
     (¬ held → ∃ u, e = .next u ∧ served u t ∧ ctl u PWR_DOM_CTL_POLICY = field v 4 2 ∧ ctl u PWR_DOM_CTL_WAKE = field v 11 1 ∧
       ctl u PWR_DOM_CTL_LOWSTATE = (if lowOk cls (field v 8 3) then field v 8 3 else ctl s PWR_DOM_CTL_LOWSTATE) ∧
       ctl u PWR_DOM_CTL_TIMER_US = (if 1 ≤ field v 12 17 ∧ field v 12 17 ≤ 100000 then field v 12 17 else ctl s PWR_DOM_CTL_TIMER_US))) ∧
    (let o := field v 0 24
     let a := if s.part = .x1 then 0 else field v 24 8
     let o0 := vote s PWR_DOM_VOTE_OPEN
     let a0 := vote s PWR_DOM_VOTE_WALLED
     let e := exec (.pwrDomVote w dom v) s
     let held := w.walled = false ∧ s.part = .a1 ∧ a ≠ a0
     let rises := (o &&& (0xFFFFFF ^^^ o0)) ≠ 0 ∨ (a &&& (0xFF ^^^ a0)) ≠ 0
     let wanted := goal ≠ 0 ∨ st s PWR_DOM_STATUS_PEND ≠ 0
     let claim := a0 = 0 ∧ a ≠ 0 ∧ (st s PWR_DOM_STATUS_BUSY ≠ 0 ∨ st s PWR_DOM_STATUS_PEND ≠ 0)
     (held → e = .next (s.powerVeto w dom)) ∧
     (¬ held → ∃ u, e = .next u ∧ vote u PWR_DOM_VOTE_OPEN = o ∧ vote u PWR_DOM_VOTE_WALLED = a ∧
       st u PWR_DOM_STATUS_WHELD = (if a = 0 then 0 else 1) ∧
       (claim → served u 0) ∧
       (¬ claim → ctl s PWR_DOM_CTL_POLICY < 2 → u = { s with regs := u.regs } ∧
         same u [PWR_DOM_STATUS_STATE, PWR_DOM_STATUS_BUSY, PWR_DOM_STATUS_PROG, PWR_DOM_STATUS_PEND]) ∧
       (2 ≤ ctl s PWR_DOM_CTL_POLICY → rises → wanted → served u 0) ∧
       (ctl s PWR_DOM_CTL_POLICY = 2 → (o0 ≠ 0 ∨ a0 ≠ 0) → o = 0 → a = 0 → served u (ctl s PWR_DOM_CTL_LOWSTATE)))) ∧
    (let low := ctl s PWR_DOM_CTL_LOWSTATE
     let pol := ctl s PWR_DOM_CTL_POLICY
     let due := (pol = 1 ∨ (pol = 3 ∧ vote s PWR_DOM_VOTE_OPEN = 0 ∧ vote s PWR_DOM_VOTE_WALLED = 0)) ∧
       (cls = .tile → s.tileIdle (domTile dom) = true) ∧ st s PWR_DOM_STATUS_STATE < low
     (¬ due → exec (.idleTimerExpiry dom) s = .next s) ∧
     (due → ∃ u, exec (.idleTimerExpiry dom) s = .next u ∧ served u low)) ∧
    (s.mode ≠ .m6 → s.mode ≠ .m7 →
      (running → st s PWR_DOM_STATUS_PEND = 0 → exec (.wake dom) s = .next s) ∧
      (¬ (running ∧ st s PWR_DOM_STATUS_PEND = 0) → s.outranked 1 = false → ∃ u, exec (.wake dom) s = .next u ∧ served u 0)) ∧
    (s.outranked 1 = true → exec (.wake dom) s = .next s) ∧
    (let e := exec (.heldPacket dom p snoop answer) s
     let always := cls = .chan ∨ cls = .fb
     let room := answer = true ∨ (ctl s PWR_DOM_CTL_WAKE ≠ 0 ∧ (s.heldFor dom).length < 16)
     ((snoop = true ∨ running) →
       e = .next { s with delivered := s.delivered ++ [((s.domStop dom).1, (s.domStop dom).2, p)] }) ∧
     (snoop = false → ¬ running → ¬ always → ¬ room → e = .next (s.emit (.domainOff dom p))) ∧
     (snoop = false → ¬ running → (always ∨ room) →
       (s.outranked 1 = false → s.mode ≠ .m6 → s.mode ≠ .m7 → ∃ u, e = .next u ∧ u.heldFor dom = s.heldFor dom ++ [p] ∧ u.out = s.out ∧
         u.delivered = s.delivered ∧ served u 0) ∧
       (s.outranked 1 = true → ∃ u, e = .next u ∧ u.heldFor dom = s.heldFor dom ++ [p] ∧ u = { s with regs := u.regs, pwr := u.pwr }))) ∧
    (let e := exec (.domainChangeComplete dom) s
     let t := st s PWR_DOM_STATUS_PROG
     let drained := (s.core (2 * domTile dom)).sb = [] ∧ (s.core (2 * domTile dom + 1)).sb = [] ∧ s.tileBusy (domTile dom) = false
     (st s PWR_DOM_STATUS_BUSY = 0 → st s PWR_DOM_STATUS_STATE ≠ 0 → e = .next s) ∧
     (st s PWR_DOM_STATUS_BUSY = 1 → st s PWR_DOM_STATUS_PEND = 0 → (t = 3 → cls ≠ .tile ∧ cls ≠ .cluster ∧ cls ≠ .port) →
       (cls = .tile → t = 2 → drained) →
       ∃ u, e = .next u ∧ st u PWR_DOM_STATUS_STATE = t ∧ st u PWR_DOM_STATUS_BUSY = 0 ∧
         st u PWR_DOM_STATUS_EPOCH = (st s PWR_DOM_STATUS_EPOCH + 1) % 2 ^ 16 ∧ u.heldFor dom = [] ∧ u.mem = s.mem ∧
         (t = 0 → u.out = s.out ∧
           u.delivered = s.delivered ++ (s.heldFor dom).map (fun q => ((s.domStop dom).1, (s.domStop dom).2, q))) ∧
         (t ≠ 0 → u.delivered = s.delivered ∧ u.out = s.out ++ (s.heldFor dom).map (fun q => Out.domainOff dom q))))

/-- A tile is granted the slowest of its request, the package cap, its thermal cap and its wear cap, P0 to at most 64
tiles, the next waiting in order. A level change that completes becomes the level, and a pending one starts. The
governor rises at once to its target and falls one level after 100 lower ticks; below 4.35 V HARD is set, below 4.1
V VSTOP. The package cap rises when the average exceeds TDP_W and falls after 10 ms below 95 %; the thermal cap
rises at 100 °C and falls at 95 °C. M6 is entered when its conditions hold and left by a wake. M7 is refused with
its reason, requested, entered when all is idle, and left by a wake. A clock change is refused, done already, or
awaits its restart. A request for M7 in a mode that has
no such transition is refused with MODE. Cites R25, R386, R515, R516, R517, R520, R521, R522, R534, R535, R537. -/
def Obligations.PowerLevelsAndSleep : Prop :=
  ∀ (s : State) (w : CtlWho) (lt die : Nat) (v : BitVec 64), lt < 256 → die < 10 →
    let perf := fun (x : State) (f : RField) => x.perf lt f
    let cap := fun (x : State) => x.fld 15 5 PWR_PKG_STATUS [] PWR_PKG_STATUS_CAP
    let tcap := fun (x : State) => tget x.pwr.tcap 0 lt
    (let e := exec (.pwrTilePerfReq lt v) s
     let r := field v 0 4
     let m := max (max r (cap s)) (max (tcap s) (s.wearCap lt))
     let code := if r = m then 0 else if cap s = m then 2 else if tcap s = m then 3 else 4
     (11 < r → e = .next s) ∧
     (r ≤ 11 → tcap s ≤ 11 → ∃ u, e = .next u ∧ perf u PWR_TILE_PERF_REQ = r ∧ u.mem = s.mem ∧
       (m ≠ 0 → perf u PWR_TILE_PERF_GRANT = m ∧ perf u PWR_TILE_PERF_LIMIT = code) ∧
       (m = 0 → (perf s PWR_TILE_PERF_GRANT = 0 ∨ s.p0Tiles.length < 64) → perf u PWR_TILE_PERF_GRANT = 0) ∧
       (m = 0 → perf s PWR_TILE_PERF_GRANT ≠ 0 → 64 ≤ s.p0Tiles.length →
         perf u PWR_TILE_PERF_GRANT = 1 ∧ perf u PWR_TILE_PERF_LIMIT = 1 ∧ lt ∈ u.pwr.p0q))) ∧
    (let l := s.lvl lt
     let e := exec (.levelChangeComplete lt) s
     (l.prog = none → e = .next s) ∧
     (∀ p, l.prog = some p → ∃ u, e = .next u ∧ u = { s with pwr := u.pwr } ∧ (u.lvl lt).cur = p ∧ (u.lvl lt).pend = none ∧
       (u.lvl lt).prog = (if l.pend = some p then none else l.pend) ∧
       tget u.pwr.gb 0 lt = field (s.reg (gkDie lt) 0x03A GK_TILE [lt % 128]) 8 12)) ∧
    (∀ vin v5 iin pin demand,
      let gov := fun (x : State) (f : RField) => x.fld 15 5 PWR_GOV_STATUS [] f
      let rail := fun (x : State) (f : RField) => x.fld 15 5 PWR_RAIL_STATUS [] f
      let vc := fun (f : RField) => s.fld 10 1 PWR_VIN_CTL [] f
      let t := govTarget vin v5 pin demand (vc PWR_VIN_CTL_SLEW) (vc PWR_VIN_CTL_IMAX)
      let l := gov s PWR_GOV_STATUS_LEVEL
      let low := s.pwr.govLow
      let e := exec (.governorTick vin v5 iin pin demand) s
      (4100 ≤ v5 → ∃ u, e = .next u ∧ u = { s with regs := u.regs, pwr := u.pwr } ∧ rail u PWR_RAIL_STATUS_VIN_MV = min vin 65535 ∧
        rail u PWR_RAIL_STATUS_V5_MV = min v5 65535 ∧ rail u PWR_RAIL_STATUS_IIN = min iin 32767 ∧
        gov u PWR_GOV_STATUS_LEVEL = (if t > l then t else if t < l ∧ 99 ≤ low then l - 1 else l) ∧
        u.pwr.govLow = (if t < l ∧ low < 99 then low + 1 else 0) ∧
        gov u PWR_GOV_STATUS_EPISODES = (if t > l ∧ l = 0 then min (gov s PWR_GOV_STATUS_EPISODES + 1) (2 ^ 16 - 1)
          else gov s PWR_GOV_STATUS_EPISODES) ∧
        (v5 < 4350 → gov u PWR_GOV_STATUS_HARD = 1) ∧ (4350 ≤ v5 → gov u PWR_GOV_STATUS_HARD = gov s PWR_GOV_STATUS_HARD) ∧
        (4400 ≤ v5 → u.pwr.vstop = false)) ∧
      (v5 < 4100 → s.pwr.vstop = false → ∃ x : State, e = .next (x.err 15 5 (ErrRec.mk1 1 0x0C 0 0)) ∧ x = { s with regs := x.regs, pwr := x.pwr } ∧
        gov x PWR_GOV_STATUS_VSTOP = 1 ∧ gov x PWR_GOV_STATUS_HARD = 1 ∧ x.pwr.vstop = true)) ∧
    exec .fallOvr s = .next (s.setFld 15 5 PWR_GOV_STATUS [] PWR_GOV_STATUS_FALL_OVR 1) ∧
    (∀ avg, let tdp := s.fld 15 5 PWR_PKG_CTL [] PWR_PKG_CTL_TDP_W
      let under := 100 * avg < 95 * tdp
      let n := s.pwr.capGood
      ∃ u, exec (.packageCapTick avg) s = .next u ∧ u.fld 15 5 PWR_PKG_STATUS [] PWR_PKG_STATUS_AVG_W = min avg 2047 ∧
        cap u = (if avg > tdp then min (cap s + 1) 11 else if under ∧ 9 ≤ n then cap s - 1 else cap s) ∧
        u.pwr.capGood = (if ¬ avg > tdp ∧ under ∧ n < 9 then n + 1 else 0) ∧ u.mem = s.mem) ∧
    (∀ tj, ∃ u, exec (.thermalCapTick lt tj) s = .next u ∧ u.mem = s.mem ∧
      tcap u = (if tj ≥ 100 then min (tcap s + 1) 11 else if tj ≤ 95 then tcap s - 1 else tcap s)) ∧
    (let may := s.mode = .m5 ∧ (∀ k < 256, s.domSt (tileDom k) PWR_DOM_STATUS_STATE ≥ 2 ∧ s.domSt (tileDom k) PWR_DOM_STATUS_BUSY = 0) ∧
       s.flag 15 5 PWR_PKG_CTL [] PWR_PKG_CTL_M6_EN = true ∧ s.contracts = false
     (¬ may → exec .m6Entry s = .next s) ∧
     (may → ∃ u, exec .m6Entry s = .next u ∧ u.mode = .m6 ∧ u.mem = s.mem ∧
       ∀ ch < 16, u.domSt (chanDom ch) PWR_DOM_STATUS_STATE ≥ 1) ∧
     (s.mode ≠ .m6 → exec .m6Exit s = .next s) ∧
     (s.mode = .m6 → ∃ u, exec .m6Exit s = .next u ∧ u.mode = .m5 ∧ u.pwr.sleep = [] ∧ u.mem = s.mem)) ∧
    (let asked := s.flag 15 5 PWR_PKG_CTL [] PWR_PKG_CTL_M7_REQ = true
     let refuses := fun (i : Instr) (r : Nat) => ∃ u, exec i s = .next u ∧ u = { s with regs := u.regs } ∧
       u.flag 15 5 PWR_PKG_CTL [] PWR_PKG_CTL_M7_REQ = false ∧ u.fld 15 5 PWR_PKG_STATUS [] PWR_PKG_STATUS_M7_REFUSED = 1 ∧
       u.fld 15 5 PWR_PKG_STATUS [] PWR_PKG_STATUS_M7_REASON = r
     let silent := s.heldDomain = none ∨ w.walled = true
     let from_ := s.mode.m7From = true
     (∀ r, s.m7Bar = some r → from_ → (silent → refuses (.m7Req w) r) ∧ (asked → refuses .m7Entry r)) ∧
     (¬ from_ → silent → exec (.m7Req w) s = .next (if s.outranked 0 then s else s.ghRefuse 1)) ∧
     (from_ → s.m7Bar = none →
       exec (.m7Req w) s = .next (s.setFld 15 5 PWR_PKG_CTL [] PWR_PKG_CTL_M7_REQ 1) ∧
       (asked → s.allIdle = false → exec .m7Entry s = .next s) ∧
       (asked → s.allIdle = true → (∀ k < 256, s.tileSt k ≥ 3) → ∃ u, exec .m7Entry s = .next u ∧ u.mode = .m7 ∧
         u.flag 15 5 PWR_PKG_CTL [] PWR_PKG_CTL_M7_REQ = false ∧ u.mem = s.mem)) ∧
     (¬ from_ ∨ ¬ asked → exec .m7Entry s = .next s) ∧
     (asked → s.allIdle = false → refuses .m7RefusalTimeout 1) ∧
     (¬ asked ∨ s.allIdle = true → exec .m7RefusalTimeout s = .next s) ∧
     (s.mode ≠ .m7 → exec .m7Exit s = .next s) ∧
     (s.mode = .m7 → ∃ u, exec .m7Exit s = .next u ∧ u.mode = .m5 ∧ u.pwr.sleep = [] ∧ u.mem = s.mem)) ∧
    (let cd := decide (die < 8)
     let now := fun (x : State) => if cd then x.reg die 0x050 CLK_CD [] else x.reg die 0x03C CLK_IOD []
     let wd := if cd then 8 else 36
     let clean := foldN (wd / 4) (fun (a : Nat) k => a + field v 0 wd / 2 ^ (4 * k) % 8 * 2 ^ (4 * k)) 0
     let cur := field (now s) 0 wd
     let tgt := match tfind s.pwr.clk die with
       | some t => t.toNat
       | none => cur
     let e := exec (.clockChange die v) s
     let legal := 1 ≤ clean % 8 ∧ clean % 8 ≤ (if cd then 5 else 4)
     let bound := (clean % 8 ≠ cur % 8 ∧ s.fabricBound die = true) ∨
       (cd = true ∧ clean / 16 % 8 ≠ cur / 16 % 8 ∧ s.kioskBound 1 (32 * die) (32 * die + 31) = true) ∨
       (cd = false ∧ ∃ c < 8, clean / 2 ^ (4 * c + 4) % 8 ≠ cur / 2 ^ (4 * c + 4) % 8 ∧
         s.kioskBound 2 (128 * (die - 8) + 16 * c) (128 * (die - 8) + 16 * c + 15) = true)
     (bitOf v (wd + 1) = false → ¬ legal ∨ bound → ∃ u, e = .next u ∧ u = { s with regs := u.regs } ∧ bitOf (now u) (wd + 1) = true ∧
       field (now u) 0 (wd + 1) = field (now s) 0 (wd + 1)) ∧
     (bitOf v (wd + 1) = false → legal → ¬ bound → clean = tgt → ∃ u, e = .next u ∧ u = { s with regs := u.regs } ∧ now u = now s) ∧
     (legal → ¬ bound → clean ≠ tgt → ∃ u, e = .next u ∧ u = { s with regs := u.regs, pwr := u.pwr } ∧ bitOf (now u) wd = true ∧
       tfind u.pwr.clk die = some (v64 clean) ∧ field (now u) 0 wd = cur) ∧
     (tfind s.pwr.clk die = none → exec (.clockChangeDone die) s = .next s) ∧
     (∀ t, tfind s.pwr.clk die = some t → ∃ u, exec (.clockChangeDone die) s = .next u ∧ bitOf (now u) wd = false ∧
       field (now u) 0 wd = t.toNat % 2 ^ wd ∧ tfind u.pwr.clk die = none ∧ u = { s with regs := u.regs, pwr := u.pwr, ports := u.ports } ∧
       (if field (now s) 0 3 = t.toNat % 8 then u.ports = s.ports else tget u.ports.base 0 die = s.time)))

/-- Loss of VIN or a trip takes a powered package to M1 with DRAM and cores forgotten, fuses, flash and ID kept; loss of
standby to M0 without the ID. With an ID, valid VIN and a power-on request (or AUTO_ON and no trip) M1 goes to M2
with timebase 0. Two equal good frames give the ID plus 1, 7 a held FAULT 1; CHAIN_IN low gives ID 0. The first
pulse sets the timebase, a later one measures the error. A command of Table 19-8 is refused with MODE, SOURCE, AUTH
or BUSY, in this order (the order is the model's, a log entry); accepted, it has the effect of its row and ends the
authorisation. A falling RESET_N acts as a warm reset where Table 1-5 has one; a warm reset of the same Trellis cycle
as a fatal error or a cold reset is discarded. Cites R26, R27, R514, R540, R560,
R561, R574, R578, R612, R614, R617, R619. -/
def Obligations.PowerAndResets : Prop :=
  ∀ (s : State) (w : Option CtlWho) (k id : Nat) (ok : Bool), id < 8 →
    let b := s.boot
    let fault := fun (u : State) (reason : Nat) => u.boot.held = true ∧ u.gh GH_STATUS GH_STATUS_FAULT = 1 ∧ u.gh GH_FAULT GH_FAULT_REASON = reason
    let kept := fun (u : State) => u.mem = [] ∧ u.memTags = [] ∧ u.cores = [] ∧ u.boot.fuses = b.fuses ∧ u.boot.flashA = b.flashA ∧
      u.boot.flashB = b.flashB ∧ (u.mode ≠ .m0 → s.mode = .m9 ∨ (u.boot.lifeA = b.lifeA ∧ u.boot.lifeB = b.lifeB)) ∧ u.part = s.part ∧ u.out = s.out ∧ u.pending = s.pending
    let fell := fun (u : State) => kept u ∧ u.mode = .m1 ∧ u.socketId = s.socketId ∧ u.boot.idHeld = b.idHeld
    let up := fun (x : State) => x.boot.idHeld = true ∧ x.boot.vinValid = true ∧ x.boot.held = false ∧
      (x.boot.powerOn = true ∨ (x.boot.fuses.autoOn = true ∧ x.boot.thermtrip = false))
    let risen := fun (u : State) => u.mode = .m2 ∧ u.time = 0 ∧ u.boot.step = 1 ∧ u.boot.powerOn = false
    let warm := fun (u : State) => u.mode = .m2 ∧ u.boot.step = 1 ∧ u.mem = s.mem ∧ u.memTags = s.memTags ∧ u.cores = [] ∧
      u.socketId = s.socketId ∧ u.boot.fuses = b.fuses ∧ u.boot.idHeld = b.idHeld ∧ u.part = s.part
    (s.mode.coldOk = true → (∃ u, exec .vinOutOfRange s = .next u ∧ fell u ∧ u.boot.vinValid = false) ∧
      ∀ i ∈ [Instr.firmwareTrip, .analogueTrip], ∃ u, exec i s = .next u ∧ fell u ∧ u.boot.thermtrip = true) ∧
    (s.mode.coldOk = false → exec .vinOutOfRange s = .next { s with boot := { b with vinValid := false } } ∧
      exec .firmwareTrip s = .next s ∧ exec .analogueTrip s = .next s) ∧
    (∃ u, exec .standbyLost s = .next u ∧ kept u ∧ u.mode = .m0 ∧ u.boot.idHeld = false ∧ u.boot.lifeA = b.lifeA ∧ u.boot.lifeB = b.lifeB) ∧
    exec .standbyRise s = .next (if s.mode = .m0 then { s with mode := .m1 } else s) ∧
    (let x : State := { s with boot := { b with vinValid := true } }
     (s.mode = .m1 → up x → ∃ u, exec .vinValid s = .next u ∧ risen u) ∧
     (¬ (s.mode = .m1 ∧ up x) → exec .vinValid s = .next x)) ∧
    (let deaf := s.mode = .m0 ∨ b.idHeld = true ∨ b.held = true
     let f := exec (.chainFrame id ok) s
     (deaf ∨ ok = false → f = .next s) ∧ (deaf → exec .chainInLow s = .next s) ∧
     (¬ deaf → (∃ u, exec .chainInLow s = .next u ∧ u.boot.idHeld = true ∧ u.socketId = 0) ∧
       (ok = true → (b.chainLast ≠ some id → f = .next { s with boot := { b with chainLast := some id } }) ∧
         (b.chainLast = some id → id ≠ 7 → ∃ u, f = .next u ∧ u.boot.idHeld = true ∧ u.socketId = id + 1) ∧
         (b.chainLast = some id → id = 7 → ∃ u, f = .next u ∧ fault u 1))) ∧
     exec .chainOutFrame s = .next (if s.mode ≠ .m0 ∧ b.idHeld = true then s.emit (.chainFrame s.socketId) else s)) ∧
    (let ts := fun (x : State) (f : RField) => x.fld 15 3 CLK_TS_STATUS [] f
     let now := k * 2 ^ 20 + s.fld 15 3 CLK_TS_CTL [] CLK_TS_CTL_DELAY_NS
     let err : Int := Int.ofNat s.time - Int.ofNat now
     let pulse := exec (.timesync k) s
     let runs := s.socketId ≠ 0 ∧ s.runPins = true
     let drives := s.socketId = 0 ∧ b.idHeld = true ∧ s.runPins = true
     (¬ runs → pulse = .next s) ∧ (¬ drives → exec .timesyncDrive s = .next s) ∧
     (drives → ∃ u, exec .timesyncDrive s = .next u ∧ u.out = s.out ++ [.timesync] ∧
       ts u CLK_TS_STATUS_PULSES = min (ts s CLK_TS_STATUS_PULSES + 1) (2 ^ 32 - 1)) ∧
     (runs → ts s CLK_TS_STATUS_PULSES = 0 → ∃ u, pulse = .next u ∧ u.time = now % 2 ^ 64 ∧ ts u CLK_TS_STATUS_PULSES = 1) ∧
     (runs → ts s CLK_TS_STATUS_PULSES ≠ 0 → err.natAbs ≤ 1000 → ts s CLK_TS_STATUS_RESTART = 0 → ∃ u, pulse = .next u ∧ u.time = s.time ∧
       u.reg 15 3 CLK_TS_OFFSET [] = BitVec.ofInt 64 err ∧ ts u CLK_TS_STATUS_ERR_NS = (err % 65536).toNat ∧
       ts u CLK_TS_STATUS_LOCKED = (if err.natAbs ≤ 20 then 1 else 0) ∧
       (b.bringWait = true → s.mode = .m4 → err.natAbs ≤ 20 → u.mode = .m5 ∧ u.boot.coresDue = true) ∧
       (b.bringWait = false → u = { s with regs := u.regs }))) ∧
    (let mgmt := w = none
     let walled := ∃ x, w = some x ∧ x.walled = true
     let auth := s.gh GH_STATUS GH_STATUS_AUTH_OK ≠ 0
     let table : List (Instr × Prop × Prop × Prop) := [(.powerOn w, s.mode = .m1, mgmt, True), (.warmReset w, s.mode.warmOk = true, True, True),
       (.coldReset w, s.mode.coldOk = true, True, True), (.maint w, s.mode = .m5, ¬ mgmt, True), (.maintDone w, s.mode = .m8, ¬ mgmt, True),
       (.mfgTest w, s.mode = .m3 ∧ b.keysRead = some true, mgmt, auth), (.debug w, s.mode = .m5 ∧ s.part = .x1, mgmt, auth),
       (.debugResume w, s.mode = .m10, mgmt, True), (.svnCommit w, s.mode = .m5, s.part = .x1 ∨ walled, True)]
     let busy := b.powerOn = true ∨ b.scrub = true
     let refused := fun (i : Instr) (r : Nat) => ∃ u, exec i s = .next u ∧ u = { s with regs := u.regs } ∧
       u.gh GH_STATUS GH_STATUS_REFUSED = 1 ∧ u.gh GH_STATUS GH_STATUS_RREASON = r
     let none_ := s.anyWalled = false
     (s.mode = .m0 → ∀ r ∈ table, exec r.1 s = .next s) ∧
     (s.outranked 2 = true → s.mode ≠ .m0 → (mgmt → s.mode ≠ .m6 ∧ s.mode ≠ .m7) → s.heldDomain = none → exec (.warmReset w) s = .next s) ∧
     (s.mode ≠ .m0 → (mgmt → s.mode ≠ .m6 ∧ s.mode ≠ .m7) → s.heldDomain = none → s.outranked 0 = false →
       (∀ r ∈ table, (¬ r.2.1 → refused r.1 1) ∧ (r.2.1 → ¬ r.2.2.1 → refused r.1 2) ∧
         (r.2.1 → r.2.2.1 → ¬ r.2.2.2 → refused r.1 3) ∧ (r.2.1 → r.2.2.1 → r.2.2.2 → busy → refused r.1 4)) ∧
       (¬ busy →
         (s.mode = .m1 → mgmt → ∃ u, exec (.powerOn w) s = .next u ∧ u.boot.thermtrip = false ∧
           ((b.idHeld = true ∧ b.vinValid = true ∧ b.held = false) → risen u) ∧
           (¬ (b.idHeld = true ∧ b.vinValid = true ∧ b.held = false) → u.mode = .m1 ∧ u.boot.powerOn = true)) ∧
         (s.mode.warmOk = true → none_ → ∃ u, exec (.warmReset w) s = .next u ∧ warm u) ∧
         (s.mode.coldOk = true → ∃ u, exec (.coldReset w) s = .next u ∧ kept u ∧
           u.mode = (if b.idHeld = true ∧ b.vinValid = true ∧ b.fuses.autoOn = true ∧ b.thermtrip = false then .m2 else .m1)) ∧
         (s.mode = .m5 → ¬ mgmt → ∃ u, exec (.maint w) s = .next u ∧ u = { s with mode := .m8, regs := u.regs }) ∧
         (s.mode = .m8 → ¬ mgmt → none_ → ∃ u, exec (.maintDone w) s = .next u ∧ warm u) ∧
         (s.mode = .m3 → b.keysRead = some true → mgmt → auth → ∃ u, exec (.mfgTest w) s = .next u ∧ u.mode = .m11 ∧ u.boot.held = false ∧
           u.gh GH_STATUS GH_STATUS_FAULT = 0 ∧ u.gh GH_STATUS GH_STATUS_AUTH_OK = 0) ∧
         (s.mode = .m5 → s.part = .x1 → mgmt → auth → ∃ u, exec (.debug w) s = .next u ∧ u = { s with mode := .m10, regs := u.regs } ∧
           u.gh GH_STATUS GH_STATUS_AUTH_OK = 0) ∧
         (s.mode = .m10 → mgmt → ∃ u, exec (.debugResume w) s = .next u ∧ u.mode = .m5 ∧ ∀ lc < 512, (u.core lc).halted = false) ∧
         (s.mode = .m5 → (s.part = .x1 ∨ walled) → ∃ u, exec (.svnCommit w) s = .next u ∧ u.mode = .m5 ∧
           u.boot.fuses = { b.fuses with svn := max b.fuses.svn (min 64 s.bundle.svn) })))) ∧
    (s.mode.warmOk = true → b.scrub = false → s.anyWalled = false → s.outranked 2 = false → ∃ u, exec .resetNFall s = .next u ∧ warm u ∧ u.boot.resetLow = true) ∧
    ((s.mode.warmOk = false ∨ s.outranked 2 = true) → exec .resetNFall s = .next { s with boot := { b with resetLow := true } }) ∧
    exec .resetNRise s = .next { s with boot := { b with resetLow := false } }

/-- The steps of Table 19-1 follow one another while the package is not held; RESET_N low stops it at step 2; step 3
reads the SVN fuses; step 5 reports a lifetime record of which no copy is valid. Step 4 accepts copy A, else copy B, with its boot configuration, or holds with FAULT 3 and both
codes, or 4; a step of M2 that does not end holds with FAULT 2. A self-test starts or waits by its conditions, and
holds with FAULT 5 after its time. A result counts a run; one rejected for the first time is counted and tested
again, rejected twice or with a wrong signature it fails; the last of step 2 must find the key slots zero; the last
of step 4 ends in M4 or a hold. A trained channel shows its modules, another is off. Bring-up ends in M5, or waits
for the lock. Every core that exists starts at ENTRY_PA. Cites R340, R562, R563, R564, R569, R570, R571, R572, R573,
R575, R576, R577. -/
def Obligations.SelfTestAndBringUp : Prop :=
  ∀ (s : State) (u : TestUnit) (flag count sig zero ok : Bool) (ch : Nat) (dimms : List Spd), ch < 16 →
    let b := s.boot
    let fault := fun (t : State) (reason : Nat) => t.boot.held = true ∧ t.gh GH_STATUS GH_STATUS_FAULT = 1 ∧ t.gh GH_FAULT GH_FAULT_REASON = reason
    let step := exec .powerUpStepDone s
    let steps := s.mode = .m2 ∧ b.held = false
    let goes := fun (n : Nat) => ∃ t, step = .next t ∧ t.boot.step = n ∧ t.mem = s.mem
    ((b.held = true ∨ (s.mode ≠ .m2 ∧ s.mode ≠ .m3)) → step = .next s) ∧
    (steps → (b.step = 1 → step = .next { s with boot := { b with step := 2, event := none } }) ∧ (b.step = 2 → b.resetLow = true → step = .next s) ∧
      (b.step = 2 → b.resetLow = false → goes 3) ∧ (b.step = 3 → goes 4 ∧ ∃ t, step = .next t ∧ t.boot.svn = b.fuses.svn) ∧
      (b.step = 5 → (b.lifeA.ok = true ∨ b.lifeB.ok = true) → goes 6) ∧
      (b.step = 5 → b.lifeA.ok = false → b.lifeB.ok = false → ∃ x : State, step = .next (x.err 8 0x03A (ErrRec.mk1 4 0x19 0 0)) ∧ x.boot.step = 6 ∧
        x.mem = s.mem ∧ x.fld 8 0x03A GK_LIFE_STATUS [] GK_LIFE_STATUS_LOST = 1) ∧ (b.step = 6 → goes 7 ∧ ∃ t, step = .next t ∧ t.mode = .m3)) ∧
    (s.mode = .m3 → b.held = false → b.step = 7 → ∃ t, step = .next t ∧ t.boot.step = 8 ∧ t.boot.stage = 2) ∧
    (steps → b.step = 4 →
      let x := bundleCheck b.fuses b.svn b.flashA
      let y := bundleCheck b.fuses b.svn b.flashB
      let flash := fun (t : State) (f : RField) => t.fld 10 0 GH_FLASH_STATUS [] f
      let takes := fun (c : Bool) (d : Bundle) => ∃ t, step = .next t ∧ t.boot.accepted = some c ∧ t.gh GH_STATUS GH_STATUS_COPY = c.toNat ∧
        flash t GH_FLASH_STATUS_A_VALID = (!c).toNat ∧ flash t GH_FLASH_STATUS_B_VALID = c.toNat ∧
        (d.conf.ok (d.parts.getD 2 []).length = true → t.boot.step = 5 ∧ t.bootCfg = d.conf) ∧
        (d.conf.ok (d.parts.getD 2 []).length = false → fault t 4)
      (x = 0 → takes false b.flashA) ∧ (x ≠ 0 → y = 0 → takes true b.flashB) ∧
      (x ≠ 0 → y ≠ 0 → ∃ t, step = .next t ∧ fault t 3 ∧ t.gh GH_FAULT GH_FAULT_AUTH_A = x ∧ t.gh GH_FAULT GH_FAULT_AUTH_B = y ∧
        t.boot.accepted = b.accepted)) ∧
    (let late := s.mode = .m2 ∧ b.held = false ∧ 1 ≤ b.step ∧ b.step ≤ 6 ∧ ¬ (b.step = 2 ∧ b.resetLow = true)
     (¬ late → exec .powerUpStepTimeout s = .next s) ∧ (late → ∃ t, exec .powerUpStepTimeout s = .next t ∧ fault t 2)) ∧
    (let may := s.mode = .m3 ∧ b.held = false ∧ 2 ≤ b.stage ∧ b.stage ≤ 4 ∧ b.testing = false
     let starts : State := { s with boot := { b with testing := ok, waiting := !ok } }
     (¬ may → exec (.selfTestRequest ok) s = .next s ∧ exec (.selfTestRetry ok) s = .next s) ∧
     (may → exec (.selfTestRequest ok) s = .next starts) ∧
     (may → b.waiting = true → exec (.selfTestRetry ok) s = .next starts) ∧
     (b.waiting = false → exec (.selfTestRetry ok) s = .next s) ∧
     (let late := s.mode = .m3 ∧ b.held = false ∧ b.waiting = true
      (¬ late → exec .selfTestConditionsTimeout s = .next s) ∧
      (late → ∃ t, exec .selfTestConditionsTimeout s = .next t ∧ fault t 5 ∧ t.boot.waiting = false))) ∧
    (let tests := s.mode = .m3 ∧ b.held = false ∧ b.testing = true ∧ s.untested u = false
     let e := fun (last : Bool) => exec (.testResult u flag count sig last zero) s
     let bist := fun (t : State) (f : RField) => t.gh GH_BIST f
     let accepted := flag = true ∧ count = true
     let fails := (accepted ∧ sig = false) ∨ (¬ accepted ∧ b.rejected.contains u = true)
     (¬ tests → ∀ last, e last = .next s) ∧
     (tests → ∃ t, e false = .next t ∧ bist t GH_BIST_RUN = min (bist s GH_BIST_RUN + 1) (2 ^ 16 - 1) ∧ t.boot.testing = flag ∧
       bist t GH_BIST_REJECTED = (if accepted then bist s GH_BIST_REJECTED else min (bist s GH_BIST_REJECTED + 1) (2 ^ 16 - 1)) ∧
       (¬ accepted → b.rejected.contains u = false → u ∈ t.boot.rejected ∧ t.boot.badStops = b.badStops ∧ t.boot.uncore = b.uncore) ∧
       (∀ n, fails → u = .tile n → n ∈ t.boot.badStops) ∧ (∀ n, fails → u = .node n → t.boot.uncore.isSome = true) ∧
       (accepted → sig = true → t.boot.badStops = b.badStops ∧ t.boot.uncore = b.uncore ∧ u ∉ t.boot.rejected)) ∧
     (tests → accepted →
       (b.stage = 2 → zero = true → ∃ t, e true = .next t ∧ t.boot.stage = 3 ∧ t.boot.keysRead = some true) ∧
       (b.stage = 2 → zero = false → ∃ t, e true = .next t ∧ fault t 6) ∧
       (b.stage = 3 → ∃ t, e true = .next t ∧ t.boot.stage = 4) ∧
       (b.stage = 4 → ∃ t, e true = .next t ∧ t.boot.stage = 7 ∧ bist t GH_BIST_DONE = 1 ∧ (t.mode = .m4 ∨ t.boot.held = true)))) ∧
    (let e := exec (.trainingComplete ch dimms ok) s
     (s.mode ≠ .m4 → e = .next s) ∧
     (s.mode = .m4 → ∃ t, e = .next t ∧ t.boot.trained = b.trained ||| 2 ^ ch ∧ t.mem = s.mem ∧
       (∀ d r rate, dimms = d :: r → trainRate dimms = some rate → ok = true → t.mf ch MEM_CFG MEM_CFG_TRAINED = 1 ∧
         t.mf ch MEM_CFG MEM_CFG_TYPE = d.kind ∧ t.mf ch MEM_CFG MEM_CFG_RATE = rate ∧ t.mf ch MEM_CFG MEM_CFG_WIDTH = d.x8.toNat ∧
         t.mf ch MEM_CFG MEM_CFG_DPC = dimms.length - 1 ∧ t.mf ch MEM_CFG MEM_CFG_RANKS = dimms.length * d.ranks - 1) ∧
       (dimms = [] → t.domSt (chanDom ch) PWR_DOM_STATUS_STATE = 3) ∧
       (dimms ≠ [] → (trainRate dimms = none ∨ ok = false) → t.domSt (chanDom ch) PWR_DOM_STATUS_STATE = 3 ∧
         t.mf ch MEM_STATUS MEM_STATUS_TRAIN_FAIL = 1))) ∧
    (let c := s.bootCfg
     let image := s.bundle.parts.getD 2 []
     let r := foldN 4 (fun (x : State) n => x.memRangeWrite n (c.memRange.getD n 0)) s
     let e := exec (.bringUp [] true) s
     let ready := s.mode = .m4 ∧ b.trained % 2 ^ 16 = 0xFFFF ∧ b.bringWait = false
     let locked := s.socketId = 0 ∨ s.flag 15 3 CLK_TS_STATUS [] CLK_TS_STATUS_LOCKED = true
     (¬ ready → e = .next s) ∧
     (ready → r.bringSpans = false → e = .next (r.fatal 15 1 0x7 0 0)) ∧
     (ready → r.bringSpans = true → sha384 image = s.bundle.digests.getD 2 [] →
       (locked → ∃ t, e = .next t ∧ t.mode = .m5 ∧ t.boot.coresDue = true ∧ t.injEn = true) ∧
       (¬ locked → ∃ t, e = .next t ∧ t.boot.bringWait = true ∧ t.injEn = true))) ∧
    (let starts := s.mode = .m5 ∧ b.coresDue = true
     (¬ starts → exec .coreStart s = .next s) ∧
     (starts → ∃ t, exec .coreStart s = .next t ∧ t.boot.coresDue = false ∧ t.mem = s.mem ∧
       ∀ lc < 512, t.core lc = if s.coreExists lc then
         { Core.atReset s.part with pc := s.bootCfg.entryPa, started := true } else s.core lc))

/-- Before a bundle copy is accepted every SPDM request is answered Busy, later with its response (the codes and layout
of responses are the model's, a log entry); an authorisation by the manufacturing key sets AUTH_OK. A GPIO change
with its edge enabled goes to the monitor queue or to the queue of GH_GPIO_Q, or counts a drop. ENTDAA and SETDASA
set the I3C address; the TAP shifts out its identification code, EXTEST and INTEST act only in M11. A rail or
Gatehouse failure is fatal and enters M9. A later measurement raises SLOW to the least of three in a row, and the
guardbands only rise. A second costs wear by level, doubled above 95 °C. A replacement takes the first spare that
passes, and its map is written at once. The lifetime record is written over the older or invalid copy. Cites R568, R574, R579, R590, R591, R598,
R599, R600, R603, R604, R620, R621. -/
def Obligations.ManagementPinsAndLife : Prop :=
  ∀ (s : State) (addr static pin slot off len block lt tj raw rr sg : Nat) (nonce key msg : List Nat) (p384 sha level hour : Bool) (v : BitVec 64),
    addr < 128 → static < 128 → pin < 32 → lt < 256 →
    let b := s.boot
    (let all := [Instr.getVersion, .getCapabilities, .negotiateAlgorithms p384 sha, .getDigests, .getCertificate slot off len,
       .challenge slot nonce, .getMeasurements block nonce false, .vendorDefinedRequest key msg rr sg]
     let gives := fun (i : Instr) (o : Out) => exec i s = .next (s.emit o)
     let chain := Sys2Proof.Config.aliasChain b.fuses.seed (s.measSlot 0)
     let d := sha384 chain
     (s.mode = .m0 → ∀ i ∈ all, exec i s = .next s) ∧
     (s.mode ≠ .m0 → b.accepted = none → ∀ i ∈ all, gives i (.spdmError 3)) ∧
     (s.mode ≠ .m0 → s.mode ≠ .m6 → s.mode ≠ .m7 → b.accepted ≠ none →
       gives .getVersion (.spdm 0x84 [(0, [0x12])]) ∧ gives .getCapabilities (.spdm 0xE1 [(0, [0x12])]) ∧
       gives (.negotiateAlgorithms p384 sha) (if p384 = true ∧ sha = true then .spdm 0xE3 [(0, [0x80]), (1, [0x02])] else .spdmError 1) ∧
       gives .getDigests (.spdm 0x81 [(0, d)]) ∧
       gives (.getCertificate slot off len) (if slot = 0 then .spdm 0x82 [(0, (chain.drop off).take len)] else .spdmError 1) ∧
       (slot ≠ 0 → gives (.challenge slot nonce) (.spdmError 1)) ∧
       (slot = 0 → exec (.challenge slot nonce) s = .next (({ s with free := s.free + 1 }).emit (.spdm 0x83
         [(0, d), (1, Sys2Proof.Config.aliasSign b.fuses.seed (s.measSlot 0) (d ++ nonce) s.free)]))) ∧
       gives (.getMeasurements 0 nonce false) (.spdm 0xE0 [(0, [17])]) ∧
       (block < 16 → gives (.getMeasurements (block + 1) nonce false) (.spdm 0xE0 [(block + 1, s.measSlot block)])) ∧
       gives (.getMeasurements 17 nonce false) (.spdm 0xE0 [(17, s.stateRecord)]) ∧
       gives (.getMeasurements 18 nonce false) (.spdmError 1) ∧
       (let good := sha384 key = b.fuses.mfgHash ∧ ecdsaOk key msg rr sg = true
        (¬ good → gives (.vendorDefinedRequest key msg rr sg) (.spdmError 1)) ∧
        (good → exec (.vendorDefinedRequest key msg rr sg) s =
          .next ((s.setGh GH_STATUS GH_STATUS_AUTH_OK 1).emit (.spdm 0xFE [])))))) ∧
    (let e := exec (.gpioInputChange pin level) s
     let seen := s.runPins = true ∧ natBit b.gpioPins pin ≠ level
     let x : State := { s with boot := { b with gpioPins := b.gpioPins ^^^ 2 ^ pin } }
     let edge := bitOf (s.reg 15 1 GH_GPIO_EDGE []) (if level then pin else 32 + pin) = true
     let walled := s.part = .a1 ∧ natBit (s.ww WW_GPIO_WORLD WW_GPIO_WORLD_PINS) pin = true
     let q := s.gh GH_GPIO_Q GH_GPIO_Q_QUEUE
     let on := s.gh GH_GPIO_Q GH_GPIO_Q_EN = 1
     let fits := qSystem q = false ∧ s.qf q URN_QCFG URN_QCFG_WORLD = 0 ∧ s.qWords q = 1
     let entry := Word.data (v64 (pin + level.toNat * 32 + s.time % 2 ^ 56 * 2 ^ 8))
     let drop := fun (t : State) => t.addFld 15 1 GH_GPIO_Q [] GH_GPIO_Q_DROPS 1
     (¬ seen → e = .next s) ∧ (seen → ¬ edge → e = .next x) ∧
     (seen → edge → walled → e = .next (x.monPush 0x85 0 pin level.toNat)) ∧
     (seen → edge → ¬ walled → ¬ on → e = .next x) ∧ (seen → edge → ¬ walled → on → ¬ fits → e = .next (drop x)) ∧
     (seen → edge → ¬ walled → on → fits → ∀ t, (x.hwPush q [entry] = (t, true) → e = .next t) ∧
       (x.hwPush q [entry] = (t, false) → e = .next (drop t)))) ∧
    (let on := s.mode ≠ .m0
     let tap := fun (i : TapIns) => ({ s with boot := { b with tap := i } } : State)
     let named := on ∧ b.idHeld = true ∧ static = 0x30 + s.socketId
     let code := (if s.part = .a1 then 1 else 2) * 2 ^ 28 + 0x8512 * 2 ^ 12 + Sys2Proof.Config.jedecCode.toNat * 2 + 1
     (¬ on → ∀ i ∈ [Instr.entdaa addr, .setdasa static addr, .idcode, .bypass, .samplePreload, .extest, .intest, .tapReset], exec i s = .next s) ∧
     (¬ named → exec (.setdasa static addr) s = .next s) ∧
     (named → exec (.setdasa static addr) s = .next { s with boot := { b with i3c := some addr } }) ∧
     (on → exec (.entdaa addr) s = .next { s with boot := { b with i3c := some addr } } ∧
       exec .idcode s = .next ((tap .idcode).emit (.tdo 32 code)) ∧ exec .bypass s = .next ((tap .bypass).emit (.tdo 1 0)) ∧
       exec .samplePreload s = .next (tap .sample) ∧ exec .tapReset s = .next (tap .idcode) ∧
       (s.mode = .m11 → exec .extest s = .next (tap .extest) ∧ exec .intest s = .next (tap .intest)) ∧
       (s.mode ≠ .m11 → ∀ i ∈ [Instr.extest, .intest], exec i s = .next ((tap .bypass).emit (.tdo 1 0))))) ∧
    (let dies := fun (i : Instr) => ∃ u, exec i s = .next u ∧ u.mode = .m9 ∧ u.injEn = false ∧ u.lifeDue = true ∧
       u.gh GH_STATUS GH_STATUS_FAULT = 1 ∧ u.gh GH_FAULT GH_FAULT_REASON = 9
     (s.mode.fatalLeaves = true → dies .internalRailOutOfRange ∧ dies .gatehouseStateError) ∧
     (s.mode ∈ [.m0, .m1, .m2, .m3, .m11] → exec .internalRailOutOfRange s = .next s) ∧
     (s.mode = .m0 → exec .gatehouseStateError s = .next s)) ∧
    (let gk := fun (x : State) (f : RField) => x.gkTile lt f
     let e := exec (.ageMeasurement lt raw) s
     let acts := s.flag (gkDie lt) 0x03A GK_AGE_CTL [] GK_AGE_CTL_EN = true ∧ s.tileSt lt ≤ 1
     let runs := tget s.life.runs [] lt
     let bands := [(GK_TILE_GB0, 15), (GK_TILE_GB1, 20), (GK_TILE_GB2, 25)]
     (¬ acts → e = .next s) ∧
     (acts → tfind s.life.offset lt = none → ∃ u, e = .next u ∧ tfind u.life.offset lt = some raw ∧ u.lifeDue = true ∧
       gk u GK_TILE_SLOW = gk s GK_TILE_SLOW) ∧
     (∀ o, acts → tfind s.life.offset lt = some o →
       let low := min (raw - o) (min (runs.getD 0 0) (runs.getD 1 0))
       let rises := gk s GK_TILE_SLOW < low ∧ gk s GK_TILE_SLOW < 255
       let beyond := rises ∧ 12 < (min low 255 * 25 + 49) / 50
       let aged := fun (u : State) => u = { s with regs := u.regs, life := u.life, lifeDue := u.lifeDue } ∧
         gk u GK_TILE_SLOW = (if rises then min low 255 else gk s GK_TILE_SLOW) ∧
         ∀ p ∈ bands, gk u p.1 = if rises then max (gk s p.1) (min 12 ((gk u GK_TILE_SLOW * p.2 + 49) / 50)) else gk s p.1
       (¬ beyond → ∃ u, e = .next u ∧ aged u) ∧
       (beyond → ∃ x, e = .next ((x.propose lt 1).quietCheck lt) ∧ aged x ∧ gk x GK_TILE_AGE_LIMIT = 1)) ∧
     (let g := field (s.reg (gkDie lt) 0x03A GK_TILE [lt % 128]) 8 12
      exec (.guardbandRamp lt) s = .next { s with pwr := { s.pwr with gb := tset s.pwr.gb 0 lt g } })) ∧
    (let w := fun (x : State) (f : RField) => x.gkWear lt f
     let lv := (s.lvl lt).cur
     let cost := if s.tileSt lt = 0 then (match lv with | 0 => 4 | 1 => 2 | 2 => 1 | _ => 0) * (if tj > 95 then 2 else 1) else 0
     let rate := s.fld (gkDie lt) 0x03A GK_WEAR_CTL [] GK_WEAR_CTL_RATE
     let b1 := w s GK_WEAR_BALANCE - cost
     let b2 := if hour then min (b1 + rate) (max b1 (168 * rate)) else b1
     ∃ u, exec (.wearUpdate lt tj hour) s = .next u ∧ u.mem = s.mem ∧ w u GK_WEAR_BALANCE = b2 ∧
       w u GK_WEAR_CAPPED = (if b1 = 0 ∧ b2 < 3600 then 1 else if 3600 ≤ b2 then 0 else w s GK_WEAR_CAPPED)) ∧
    (let cmd := fun (x : State) (f : RField) => x.fld 8 0x03A GK_RETIRE_CMD [] f
     let st := fun (x : State) (f : RField) => x.fld 8 0x03A GK_RETIRE_STATUS [] f
     let t := field v 0 8
     let d := ltDie t
     let tests := fun (l : List Bool) => exec (.retire v l) s
     let ended := fun (u : State) (r n : Nat) => st u GK_RETIRE_STATUS_DONE = 1 ∧ st u GK_RETIRE_STATUS_RESULT = r ∧
       st u GK_RETIRE_STATUS_TRIED = n ∧ cmd u GK_RETIRE_CMD_GO = 0
     let only := fun (u : State) => s.lifeDue = false → u = { s with regs := u.regs }
     (cmd s GK_RETIRE_CMD_GO = 0 → bitOf v 8 = false → ∃ u, tests [] = .next u ∧ u = { s with regs := u.regs } ∧ cmd u GK_RETIRE_CMD_GO = 0 ∧
       cmd u GK_RETIRE_CMD_TILE = t) ∧
     (cmd s GK_RETIRE_CMD_GO = 0 → bitOf v 8 = true →
       (s.mode ≠ .m8 → ∃ u, tests [] = .next u ∧ ended u 2 0 ∧ only u) ∧
       (s.mode = .m8 → bitOf v 9 = true → (∃ u, tests [true] = .next u ∧ ended u 0 0 ∧ only u) ∧ ∃ u, tests [false] = .next u ∧ ended u 3 0) ∧
       (s.mode = .m8 → bitOf v 9 = true → s.lifeDue = false → s.gkTile t GK_TILE_PROPOSE ≠ 4 → ∃ x u : State, tests [false] = .next u ∧
         x = { s with regs := x.regs } ∧ x.gkTile t GK_TILE_PROPOSE = 4 ∧
         ((x.err (gkDie t) 0x03A (ErrRec.mk1 1 0x18 (t % 128) 0)).lifeDue = false →
           u = { x.err (gkDie t) 0x03A (ErrRec.mk1 1 0x18 (t % 128) 0) with regs := u.regs })) ∧
       (s.mode = .m8 → bitOf v 9 = false → s.spares d = [] → ∃ u, tests [] = .next u ∧ ended u 1 0 ∧ only u) ∧
       (∀ n r, s.mode = .m8 → bitOf v 9 = false → s.spares d = n :: r → ∃ u, tests [true] = .next u ∧ ended u 0 1 ∧ u.scanOf t = n ∧
         34 * d + s.scanOf t ∈ u.life.quar ∧ u.lifeDue = false))) ∧
    (let bt := s.lifeTarget
     let old := if bt then b.lifeB else b.lifeA
     let kept := if bt then b.lifeA else b.lifeB
     let top := max (if b.lifeA.ok then b.lifeA.seq else 0) (if b.lifeB.ok then b.lifeB.seq else 0)
     let one := fun (u : State) => if bt then u.boot.lifeB else u.boot.lifeA
     let other := fun (u : State) => if bt then u.boot.lifeA else u.boot.lifeB
     let stat := fun (u : State) (f : RField) => u.fld 8 0x03A GK_LIFE_STATUS [] f
     (old.ok = true → kept.ok = true ∧ old.seq ≤ kept.seq) ∧
     (∃ u, exec (.lifetimeRecordWrite true) s = .next u ∧ one u = ⟨(top + 1) % 2 ^ 32, true, s.lifeRec⟩ ∧ other u = kept ∧ u.lifeDue = false ∧
       stat u GK_LIFE_STATUS_SEQ = (top + 1) % 2 ^ 32 ∧ stat u GK_LIFE_STATUS_COPY = bt.toNat) ∧
     (∃ x : State, exec (.lifetimeRecordWrite false) s = .next (x.err 8 0x03A (ErrRec.mk1 2 0x19 0 0)) ∧ one x = { old with ok := false } ∧
       other x = kept ∧ x.lifeDue = s.lifeDue ∧ stat x GK_LIFE_STATUS_FAIL = 1))
end

