-- ==== Sys2Proof/Laws/Core.lean ====
section
/-! SUPPORT. What each update of a core leaves as it was, field by field. -/
set_option autoImplicit false
namespace Sys2Proof.Machine

/-! ### setG -/
@[simp] theorem Core.setG_v (c : Core) (r : BitVec 5) (w : Word) : (c.setG r w).v = c.v := by unfold Core.setG; split <;> rfl
@[simp] theorem Core.setG_p (c : Core) (r : BitVec 5) (w : Word) : (c.setG r w).p = c.p := by unfold Core.setG; split <;> rfl
@[simp] theorem Core.setG_pz (c : Core) (r : BitVec 5) (w : Word) : (c.setG r w).pz = c.pz := by unfold Core.setG; split <;> rfl
@[simp] theorem Core.setG_pc (c : Core) (r : BitVec 5) (w : Word) : (c.setG r w).pc = c.pc := by unfold Core.setG; split <;> rfl
@[simp] theorem Core.setG_sys (c : Core) (r : BitVec 5) (w : Word) : (c.setG r w).sys = c.sys := by unfold Core.setG; split <;> rfl
@[simp] theorem Core.setG_started (c : Core) (r : BitVec 5) (w : Word) : (c.setG r w).started = c.started := by unfold Core.setG; split <;> rfl
@[simp] theorem Core.setG_halted (c : Core) (r : BitVec 5) (w : Word) : (c.setG r w).halted = c.halted := by unfold Core.setG; split <;> rfl
@[simp] theorem Core.setG_wait (c : Core) (r : BitVec 5) (w : Word) : (c.setG r w).wait = c.wait := by unfold Core.setG; split <;> rfl
@[simp] theorem Core.setG_sb (c : Core) (r : BitVec 5) (w : Word) : (c.setG r w).sb = c.sb := by unfold Core.setG; split <;> rfl
@[simp] theorem Core.setG_shelf (c : Core) (r : BitVec 5) (w : Word) : (c.setG r w).shelf = c.shelf := by unfold Core.setG; split <;> rfl
@[simp] theorem Core.setG_l1i (c : Core) (r : BitVec 5) (w : Word) : (c.setG r w).l1i = c.l1i := by unfold Core.setG; split <;> rfl
@[simp] theorem Core.setG_l1iTree (c : Core) (r : BitVec 5) (w : Word) : (c.setG r w).l1iTree = c.l1iTree := by unfold Core.setG; split <;> rfl
@[simp] theorem Core.setG_l1d (c : Core) (r : BitVec 5) (w : Word) : (c.setG r w).l1d = c.l1d := by unfold Core.setG; split <;> rfl
@[simp] theorem Core.setG_l1dMru (c : Core) (r : BitVec 5) (w : Word) : (c.setG r w).l1dMru = c.l1dMru := by unfold Core.setG; split <;> rfl
@[simp] theorem Core.setG_itlb (c : Core) (r : BitVec 5) (w : Word) : (c.setG r w).itlb = c.itlb := by unfold Core.setG; split <;> rfl
@[simp] theorem Core.setG_dtlb (c : Core) (r : BitVec 5) (w : Word) : (c.setG r w).dtlb = c.dtlb := by unfold Core.setG; split <;> rfl
@[simp] theorem Core.setG_tlb (c : Core) (r : BitVec 5) (w : Word) : (c.setG r w).tlb = c.tlb := by unfold Core.setG; split <;> rfl
@[simp] theorem Core.setG_wcache (c : Core) (r : BitVec 5) (w : Word) : (c.setG r w).wcache = c.wcache := by unfold Core.setG; split <;> rfl
@[simp] theorem Core.setG_pred (c : Core) (r : BitVec 5) (w : Word) : (c.setG r w).pred = c.pred := by unfold Core.setG; split <;> rfl
@[simp] theorem Core.setG_irqPending (c : Core) (r : BitVec 5) (w : Word) : (c.setG r w).irqPending = c.irqPending := by unfold Core.setG; split <;> rfl
@[simp] theorem Core.setG_irqSeq (c : Core) (r : BitVec 5) (w : Word) : (c.setG r w).irqSeq = c.irqSeq := by unfold Core.setG; split <;> rfl
@[simp] theorem Core.setG_cntDue (c : Core) (r : BitVec 5) (w : Word) : (c.setG r w).cntDue = c.cntDue := by unfold Core.setG; split <;> rfl
@[simp] theorem Core.setG_evs (c : Core) (r : BitVec 5) (w : Word) : (c.setG r w).evs = c.evs := by unfold Core.setG; split <;> rfl
@[simp] theorem Core.setG_far (c : Core) (r : BitVec 5) (w : Word) : (c.setG r w).far = c.far := by unfold Core.setG; split <;> rfl
@[simp] theorem Core.setG_flips (c : Core) (r : BitVec 5) (w : Word) : (c.setG r w).flips = c.flips := by unfold Core.setG; split <;> rfl
@[simp] theorem Core.setG_l1bad (c : Core) (r : BitVec 5) (w : Word) : (c.setG r w).l1bad = c.l1bad := by unfold Core.setG; split <;> rfl

/-! ### setP -/
@[simp] theorem Core.setP_g (c : Core) (n : BitVec 3) (x : BitVec 8) (z : BitVec 3) : (c.setP n x z).g = c.g := by unfold Core.setP; split <;> rfl
@[simp] theorem Core.setP_v (c : Core) (n : BitVec 3) (x : BitVec 8) (z : BitVec 3) : (c.setP n x z).v = c.v := by unfold Core.setP; split <;> rfl
@[simp] theorem Core.setP_pc (c : Core) (n : BitVec 3) (x : BitVec 8) (z : BitVec 3) : (c.setP n x z).pc = c.pc := by unfold Core.setP; split <;> rfl
@[simp] theorem Core.setP_sys (c : Core) (n : BitVec 3) (x : BitVec 8) (z : BitVec 3) : (c.setP n x z).sys = c.sys := by unfold Core.setP; split <;> rfl
@[simp] theorem Core.setP_started (c : Core) (n : BitVec 3) (x : BitVec 8) (z : BitVec 3) : (c.setP n x z).started = c.started := by unfold Core.setP; split <;> rfl
@[simp] theorem Core.setP_halted (c : Core) (n : BitVec 3) (x : BitVec 8) (z : BitVec 3) : (c.setP n x z).halted = c.halted := by unfold Core.setP; split <;> rfl
@[simp] theorem Core.setP_wait (c : Core) (n : BitVec 3) (x : BitVec 8) (z : BitVec 3) : (c.setP n x z).wait = c.wait := by unfold Core.setP; split <;> rfl
@[simp] theorem Core.setP_sb (c : Core) (n : BitVec 3) (x : BitVec 8) (z : BitVec 3) : (c.setP n x z).sb = c.sb := by unfold Core.setP; split <;> rfl
@[simp] theorem Core.setP_shelf (c : Core) (n : BitVec 3) (x : BitVec 8) (z : BitVec 3) : (c.setP n x z).shelf = c.shelf := by unfold Core.setP; split <;> rfl
@[simp] theorem Core.setP_l1i (c : Core) (n : BitVec 3) (x : BitVec 8) (z : BitVec 3) : (c.setP n x z).l1i = c.l1i := by unfold Core.setP; split <;> rfl
@[simp] theorem Core.setP_l1iTree (c : Core) (n : BitVec 3) (x : BitVec 8) (z : BitVec 3) : (c.setP n x z).l1iTree = c.l1iTree := by unfold Core.setP; split <;> rfl
@[simp] theorem Core.setP_l1d (c : Core) (n : BitVec 3) (x : BitVec 8) (z : BitVec 3) : (c.setP n x z).l1d = c.l1d := by unfold Core.setP; split <;> rfl
@[simp] theorem Core.setP_l1dMru (c : Core) (n : BitVec 3) (x : BitVec 8) (z : BitVec 3) : (c.setP n x z).l1dMru = c.l1dMru := by unfold Core.setP; split <;> rfl
@[simp] theorem Core.setP_itlb (c : Core) (n : BitVec 3) (x : BitVec 8) (z : BitVec 3) : (c.setP n x z).itlb = c.itlb := by unfold Core.setP; split <;> rfl
@[simp] theorem Core.setP_dtlb (c : Core) (n : BitVec 3) (x : BitVec 8) (z : BitVec 3) : (c.setP n x z).dtlb = c.dtlb := by unfold Core.setP; split <;> rfl
@[simp] theorem Core.setP_tlb (c : Core) (n : BitVec 3) (x : BitVec 8) (z : BitVec 3) : (c.setP n x z).tlb = c.tlb := by unfold Core.setP; split <;> rfl
@[simp] theorem Core.setP_wcache (c : Core) (n : BitVec 3) (x : BitVec 8) (z : BitVec 3) : (c.setP n x z).wcache = c.wcache := by unfold Core.setP; split <;> rfl
@[simp] theorem Core.setP_pred (c : Core) (n : BitVec 3) (x : BitVec 8) (z : BitVec 3) : (c.setP n x z).pred = c.pred := by unfold Core.setP; split <;> rfl
@[simp] theorem Core.setP_irqPending (c : Core) (n : BitVec 3) (x : BitVec 8) (z : BitVec 3) : (c.setP n x z).irqPending = c.irqPending := by unfold Core.setP; split <;> rfl
@[simp] theorem Core.setP_irqSeq (c : Core) (n : BitVec 3) (x : BitVec 8) (z : BitVec 3) : (c.setP n x z).irqSeq = c.irqSeq := by unfold Core.setP; split <;> rfl
@[simp] theorem Core.setP_cntDue (c : Core) (n : BitVec 3) (x : BitVec 8) (z : BitVec 3) : (c.setP n x z).cntDue = c.cntDue := by unfold Core.setP; split <;> rfl
@[simp] theorem Core.setP_evs (c : Core) (n : BitVec 3) (x : BitVec 8) (z : BitVec 3) : (c.setP n x z).evs = c.evs := by unfold Core.setP; split <;> rfl
@[simp] theorem Core.setP_far (c : Core) (n : BitVec 3) (x : BitVec 8) (z : BitVec 3) : (c.setP n x z).far = c.far := by unfold Core.setP; split <;> rfl
@[simp] theorem Core.setP_flips (c : Core) (n : BitVec 3) (x : BitVec 8) (z : BitVec 3) : (c.setP n x z).flips = c.flips := by unfold Core.setP; split <;> rfl
@[simp] theorem Core.setP_l1bad (c : Core) (n : BitVec 3) (x : BitVec 8) (z : BitVec 3) : (c.setP n x z).l1bad = c.l1bad := by unfold Core.setP; split <;> rfl

/-! ### setV -/
@[simp] theorem Core.setV_g (c : Core) (r : BitVec 5) (i : Nat) (w : Word) : (c.setV r i w).g = c.g := rfl
@[simp] theorem Core.setV_p (c : Core) (r : BitVec 5) (i : Nat) (w : Word) : (c.setV r i w).p = c.p := rfl
@[simp] theorem Core.setV_pz (c : Core) (r : BitVec 5) (i : Nat) (w : Word) : (c.setV r i w).pz = c.pz := rfl
@[simp] theorem Core.setV_pc (c : Core) (r : BitVec 5) (i : Nat) (w : Word) : (c.setV r i w).pc = c.pc := rfl
@[simp] theorem Core.setV_sys (c : Core) (r : BitVec 5) (i : Nat) (w : Word) : (c.setV r i w).sys = c.sys := rfl
@[simp] theorem Core.setV_started (c : Core) (r : BitVec 5) (i : Nat) (w : Word) : (c.setV r i w).started = c.started := rfl
@[simp] theorem Core.setV_halted (c : Core) (r : BitVec 5) (i : Nat) (w : Word) : (c.setV r i w).halted = c.halted := rfl
@[simp] theorem Core.setV_wait (c : Core) (r : BitVec 5) (i : Nat) (w : Word) : (c.setV r i w).wait = c.wait := rfl
@[simp] theorem Core.setV_sb (c : Core) (r : BitVec 5) (i : Nat) (w : Word) : (c.setV r i w).sb = c.sb := rfl
@[simp] theorem Core.setV_shelf (c : Core) (r : BitVec 5) (i : Nat) (w : Word) : (c.setV r i w).shelf = c.shelf := rfl
@[simp] theorem Core.setV_l1i (c : Core) (r : BitVec 5) (i : Nat) (w : Word) : (c.setV r i w).l1i = c.l1i := rfl
@[simp] theorem Core.setV_l1iTree (c : Core) (r : BitVec 5) (i : Nat) (w : Word) : (c.setV r i w).l1iTree = c.l1iTree := rfl
@[simp] theorem Core.setV_l1d (c : Core) (r : BitVec 5) (i : Nat) (w : Word) : (c.setV r i w).l1d = c.l1d := rfl
@[simp] theorem Core.setV_l1dMru (c : Core) (r : BitVec 5) (i : Nat) (w : Word) : (c.setV r i w).l1dMru = c.l1dMru := rfl
@[simp] theorem Core.setV_itlb (c : Core) (r : BitVec 5) (i : Nat) (w : Word) : (c.setV r i w).itlb = c.itlb := rfl
@[simp] theorem Core.setV_dtlb (c : Core) (r : BitVec 5) (i : Nat) (w : Word) : (c.setV r i w).dtlb = c.dtlb := rfl
@[simp] theorem Core.setV_tlb (c : Core) (r : BitVec 5) (i : Nat) (w : Word) : (c.setV r i w).tlb = c.tlb := rfl
@[simp] theorem Core.setV_wcache (c : Core) (r : BitVec 5) (i : Nat) (w : Word) : (c.setV r i w).wcache = c.wcache := rfl
@[simp] theorem Core.setV_pred (c : Core) (r : BitVec 5) (i : Nat) (w : Word) : (c.setV r i w).pred = c.pred := rfl
@[simp] theorem Core.setV_irqPending (c : Core) (r : BitVec 5) (i : Nat) (w : Word) : (c.setV r i w).irqPending = c.irqPending := rfl
@[simp] theorem Core.setV_irqSeq (c : Core) (r : BitVec 5) (i : Nat) (w : Word) : (c.setV r i w).irqSeq = c.irqSeq := rfl
@[simp] theorem Core.setV_cntDue (c : Core) (r : BitVec 5) (i : Nat) (w : Word) : (c.setV r i w).cntDue = c.cntDue := rfl
@[simp] theorem Core.setV_evs (c : Core) (r : BitVec 5) (i : Nat) (w : Word) : (c.setV r i w).evs = c.evs := rfl
@[simp] theorem Core.setV_far (c : Core) (r : BitVec 5) (i : Nat) (w : Word) : (c.setV r i w).far = c.far := rfl
@[simp] theorem Core.setV_flips (c : Core) (r : BitVec 5) (i : Nat) (w : Word) : (c.setV r i w).flips = c.flips := rfl
@[simp] theorem Core.setV_l1bad (c : Core) (r : BitVec 5) (i : Nat) (w : Word) : (c.setV r i w).l1bad = c.l1bad := rfl

/-! ### setSys -/
@[simp] theorem Core.setSys_g (c : Core) (n : Nat) (x : BitVec 64) : (c.setSys n x).g = c.g := rfl
@[simp] theorem Core.setSys_v (c : Core) (n : Nat) (x : BitVec 64) : (c.setSys n x).v = c.v := rfl
@[simp] theorem Core.setSys_p (c : Core) (n : Nat) (x : BitVec 64) : (c.setSys n x).p = c.p := rfl
@[simp] theorem Core.setSys_pz (c : Core) (n : Nat) (x : BitVec 64) : (c.setSys n x).pz = c.pz := rfl
@[simp] theorem Core.setSys_pc (c : Core) (n : Nat) (x : BitVec 64) : (c.setSys n x).pc = c.pc := rfl
@[simp] theorem Core.setSys_started (c : Core) (n : Nat) (x : BitVec 64) : (c.setSys n x).started = c.started := rfl
@[simp] theorem Core.setSys_halted (c : Core) (n : Nat) (x : BitVec 64) : (c.setSys n x).halted = c.halted := rfl
@[simp] theorem Core.setSys_wait (c : Core) (n : Nat) (x : BitVec 64) : (c.setSys n x).wait = c.wait := rfl
@[simp] theorem Core.setSys_sb (c : Core) (n : Nat) (x : BitVec 64) : (c.setSys n x).sb = c.sb := rfl
@[simp] theorem Core.setSys_shelf (c : Core) (n : Nat) (x : BitVec 64) : (c.setSys n x).shelf = c.shelf := rfl
@[simp] theorem Core.setSys_l1i (c : Core) (n : Nat) (x : BitVec 64) : (c.setSys n x).l1i = c.l1i := rfl
@[simp] theorem Core.setSys_l1iTree (c : Core) (n : Nat) (x : BitVec 64) : (c.setSys n x).l1iTree = c.l1iTree := rfl
@[simp] theorem Core.setSys_l1d (c : Core) (n : Nat) (x : BitVec 64) : (c.setSys n x).l1d = c.l1d := rfl
@[simp] theorem Core.setSys_l1dMru (c : Core) (n : Nat) (x : BitVec 64) : (c.setSys n x).l1dMru = c.l1dMru := rfl
@[simp] theorem Core.setSys_itlb (c : Core) (n : Nat) (x : BitVec 64) : (c.setSys n x).itlb = c.itlb := rfl
@[simp] theorem Core.setSys_dtlb (c : Core) (n : Nat) (x : BitVec 64) : (c.setSys n x).dtlb = c.dtlb := rfl
@[simp] theorem Core.setSys_tlb (c : Core) (n : Nat) (x : BitVec 64) : (c.setSys n x).tlb = c.tlb := rfl
@[simp] theorem Core.setSys_wcache (c : Core) (n : Nat) (x : BitVec 64) : (c.setSys n x).wcache = c.wcache := rfl
@[simp] theorem Core.setSys_pred (c : Core) (n : Nat) (x : BitVec 64) : (c.setSys n x).pred = c.pred := rfl
@[simp] theorem Core.setSys_irqPending (c : Core) (n : Nat) (x : BitVec 64) : (c.setSys n x).irqPending = c.irqPending := rfl
@[simp] theorem Core.setSys_irqSeq (c : Core) (n : Nat) (x : BitVec 64) : (c.setSys n x).irqSeq = c.irqSeq := rfl
@[simp] theorem Core.setSys_cntDue (c : Core) (n : Nat) (x : BitVec 64) : (c.setSys n x).cntDue = c.cntDue := rfl
@[simp] theorem Core.setSys_evs (c : Core) (n : Nat) (x : BitVec 64) : (c.setSys n x).evs = c.evs := rfl
@[simp] theorem Core.setSys_far (c : Core) (n : Nat) (x : BitVec 64) : (c.setSys n x).far = c.far := rfl
@[simp] theorem Core.setSys_wrote (c : Core) (n : Nat) (x : BitVec 64) : (c.setSys n x).wrote = c.wrote := rfl
@[simp] theorem Core.setSys_flips (c : Core) (n : Nat) (x : BitVec 64) : (c.setSys n x).flips = c.flips := rfl
@[simp] theorem Core.setSys_l1bad (c : Core) (n : Nat) (x : BitVec 64) : (c.setSys n x).l1bad = c.l1bad := rfl

/-! ### advance -/
@[simp] theorem Core.advance_g (c : Core) : (c.advance).g = c.g := rfl
@[simp] theorem Core.advance_v (c : Core) : (c.advance).v = c.v := rfl
@[simp] theorem Core.advance_p (c : Core) : (c.advance).p = c.p := rfl
@[simp] theorem Core.advance_pz (c : Core) : (c.advance).pz = c.pz := rfl
@[simp] theorem Core.advance_sys (c : Core) : (c.advance).sys = c.sys := rfl
@[simp] theorem Core.advance_started (c : Core) : (c.advance).started = c.started := rfl
@[simp] theorem Core.advance_halted (c : Core) : (c.advance).halted = c.halted := rfl
@[simp] theorem Core.advance_wait (c : Core) : (c.advance).wait = c.wait := rfl
@[simp] theorem Core.advance_sb (c : Core) : (c.advance).sb = c.sb := rfl
@[simp] theorem Core.advance_shelf (c : Core) : (c.advance).shelf = c.shelf := rfl
@[simp] theorem Core.advance_l1i (c : Core) : (c.advance).l1i = c.l1i := rfl
@[simp] theorem Core.advance_l1iTree (c : Core) : (c.advance).l1iTree = c.l1iTree := rfl
@[simp] theorem Core.advance_l1d (c : Core) : (c.advance).l1d = c.l1d := rfl
@[simp] theorem Core.advance_l1dMru (c : Core) : (c.advance).l1dMru = c.l1dMru := rfl
@[simp] theorem Core.advance_itlb (c : Core) : (c.advance).itlb = c.itlb := rfl
@[simp] theorem Core.advance_dtlb (c : Core) : (c.advance).dtlb = c.dtlb := rfl
@[simp] theorem Core.advance_tlb (c : Core) : (c.advance).tlb = c.tlb := rfl
@[simp] theorem Core.advance_wcache (c : Core) : (c.advance).wcache = c.wcache := rfl
@[simp] theorem Core.advance_pred (c : Core) : (c.advance).pred = c.pred := rfl
@[simp] theorem Core.advance_irqPending (c : Core) : (c.advance).irqPending = c.irqPending := rfl
@[simp] theorem Core.advance_irqSeq (c : Core) : (c.advance).irqSeq = c.irqSeq := rfl
@[simp] theorem Core.advance_cntDue (c : Core) : (c.advance).cntDue = c.cntDue := rfl
@[simp] theorem Core.advance_evs (c : Core) : (c.advance).evs = c.evs := rfl
@[simp] theorem Core.advance_far (c : Core) : (c.advance).far = c.far := rfl
@[simp] theorem Core.advance_wrote (c : Core) : (c.advance).wrote = c.wrote := rfl
@[simp] theorem Core.advance_flips (c : Core) : (c.advance).flips = c.flips := rfl
@[simp] theorem Core.advance_l1bad (c : Core) : (c.advance).l1bad = c.l1bad := rfl

end Sys2Proof.Machine
end

