-- ==== Sys2Proof/Laws/State.lean ====
section
/-! SUPPORT. What each update of the state leaves as it was, field by field. -/
set_option autoImplicit false
namespace Sys2Proof.Machine

/-! ### setCore -/
@[simp] theorem State.setCore_pending (s : State) (lc : Nat) (c : Core) : (s.setCore lc c).pending = s.pending := rfl
@[simp] theorem State.setCore_free (s : State) (lc : Nat) (c : Core) : (s.setCore lc c).free = s.free := rfl
@[simp] theorem State.setCore_part (s : State) (lc : Nat) (c : Core) : (s.setCore lc c).part = s.part := rfl
@[simp] theorem State.setCore_mode (s : State) (lc : Nat) (c : Core) : (s.setCore lc c).mode = s.mode := rfl
@[simp] theorem State.setCore_time (s : State) (lc : Nat) (c : Core) : (s.setCore lc c).time = s.time := rfl
@[simp] theorem State.setCore_regs (s : State) (lc : Nat) (c : Core) : (s.setCore lc c).regs = s.regs := rfl
@[simp] theorem State.setCore_tiles (s : State) (lc : Nat) (c : Core) : (s.setCore lc c).tiles = s.tiles := rfl
@[simp] theorem State.setCore_arbours (s : State) (lc : Nat) (c : Core) : (s.setCore lc c).arbours = s.arbours := rfl
@[simp] theorem State.setCore_slices (s : State) (lc : Nat) (c : Core) : (s.setCore lc c).slices = s.slices := rfl
@[simp] theorem State.setCore_homes (s : State) (lc : Nat) (c : Core) : (s.setCore lc c).homes = s.homes := rfl
@[simp] theorem State.setCore_chans (s : State) (lc : Nat) (c : Core) : (s.setCore lc c).chans = s.chans := rfl
@[simp] theorem State.setCore_mem (s : State) (lc : Nat) (c : Core) : (s.setCore lc c).mem = s.mem := rfl
@[simp] theorem State.setCore_memTags (s : State) (lc : Nat) (c : Core) : (s.setCore lc c).memTags = s.memTags := rfl
@[simp] theorem State.setCore_urn (s : State) (lc : Nat) (c : Core) : (s.setCore lc c).urn = s.urn := rfl
@[simp] theorem State.setCore_urnAns (s : State) (lc : Nat) (c : Core) : (s.setCore lc c).urnAns = s.urnAns := rfl
@[simp] theorem State.setCore_tsvLast (s : State) (lc : Nat) (c : Core) : (s.setCore lc c).tsvLast = s.tsvLast := rfl
@[simp] theorem State.setCore_urnSched (s : State) (lc : Nat) (c : Core) : (s.setCore lc c).urnSched = s.urnSched := rfl
@[simp] theorem State.setCore_stateMsgs (s : State) (lc : Nat) (c : Core) : (s.setCore lc c).stateMsgs = s.stateMsgs := rfl
@[simp] theorem State.setCore_tlbis (s : State) (lc : Nat) (c : Core) : (s.setCore lc c).tlbis = s.tlbis := rfl
@[simp] theorem State.setCore_tlbiOuts (s : State) (lc : Nat) (c : Core) : (s.setCore lc c).tlbiOuts = s.tlbiOuts := rfl
@[simp] theorem State.setCore_net (s : State) (lc : Nat) (c : Core) : (s.setCore lc c).net = s.net := rfl
@[simp] theorem State.setCore_nacked (s : State) (lc : Nat) (c : Core) : (s.setCore lc c).nacked = s.nacked := rfl
@[simp] theorem State.setCore_kiosks (s : State) (lc : Nat) (c : Core) : (s.setCore lc c).kiosks = s.kiosks := rfl
@[simp] theorem State.setCore_flits (s : State) (lc : Nat) (c : Core) : (s.setCore lc c).flits = s.flits := rfl
@[simp] theorem State.setCore_flitFails (s : State) (lc : Nat) (c : Core) : (s.setCore lc c).flitFails = s.flitFails := rfl
@[simp] theorem State.setCore_meshRx (s : State) (lc : Nat) (c : Core) : (s.setCore lc c).meshRx = s.meshRx := rfl
@[simp] theorem State.setCore_ports (s : State) (lc : Nat) (c : Core) : (s.setCore lc c).ports = s.ports := rfl
@[simp] theorem State.setCore_delivered (s : State) (lc : Nat) (c : Core) : (s.setCore lc c).delivered = s.delivered := rfl
@[simp] theorem State.setCore_flip (s : State) (lc : Nat) (c : Core) : (s.setCore lc c).flip = s.flip := rfl
@[simp] theorem State.setCore_spareTslot (s : State) (lc : Nat) (c : Core) : (s.setCore lc c).spareTslot = s.spareTslot := rfl
@[simp] theorem State.setCore_iommus (s : State) (lc : Nat) (c : Core) : (s.setCore lc c).iommus = s.iommus := rfl
@[simp] theorem State.setCore_io (s : State) (lc : Nat) (c : Core) : (s.setCore lc c).io = s.io := rfl
@[simp] theorem State.setCore_pwr (s : State) (lc : Nat) (c : Core) : (s.setCore lc c).pwr = s.pwr := rfl
@[simp] theorem State.setCore_bootCfg (s : State) (lc : Nat) (c : Core) : (s.setCore lc c).bootCfg = s.bootCfg := rfl
@[simp] theorem State.setCore_out (s : State) (lc : Nat) (c : Core) : (s.setCore lc c).out = s.out := rfl
@[simp] theorem State.setCore_stops (s : State) (lc : Nat) (c : Core) : (s.setCore lc c).stops = s.stops := rfl
@[simp] theorem State.setCore_injEn (s : State) (lc : Nat) (c : Core) : (s.setCore lc c).injEn = s.injEn := rfl
@[simp] theorem State.setCore_lifeDue (s : State) (lc : Nat) (c : Core) : (s.setCore lc c).lifeDue = s.lifeDue := rfl
@[simp] theorem State.setCore_boot (s : State) (lc : Nat) (c : Core) : (s.setCore lc c).boot = s.boot := rfl
@[simp] theorem State.setCore_life (s : State) (lc : Nat) (c : Core) : (s.setCore lc c).life = s.life := rfl
@[simp] theorem State.setCore_ctl (s : State) (lc : Nat) (c : Core) : (s.setCore lc c).ctl = s.ctl := rfl
@[simp] theorem State.setCore_rnd (s : State) (lc : Nat) (c : Core) : (s.setCore lc c).rnd = s.rnd := rfl
@[simp] theorem State.setCore_wdog (s : State) (lc : Nat) (c : Core) : (s.setCore lc c).wdog = s.wdog := rfl
@[simp] theorem State.setCore_wdogWarned (s : State) (lc : Nat) (c : Core) : (s.setCore lc c).wdogWarned = s.wdogWarned := rfl

/-! ### setTile -/
@[simp] theorem State.setTile_pending (s : State) (lt : Nat) (x : TileCache) : (s.setTile lt x).pending = s.pending := rfl
@[simp] theorem State.setTile_free (s : State) (lt : Nat) (x : TileCache) : (s.setTile lt x).free = s.free := rfl
@[simp] theorem State.setTile_part (s : State) (lt : Nat) (x : TileCache) : (s.setTile lt x).part = s.part := rfl
@[simp] theorem State.setTile_mode (s : State) (lt : Nat) (x : TileCache) : (s.setTile lt x).mode = s.mode := rfl
@[simp] theorem State.setTile_time (s : State) (lt : Nat) (x : TileCache) : (s.setTile lt x).time = s.time := rfl
@[simp] theorem State.setTile_regs (s : State) (lt : Nat) (x : TileCache) : (s.setTile lt x).regs = s.regs := rfl
@[simp] theorem State.setTile_cores (s : State) (lt : Nat) (x : TileCache) : (s.setTile lt x).cores = s.cores := rfl
@[simp] theorem State.setTile_arbours (s : State) (lt : Nat) (x : TileCache) : (s.setTile lt x).arbours = s.arbours := rfl
@[simp] theorem State.setTile_slices (s : State) (lt : Nat) (x : TileCache) : (s.setTile lt x).slices = s.slices := rfl
@[simp] theorem State.setTile_homes (s : State) (lt : Nat) (x : TileCache) : (s.setTile lt x).homes = s.homes := rfl
@[simp] theorem State.setTile_chans (s : State) (lt : Nat) (x : TileCache) : (s.setTile lt x).chans = s.chans := rfl
@[simp] theorem State.setTile_mem (s : State) (lt : Nat) (x : TileCache) : (s.setTile lt x).mem = s.mem := rfl
@[simp] theorem State.setTile_memTags (s : State) (lt : Nat) (x : TileCache) : (s.setTile lt x).memTags = s.memTags := rfl
@[simp] theorem State.setTile_urn (s : State) (lt : Nat) (x : TileCache) : (s.setTile lt x).urn = s.urn := rfl
@[simp] theorem State.setTile_urnAns (s : State) (lt : Nat) (x : TileCache) : (s.setTile lt x).urnAns = s.urnAns := rfl
@[simp] theorem State.setTile_tsvLast (s : State) (lt : Nat) (x : TileCache) : (s.setTile lt x).tsvLast = s.tsvLast := rfl
@[simp] theorem State.setTile_urnSched (s : State) (lt : Nat) (x : TileCache) : (s.setTile lt x).urnSched = s.urnSched := rfl
@[simp] theorem State.setTile_stateMsgs (s : State) (lt : Nat) (x : TileCache) : (s.setTile lt x).stateMsgs = s.stateMsgs := rfl
@[simp] theorem State.setTile_tlbis (s : State) (lt : Nat) (x : TileCache) : (s.setTile lt x).tlbis = s.tlbis := rfl
@[simp] theorem State.setTile_tlbiOuts (s : State) (lt : Nat) (x : TileCache) : (s.setTile lt x).tlbiOuts = s.tlbiOuts := rfl
@[simp] theorem State.setTile_net (s : State) (lt : Nat) (x : TileCache) : (s.setTile lt x).net = s.net := rfl
@[simp] theorem State.setTile_nacked (s : State) (lt : Nat) (x : TileCache) : (s.setTile lt x).nacked = s.nacked := rfl
@[simp] theorem State.setTile_kiosks (s : State) (lt : Nat) (x : TileCache) : (s.setTile lt x).kiosks = s.kiosks := rfl
@[simp] theorem State.setTile_flits (s : State) (lt : Nat) (x : TileCache) : (s.setTile lt x).flits = s.flits := rfl
@[simp] theorem State.setTile_flitFails (s : State) (lt : Nat) (x : TileCache) : (s.setTile lt x).flitFails = s.flitFails := rfl
@[simp] theorem State.setTile_meshRx (s : State) (lt : Nat) (x : TileCache) : (s.setTile lt x).meshRx = s.meshRx := rfl
@[simp] theorem State.setTile_ports (s : State) (lt : Nat) (x : TileCache) : (s.setTile lt x).ports = s.ports := rfl
@[simp] theorem State.setTile_delivered (s : State) (lt : Nat) (x : TileCache) : (s.setTile lt x).delivered = s.delivered := rfl
@[simp] theorem State.setTile_flip (s : State) (lt : Nat) (x : TileCache) : (s.setTile lt x).flip = s.flip := rfl
@[simp] theorem State.setTile_spareTslot (s : State) (lt : Nat) (x : TileCache) : (s.setTile lt x).spareTslot = s.spareTslot := rfl
@[simp] theorem State.setTile_iommus (s : State) (lt : Nat) (x : TileCache) : (s.setTile lt x).iommus = s.iommus := rfl
@[simp] theorem State.setTile_io (s : State) (lt : Nat) (x : TileCache) : (s.setTile lt x).io = s.io := rfl
@[simp] theorem State.setTile_pwr (s : State) (lt : Nat) (x : TileCache) : (s.setTile lt x).pwr = s.pwr := rfl
@[simp] theorem State.setTile_bootCfg (s : State) (lt : Nat) (x : TileCache) : (s.setTile lt x).bootCfg = s.bootCfg := rfl
@[simp] theorem State.setTile_out (s : State) (lt : Nat) (x : TileCache) : (s.setTile lt x).out = s.out := rfl
@[simp] theorem State.setTile_stops (s : State) (lt : Nat) (x : TileCache) : (s.setTile lt x).stops = s.stops := rfl
@[simp] theorem State.setTile_injEn (s : State) (lt : Nat) (x : TileCache) : (s.setTile lt x).injEn = s.injEn := rfl
@[simp] theorem State.setTile_lifeDue (s : State) (lt : Nat) (x : TileCache) : (s.setTile lt x).lifeDue = s.lifeDue := rfl
@[simp] theorem State.setTile_boot (s : State) (lt : Nat) (x : TileCache) : (s.setTile lt x).boot = s.boot := rfl
@[simp] theorem State.setTile_life (s : State) (lt : Nat) (x : TileCache) : (s.setTile lt x).life = s.life := rfl
@[simp] theorem State.setTile_ctl (s : State) (lt : Nat) (x : TileCache) : (s.setTile lt x).ctl = s.ctl := rfl
@[simp] theorem State.setTile_rnd (s : State) (lt : Nat) (x : TileCache) : (s.setTile lt x).rnd = s.rnd := rfl
@[simp] theorem State.setTile_wdog (s : State) (lt : Nat) (x : TileCache) : (s.setTile lt x).wdog = s.wdog := rfl
@[simp] theorem State.setTile_wdogWarned (s : State) (lt : Nat) (x : TileCache) : (s.setTile lt x).wdogWarned = s.wdogWarned := rfl

/-! ### setSlice -/
@[simp] theorem State.setSlice_pending (s : State) (lt : Nat) (x : Slice) : (s.setSlice lt x).pending = s.pending := rfl
@[simp] theorem State.setSlice_free (s : State) (lt : Nat) (x : Slice) : (s.setSlice lt x).free = s.free := rfl
@[simp] theorem State.setSlice_part (s : State) (lt : Nat) (x : Slice) : (s.setSlice lt x).part = s.part := rfl
@[simp] theorem State.setSlice_mode (s : State) (lt : Nat) (x : Slice) : (s.setSlice lt x).mode = s.mode := rfl
@[simp] theorem State.setSlice_time (s : State) (lt : Nat) (x : Slice) : (s.setSlice lt x).time = s.time := rfl
@[simp] theorem State.setSlice_regs (s : State) (lt : Nat) (x : Slice) : (s.setSlice lt x).regs = s.regs := rfl
@[simp] theorem State.setSlice_cores (s : State) (lt : Nat) (x : Slice) : (s.setSlice lt x).cores = s.cores := rfl
@[simp] theorem State.setSlice_tiles (s : State) (lt : Nat) (x : Slice) : (s.setSlice lt x).tiles = s.tiles := rfl
@[simp] theorem State.setSlice_arbours (s : State) (lt : Nat) (x : Slice) : (s.setSlice lt x).arbours = s.arbours := rfl
@[simp] theorem State.setSlice_homes (s : State) (lt : Nat) (x : Slice) : (s.setSlice lt x).homes = s.homes := rfl
@[simp] theorem State.setSlice_chans (s : State) (lt : Nat) (x : Slice) : (s.setSlice lt x).chans = s.chans := rfl
@[simp] theorem State.setSlice_mem (s : State) (lt : Nat) (x : Slice) : (s.setSlice lt x).mem = s.mem := rfl
@[simp] theorem State.setSlice_memTags (s : State) (lt : Nat) (x : Slice) : (s.setSlice lt x).memTags = s.memTags := rfl
@[simp] theorem State.setSlice_urn (s : State) (lt : Nat) (x : Slice) : (s.setSlice lt x).urn = s.urn := rfl
@[simp] theorem State.setSlice_urnAns (s : State) (lt : Nat) (x : Slice) : (s.setSlice lt x).urnAns = s.urnAns := rfl
@[simp] theorem State.setSlice_tsvLast (s : State) (lt : Nat) (x : Slice) : (s.setSlice lt x).tsvLast = s.tsvLast := rfl
@[simp] theorem State.setSlice_urnSched (s : State) (lt : Nat) (x : Slice) : (s.setSlice lt x).urnSched = s.urnSched := rfl
@[simp] theorem State.setSlice_stateMsgs (s : State) (lt : Nat) (x : Slice) : (s.setSlice lt x).stateMsgs = s.stateMsgs := rfl
@[simp] theorem State.setSlice_tlbis (s : State) (lt : Nat) (x : Slice) : (s.setSlice lt x).tlbis = s.tlbis := rfl
@[simp] theorem State.setSlice_tlbiOuts (s : State) (lt : Nat) (x : Slice) : (s.setSlice lt x).tlbiOuts = s.tlbiOuts := rfl
@[simp] theorem State.setSlice_net (s : State) (lt : Nat) (x : Slice) : (s.setSlice lt x).net = s.net := rfl
@[simp] theorem State.setSlice_nacked (s : State) (lt : Nat) (x : Slice) : (s.setSlice lt x).nacked = s.nacked := rfl
@[simp] theorem State.setSlice_kiosks (s : State) (lt : Nat) (x : Slice) : (s.setSlice lt x).kiosks = s.kiosks := rfl
@[simp] theorem State.setSlice_flits (s : State) (lt : Nat) (x : Slice) : (s.setSlice lt x).flits = s.flits := rfl
@[simp] theorem State.setSlice_flitFails (s : State) (lt : Nat) (x : Slice) : (s.setSlice lt x).flitFails = s.flitFails := rfl
@[simp] theorem State.setSlice_meshRx (s : State) (lt : Nat) (x : Slice) : (s.setSlice lt x).meshRx = s.meshRx := rfl
@[simp] theorem State.setSlice_ports (s : State) (lt : Nat) (x : Slice) : (s.setSlice lt x).ports = s.ports := rfl
@[simp] theorem State.setSlice_delivered (s : State) (lt : Nat) (x : Slice) : (s.setSlice lt x).delivered = s.delivered := rfl
@[simp] theorem State.setSlice_flip (s : State) (lt : Nat) (x : Slice) : (s.setSlice lt x).flip = s.flip := rfl
@[simp] theorem State.setSlice_spareTslot (s : State) (lt : Nat) (x : Slice) : (s.setSlice lt x).spareTslot = s.spareTslot := rfl
@[simp] theorem State.setSlice_iommus (s : State) (lt : Nat) (x : Slice) : (s.setSlice lt x).iommus = s.iommus := rfl
@[simp] theorem State.setSlice_io (s : State) (lt : Nat) (x : Slice) : (s.setSlice lt x).io = s.io := rfl
@[simp] theorem State.setSlice_pwr (s : State) (lt : Nat) (x : Slice) : (s.setSlice lt x).pwr = s.pwr := rfl
@[simp] theorem State.setSlice_bootCfg (s : State) (lt : Nat) (x : Slice) : (s.setSlice lt x).bootCfg = s.bootCfg := rfl
@[simp] theorem State.setSlice_out (s : State) (lt : Nat) (x : Slice) : (s.setSlice lt x).out = s.out := rfl
@[simp] theorem State.setSlice_stops (s : State) (lt : Nat) (x : Slice) : (s.setSlice lt x).stops = s.stops := rfl
@[simp] theorem State.setSlice_injEn (s : State) (lt : Nat) (x : Slice) : (s.setSlice lt x).injEn = s.injEn := rfl
@[simp] theorem State.setSlice_lifeDue (s : State) (lt : Nat) (x : Slice) : (s.setSlice lt x).lifeDue = s.lifeDue := rfl
@[simp] theorem State.setSlice_boot (s : State) (lt : Nat) (x : Slice) : (s.setSlice lt x).boot = s.boot := rfl
@[simp] theorem State.setSlice_life (s : State) (lt : Nat) (x : Slice) : (s.setSlice lt x).life = s.life := rfl
@[simp] theorem State.setSlice_ctl (s : State) (lt : Nat) (x : Slice) : (s.setSlice lt x).ctl = s.ctl := rfl
@[simp] theorem State.setSlice_rnd (s : State) (lt : Nat) (x : Slice) : (s.setSlice lt x).rnd = s.rnd := rfl
@[simp] theorem State.setSlice_wdog (s : State) (lt : Nat) (x : Slice) : (s.setSlice lt x).wdog = s.wdog := rfl
@[simp] theorem State.setSlice_wdogWarned (s : State) (lt : Nat) (x : Slice) : (s.setSlice lt x).wdogWarned = s.wdogWarned := rfl

/-! ### setHome -/
@[simp] theorem State.setHome_pending (s : State) (i : Nat) (x : Home) : (s.setHome i x).pending = s.pending := rfl
@[simp] theorem State.setHome_free (s : State) (i : Nat) (x : Home) : (s.setHome i x).free = s.free := rfl
@[simp] theorem State.setHome_part (s : State) (i : Nat) (x : Home) : (s.setHome i x).part = s.part := rfl
@[simp] theorem State.setHome_mode (s : State) (i : Nat) (x : Home) : (s.setHome i x).mode = s.mode := rfl
@[simp] theorem State.setHome_time (s : State) (i : Nat) (x : Home) : (s.setHome i x).time = s.time := rfl
@[simp] theorem State.setHome_regs (s : State) (i : Nat) (x : Home) : (s.setHome i x).regs = s.regs := rfl
@[simp] theorem State.setHome_cores (s : State) (i : Nat) (x : Home) : (s.setHome i x).cores = s.cores := rfl
@[simp] theorem State.setHome_tiles (s : State) (i : Nat) (x : Home) : (s.setHome i x).tiles = s.tiles := rfl
@[simp] theorem State.setHome_arbours (s : State) (i : Nat) (x : Home) : (s.setHome i x).arbours = s.arbours := rfl
@[simp] theorem State.setHome_slices (s : State) (i : Nat) (x : Home) : (s.setHome i x).slices = s.slices := rfl
@[simp] theorem State.setHome_chans (s : State) (i : Nat) (x : Home) : (s.setHome i x).chans = s.chans := rfl
@[simp] theorem State.setHome_mem (s : State) (i : Nat) (x : Home) : (s.setHome i x).mem = s.mem := rfl
@[simp] theorem State.setHome_memTags (s : State) (i : Nat) (x : Home) : (s.setHome i x).memTags = s.memTags := rfl
@[simp] theorem State.setHome_urn (s : State) (i : Nat) (x : Home) : (s.setHome i x).urn = s.urn := rfl
@[simp] theorem State.setHome_urnAns (s : State) (i : Nat) (x : Home) : (s.setHome i x).urnAns = s.urnAns := rfl
@[simp] theorem State.setHome_tsvLast (s : State) (i : Nat) (x : Home) : (s.setHome i x).tsvLast = s.tsvLast := rfl
@[simp] theorem State.setHome_urnSched (s : State) (i : Nat) (x : Home) : (s.setHome i x).urnSched = s.urnSched := rfl
@[simp] theorem State.setHome_stateMsgs (s : State) (i : Nat) (x : Home) : (s.setHome i x).stateMsgs = s.stateMsgs := rfl
@[simp] theorem State.setHome_tlbis (s : State) (i : Nat) (x : Home) : (s.setHome i x).tlbis = s.tlbis := rfl
@[simp] theorem State.setHome_tlbiOuts (s : State) (i : Nat) (x : Home) : (s.setHome i x).tlbiOuts = s.tlbiOuts := rfl
@[simp] theorem State.setHome_net (s : State) (i : Nat) (x : Home) : (s.setHome i x).net = s.net := rfl
@[simp] theorem State.setHome_nacked (s : State) (i : Nat) (x : Home) : (s.setHome i x).nacked = s.nacked := rfl
@[simp] theorem State.setHome_kiosks (s : State) (i : Nat) (x : Home) : (s.setHome i x).kiosks = s.kiosks := rfl
@[simp] theorem State.setHome_flits (s : State) (i : Nat) (x : Home) : (s.setHome i x).flits = s.flits := rfl
@[simp] theorem State.setHome_flitFails (s : State) (i : Nat) (x : Home) : (s.setHome i x).flitFails = s.flitFails := rfl
@[simp] theorem State.setHome_meshRx (s : State) (i : Nat) (x : Home) : (s.setHome i x).meshRx = s.meshRx := rfl
@[simp] theorem State.setHome_ports (s : State) (i : Nat) (x : Home) : (s.setHome i x).ports = s.ports := rfl
@[simp] theorem State.setHome_delivered (s : State) (i : Nat) (x : Home) : (s.setHome i x).delivered = s.delivered := rfl
@[simp] theorem State.setHome_flip (s : State) (i : Nat) (x : Home) : (s.setHome i x).flip = s.flip := rfl
@[simp] theorem State.setHome_spareTslot (s : State) (i : Nat) (x : Home) : (s.setHome i x).spareTslot = s.spareTslot := rfl
@[simp] theorem State.setHome_iommus (s : State) (i : Nat) (x : Home) : (s.setHome i x).iommus = s.iommus := rfl
@[simp] theorem State.setHome_io (s : State) (i : Nat) (x : Home) : (s.setHome i x).io = s.io := rfl
@[simp] theorem State.setHome_pwr (s : State) (i : Nat) (x : Home) : (s.setHome i x).pwr = s.pwr := rfl
@[simp] theorem State.setHome_bootCfg (s : State) (i : Nat) (x : Home) : (s.setHome i x).bootCfg = s.bootCfg := rfl
@[simp] theorem State.setHome_out (s : State) (i : Nat) (x : Home) : (s.setHome i x).out = s.out := rfl
@[simp] theorem State.setHome_stops (s : State) (i : Nat) (x : Home) : (s.setHome i x).stops = s.stops := rfl
@[simp] theorem State.setHome_injEn (s : State) (i : Nat) (x : Home) : (s.setHome i x).injEn = s.injEn := rfl
@[simp] theorem State.setHome_lifeDue (s : State) (i : Nat) (x : Home) : (s.setHome i x).lifeDue = s.lifeDue := rfl
@[simp] theorem State.setHome_boot (s : State) (i : Nat) (x : Home) : (s.setHome i x).boot = s.boot := rfl
@[simp] theorem State.setHome_life (s : State) (i : Nat) (x : Home) : (s.setHome i x).life = s.life := rfl
@[simp] theorem State.setHome_ctl (s : State) (i : Nat) (x : Home) : (s.setHome i x).ctl = s.ctl := rfl
@[simp] theorem State.setHome_rnd (s : State) (i : Nat) (x : Home) : (s.setHome i x).rnd = s.rnd := rfl
@[simp] theorem State.setHome_wdog (s : State) (i : Nat) (x : Home) : (s.setHome i x).wdog = s.wdog := rfl
@[simp] theorem State.setHome_wdogWarned (s : State) (i : Nat) (x : Home) : (s.setHome i x).wdogWarned = s.wdogWarned := rfl

/-! ### setChan -/
@[simp] theorem State.setChan_pending (s : State) (n : Nat) (x : Chan) : (s.setChan n x).pending = s.pending := rfl
@[simp] theorem State.setChan_free (s : State) (n : Nat) (x : Chan) : (s.setChan n x).free = s.free := rfl
@[simp] theorem State.setChan_part (s : State) (n : Nat) (x : Chan) : (s.setChan n x).part = s.part := rfl
@[simp] theorem State.setChan_mode (s : State) (n : Nat) (x : Chan) : (s.setChan n x).mode = s.mode := rfl
@[simp] theorem State.setChan_time (s : State) (n : Nat) (x : Chan) : (s.setChan n x).time = s.time := rfl
@[simp] theorem State.setChan_regs (s : State) (n : Nat) (x : Chan) : (s.setChan n x).regs = s.regs := rfl
@[simp] theorem State.setChan_cores (s : State) (n : Nat) (x : Chan) : (s.setChan n x).cores = s.cores := rfl
@[simp] theorem State.setChan_tiles (s : State) (n : Nat) (x : Chan) : (s.setChan n x).tiles = s.tiles := rfl
@[simp] theorem State.setChan_arbours (s : State) (n : Nat) (x : Chan) : (s.setChan n x).arbours = s.arbours := rfl
@[simp] theorem State.setChan_slices (s : State) (n : Nat) (x : Chan) : (s.setChan n x).slices = s.slices := rfl
@[simp] theorem State.setChan_homes (s : State) (n : Nat) (x : Chan) : (s.setChan n x).homes = s.homes := rfl
@[simp] theorem State.setChan_mem (s : State) (n : Nat) (x : Chan) : (s.setChan n x).mem = s.mem := rfl
@[simp] theorem State.setChan_memTags (s : State) (n : Nat) (x : Chan) : (s.setChan n x).memTags = s.memTags := rfl
@[simp] theorem State.setChan_urn (s : State) (n : Nat) (x : Chan) : (s.setChan n x).urn = s.urn := rfl
@[simp] theorem State.setChan_urnAns (s : State) (n : Nat) (x : Chan) : (s.setChan n x).urnAns = s.urnAns := rfl
@[simp] theorem State.setChan_tsvLast (s : State) (n : Nat) (x : Chan) : (s.setChan n x).tsvLast = s.tsvLast := rfl
@[simp] theorem State.setChan_urnSched (s : State) (n : Nat) (x : Chan) : (s.setChan n x).urnSched = s.urnSched := rfl
@[simp] theorem State.setChan_stateMsgs (s : State) (n : Nat) (x : Chan) : (s.setChan n x).stateMsgs = s.stateMsgs := rfl
@[simp] theorem State.setChan_tlbis (s : State) (n : Nat) (x : Chan) : (s.setChan n x).tlbis = s.tlbis := rfl
@[simp] theorem State.setChan_tlbiOuts (s : State) (n : Nat) (x : Chan) : (s.setChan n x).tlbiOuts = s.tlbiOuts := rfl
@[simp] theorem State.setChan_net (s : State) (n : Nat) (x : Chan) : (s.setChan n x).net = s.net := rfl
@[simp] theorem State.setChan_nacked (s : State) (n : Nat) (x : Chan) : (s.setChan n x).nacked = s.nacked := rfl
@[simp] theorem State.setChan_kiosks (s : State) (n : Nat) (x : Chan) : (s.setChan n x).kiosks = s.kiosks := rfl
@[simp] theorem State.setChan_flits (s : State) (n : Nat) (x : Chan) : (s.setChan n x).flits = s.flits := rfl
@[simp] theorem State.setChan_flitFails (s : State) (n : Nat) (x : Chan) : (s.setChan n x).flitFails = s.flitFails := rfl
@[simp] theorem State.setChan_meshRx (s : State) (n : Nat) (x : Chan) : (s.setChan n x).meshRx = s.meshRx := rfl
@[simp] theorem State.setChan_ports (s : State) (n : Nat) (x : Chan) : (s.setChan n x).ports = s.ports := rfl
@[simp] theorem State.setChan_delivered (s : State) (n : Nat) (x : Chan) : (s.setChan n x).delivered = s.delivered := rfl
@[simp] theorem State.setChan_flip (s : State) (n : Nat) (x : Chan) : (s.setChan n x).flip = s.flip := rfl
@[simp] theorem State.setChan_spareTslot (s : State) (n : Nat) (x : Chan) : (s.setChan n x).spareTslot = s.spareTslot := rfl
@[simp] theorem State.setChan_iommus (s : State) (n : Nat) (x : Chan) : (s.setChan n x).iommus = s.iommus := rfl
@[simp] theorem State.setChan_io (s : State) (n : Nat) (x : Chan) : (s.setChan n x).io = s.io := rfl
@[simp] theorem State.setChan_pwr (s : State) (n : Nat) (x : Chan) : (s.setChan n x).pwr = s.pwr := rfl
@[simp] theorem State.setChan_bootCfg (s : State) (n : Nat) (x : Chan) : (s.setChan n x).bootCfg = s.bootCfg := rfl
@[simp] theorem State.setChan_out (s : State) (n : Nat) (x : Chan) : (s.setChan n x).out = s.out := rfl
@[simp] theorem State.setChan_stops (s : State) (n : Nat) (x : Chan) : (s.setChan n x).stops = s.stops := rfl
@[simp] theorem State.setChan_injEn (s : State) (n : Nat) (x : Chan) : (s.setChan n x).injEn = s.injEn := rfl
@[simp] theorem State.setChan_lifeDue (s : State) (n : Nat) (x : Chan) : (s.setChan n x).lifeDue = s.lifeDue := rfl
@[simp] theorem State.setChan_boot (s : State) (n : Nat) (x : Chan) : (s.setChan n x).boot = s.boot := rfl
@[simp] theorem State.setChan_life (s : State) (n : Nat) (x : Chan) : (s.setChan n x).life = s.life := rfl
@[simp] theorem State.setChan_ctl (s : State) (n : Nat) (x : Chan) : (s.setChan n x).ctl = s.ctl := rfl
@[simp] theorem State.setChan_rnd (s : State) (n : Nat) (x : Chan) : (s.setChan n x).rnd = s.rnd := rfl
@[simp] theorem State.setChan_wdog (s : State) (n : Nat) (x : Chan) : (s.setChan n x).wdog = s.wdog := rfl
@[simp] theorem State.setChan_wdogWarned (s : State) (n : Nat) (x : Chan) : (s.setChan n x).wdogWarned = s.wdogWarned := rfl

/-! ### setIommu -/
@[simp] theorem State.setIommu_pending (s : State) (i : Nat) (x : Iommu) : (s.setIommu i x).pending = s.pending := rfl
@[simp] theorem State.setIommu_free (s : State) (i : Nat) (x : Iommu) : (s.setIommu i x).free = s.free := rfl
@[simp] theorem State.setIommu_part (s : State) (i : Nat) (x : Iommu) : (s.setIommu i x).part = s.part := rfl
@[simp] theorem State.setIommu_mode (s : State) (i : Nat) (x : Iommu) : (s.setIommu i x).mode = s.mode := rfl
@[simp] theorem State.setIommu_time (s : State) (i : Nat) (x : Iommu) : (s.setIommu i x).time = s.time := rfl
@[simp] theorem State.setIommu_regs (s : State) (i : Nat) (x : Iommu) : (s.setIommu i x).regs = s.regs := rfl
@[simp] theorem State.setIommu_cores (s : State) (i : Nat) (x : Iommu) : (s.setIommu i x).cores = s.cores := rfl
@[simp] theorem State.setIommu_tiles (s : State) (i : Nat) (x : Iommu) : (s.setIommu i x).tiles = s.tiles := rfl
@[simp] theorem State.setIommu_arbours (s : State) (i : Nat) (x : Iommu) : (s.setIommu i x).arbours = s.arbours := rfl
@[simp] theorem State.setIommu_slices (s : State) (i : Nat) (x : Iommu) : (s.setIommu i x).slices = s.slices := rfl
@[simp] theorem State.setIommu_homes (s : State) (i : Nat) (x : Iommu) : (s.setIommu i x).homes = s.homes := rfl
@[simp] theorem State.setIommu_chans (s : State) (i : Nat) (x : Iommu) : (s.setIommu i x).chans = s.chans := rfl
@[simp] theorem State.setIommu_mem (s : State) (i : Nat) (x : Iommu) : (s.setIommu i x).mem = s.mem := rfl
@[simp] theorem State.setIommu_memTags (s : State) (i : Nat) (x : Iommu) : (s.setIommu i x).memTags = s.memTags := rfl
@[simp] theorem State.setIommu_urn (s : State) (i : Nat) (x : Iommu) : (s.setIommu i x).urn = s.urn := rfl
@[simp] theorem State.setIommu_urnAns (s : State) (i : Nat) (x : Iommu) : (s.setIommu i x).urnAns = s.urnAns := rfl
@[simp] theorem State.setIommu_tsvLast (s : State) (i : Nat) (x : Iommu) : (s.setIommu i x).tsvLast = s.tsvLast := rfl
@[simp] theorem State.setIommu_urnSched (s : State) (i : Nat) (x : Iommu) : (s.setIommu i x).urnSched = s.urnSched := rfl
@[simp] theorem State.setIommu_stateMsgs (s : State) (i : Nat) (x : Iommu) : (s.setIommu i x).stateMsgs = s.stateMsgs := rfl
@[simp] theorem State.setIommu_tlbis (s : State) (i : Nat) (x : Iommu) : (s.setIommu i x).tlbis = s.tlbis := rfl
@[simp] theorem State.setIommu_tlbiOuts (s : State) (i : Nat) (x : Iommu) : (s.setIommu i x).tlbiOuts = s.tlbiOuts := rfl
@[simp] theorem State.setIommu_net (s : State) (i : Nat) (x : Iommu) : (s.setIommu i x).net = s.net := rfl
@[simp] theorem State.setIommu_nacked (s : State) (i : Nat) (x : Iommu) : (s.setIommu i x).nacked = s.nacked := rfl
@[simp] theorem State.setIommu_kiosks (s : State) (i : Nat) (x : Iommu) : (s.setIommu i x).kiosks = s.kiosks := rfl
@[simp] theorem State.setIommu_flits (s : State) (i : Nat) (x : Iommu) : (s.setIommu i x).flits = s.flits := rfl
@[simp] theorem State.setIommu_flitFails (s : State) (i : Nat) (x : Iommu) : (s.setIommu i x).flitFails = s.flitFails := rfl
@[simp] theorem State.setIommu_meshRx (s : State) (i : Nat) (x : Iommu) : (s.setIommu i x).meshRx = s.meshRx := rfl
@[simp] theorem State.setIommu_ports (s : State) (i : Nat) (x : Iommu) : (s.setIommu i x).ports = s.ports := rfl
@[simp] theorem State.setIommu_delivered (s : State) (i : Nat) (x : Iommu) : (s.setIommu i x).delivered = s.delivered := rfl
@[simp] theorem State.setIommu_flip (s : State) (i : Nat) (x : Iommu) : (s.setIommu i x).flip = s.flip := rfl
@[simp] theorem State.setIommu_spareTslot (s : State) (i : Nat) (x : Iommu) : (s.setIommu i x).spareTslot = s.spareTslot := rfl
@[simp] theorem State.setIommu_io (s : State) (i : Nat) (x : Iommu) : (s.setIommu i x).io = s.io := rfl
@[simp] theorem State.setIommu_pwr (s : State) (i : Nat) (x : Iommu) : (s.setIommu i x).pwr = s.pwr := rfl
@[simp] theorem State.setIommu_bootCfg (s : State) (i : Nat) (x : Iommu) : (s.setIommu i x).bootCfg = s.bootCfg := rfl
@[simp] theorem State.setIommu_out (s : State) (i : Nat) (x : Iommu) : (s.setIommu i x).out = s.out := rfl
@[simp] theorem State.setIommu_stops (s : State) (i : Nat) (x : Iommu) : (s.setIommu i x).stops = s.stops := rfl
@[simp] theorem State.setIommu_injEn (s : State) (i : Nat) (x : Iommu) : (s.setIommu i x).injEn = s.injEn := rfl
@[simp] theorem State.setIommu_lifeDue (s : State) (i : Nat) (x : Iommu) : (s.setIommu i x).lifeDue = s.lifeDue := rfl
@[simp] theorem State.setIommu_boot (s : State) (i : Nat) (x : Iommu) : (s.setIommu i x).boot = s.boot := rfl
@[simp] theorem State.setIommu_life (s : State) (i : Nat) (x : Iommu) : (s.setIommu i x).life = s.life := rfl
@[simp] theorem State.setIommu_ctl (s : State) (i : Nat) (x : Iommu) : (s.setIommu i x).ctl = s.ctl := rfl
@[simp] theorem State.setIommu_rnd (s : State) (i : Nat) (x : Iommu) : (s.setIommu i x).rnd = s.rnd := rfl
@[simp] theorem State.setIommu_wdog (s : State) (i : Nat) (x : Iommu) : (s.setIommu i x).wdog = s.wdog := rfl
@[simp] theorem State.setIommu_wdogWarned (s : State) (i : Nat) (x : Iommu) : (s.setIommu i x).wdogWarned = s.wdogWarned := rfl

/-! ### setUrn -/
@[simp] theorem State.setUrn_pending (s : State) (i : Nat) (x : UrnHalf) : (s.setUrn i x).pending = s.pending := rfl
@[simp] theorem State.setUrn_free (s : State) (i : Nat) (x : UrnHalf) : (s.setUrn i x).free = s.free := rfl
@[simp] theorem State.setUrn_part (s : State) (i : Nat) (x : UrnHalf) : (s.setUrn i x).part = s.part := rfl
@[simp] theorem State.setUrn_mode (s : State) (i : Nat) (x : UrnHalf) : (s.setUrn i x).mode = s.mode := rfl
@[simp] theorem State.setUrn_time (s : State) (i : Nat) (x : UrnHalf) : (s.setUrn i x).time = s.time := rfl
@[simp] theorem State.setUrn_regs (s : State) (i : Nat) (x : UrnHalf) : (s.setUrn i x).regs = s.regs := rfl
@[simp] theorem State.setUrn_cores (s : State) (i : Nat) (x : UrnHalf) : (s.setUrn i x).cores = s.cores := rfl
@[simp] theorem State.setUrn_tiles (s : State) (i : Nat) (x : UrnHalf) : (s.setUrn i x).tiles = s.tiles := rfl
@[simp] theorem State.setUrn_arbours (s : State) (i : Nat) (x : UrnHalf) : (s.setUrn i x).arbours = s.arbours := rfl
@[simp] theorem State.setUrn_slices (s : State) (i : Nat) (x : UrnHalf) : (s.setUrn i x).slices = s.slices := rfl
@[simp] theorem State.setUrn_homes (s : State) (i : Nat) (x : UrnHalf) : (s.setUrn i x).homes = s.homes := rfl
@[simp] theorem State.setUrn_chans (s : State) (i : Nat) (x : UrnHalf) : (s.setUrn i x).chans = s.chans := rfl
@[simp] theorem State.setUrn_mem (s : State) (i : Nat) (x : UrnHalf) : (s.setUrn i x).mem = s.mem := rfl
@[simp] theorem State.setUrn_memTags (s : State) (i : Nat) (x : UrnHalf) : (s.setUrn i x).memTags = s.memTags := rfl
@[simp] theorem State.setUrn_urnAns (s : State) (i : Nat) (x : UrnHalf) : (s.setUrn i x).urnAns = s.urnAns := rfl
@[simp] theorem State.setUrn_tsvLast (s : State) (i : Nat) (x : UrnHalf) : (s.setUrn i x).tsvLast = s.tsvLast := rfl
@[simp] theorem State.setUrn_urnSched (s : State) (i : Nat) (x : UrnHalf) : (s.setUrn i x).urnSched = s.urnSched := rfl
@[simp] theorem State.setUrn_stateMsgs (s : State) (i : Nat) (x : UrnHalf) : (s.setUrn i x).stateMsgs = s.stateMsgs := rfl
@[simp] theorem State.setUrn_tlbis (s : State) (i : Nat) (x : UrnHalf) : (s.setUrn i x).tlbis = s.tlbis := rfl
@[simp] theorem State.setUrn_tlbiOuts (s : State) (i : Nat) (x : UrnHalf) : (s.setUrn i x).tlbiOuts = s.tlbiOuts := rfl
@[simp] theorem State.setUrn_net (s : State) (i : Nat) (x : UrnHalf) : (s.setUrn i x).net = s.net := rfl
@[simp] theorem State.setUrn_nacked (s : State) (i : Nat) (x : UrnHalf) : (s.setUrn i x).nacked = s.nacked := rfl
@[simp] theorem State.setUrn_kiosks (s : State) (i : Nat) (x : UrnHalf) : (s.setUrn i x).kiosks = s.kiosks := rfl
@[simp] theorem State.setUrn_flits (s : State) (i : Nat) (x : UrnHalf) : (s.setUrn i x).flits = s.flits := rfl
@[simp] theorem State.setUrn_flitFails (s : State) (i : Nat) (x : UrnHalf) : (s.setUrn i x).flitFails = s.flitFails := rfl
@[simp] theorem State.setUrn_meshRx (s : State) (i : Nat) (x : UrnHalf) : (s.setUrn i x).meshRx = s.meshRx := rfl
@[simp] theorem State.setUrn_ports (s : State) (i : Nat) (x : UrnHalf) : (s.setUrn i x).ports = s.ports := rfl
@[simp] theorem State.setUrn_delivered (s : State) (i : Nat) (x : UrnHalf) : (s.setUrn i x).delivered = s.delivered := rfl
@[simp] theorem State.setUrn_flip (s : State) (i : Nat) (x : UrnHalf) : (s.setUrn i x).flip = s.flip := rfl
@[simp] theorem State.setUrn_spareTslot (s : State) (i : Nat) (x : UrnHalf) : (s.setUrn i x).spareTslot = s.spareTslot := rfl
@[simp] theorem State.setUrn_iommus (s : State) (i : Nat) (x : UrnHalf) : (s.setUrn i x).iommus = s.iommus := rfl
@[simp] theorem State.setUrn_io (s : State) (i : Nat) (x : UrnHalf) : (s.setUrn i x).io = s.io := rfl
@[simp] theorem State.setUrn_pwr (s : State) (i : Nat) (x : UrnHalf) : (s.setUrn i x).pwr = s.pwr := rfl
@[simp] theorem State.setUrn_bootCfg (s : State) (i : Nat) (x : UrnHalf) : (s.setUrn i x).bootCfg = s.bootCfg := rfl
@[simp] theorem State.setUrn_out (s : State) (i : Nat) (x : UrnHalf) : (s.setUrn i x).out = s.out := rfl
@[simp] theorem State.setUrn_stops (s : State) (i : Nat) (x : UrnHalf) : (s.setUrn i x).stops = s.stops := rfl
@[simp] theorem State.setUrn_injEn (s : State) (i : Nat) (x : UrnHalf) : (s.setUrn i x).injEn = s.injEn := rfl
@[simp] theorem State.setUrn_lifeDue (s : State) (i : Nat) (x : UrnHalf) : (s.setUrn i x).lifeDue = s.lifeDue := rfl
@[simp] theorem State.setUrn_boot (s : State) (i : Nat) (x : UrnHalf) : (s.setUrn i x).boot = s.boot := rfl
@[simp] theorem State.setUrn_life (s : State) (i : Nat) (x : UrnHalf) : (s.setUrn i x).life = s.life := rfl
@[simp] theorem State.setUrn_ctl (s : State) (i : Nat) (x : UrnHalf) : (s.setUrn i x).ctl = s.ctl := rfl
@[simp] theorem State.setUrn_rnd (s : State) (i : Nat) (x : UrnHalf) : (s.setUrn i x).rnd = s.rnd := rfl
@[simp] theorem State.setUrn_wdog (s : State) (i : Nat) (x : UrnHalf) : (s.setUrn i x).wdog = s.wdog := rfl
@[simp] theorem State.setUrn_wdogWarned (s : State) (i : Nat) (x : UrnHalf) : (s.setUrn i x).wdogWarned = s.wdogWarned := rfl

/-! ### emit -/
@[simp] theorem State.emit_pending (s : State) (o : Out) : (s.emit o).pending = s.pending := rfl
@[simp] theorem State.emit_free (s : State) (o : Out) : (s.emit o).free = s.free := rfl
@[simp] theorem State.emit_part (s : State) (o : Out) : (s.emit o).part = s.part := rfl
@[simp] theorem State.emit_mode (s : State) (o : Out) : (s.emit o).mode = s.mode := rfl
@[simp] theorem State.emit_time (s : State) (o : Out) : (s.emit o).time = s.time := rfl
@[simp] theorem State.emit_regs (s : State) (o : Out) : (s.emit o).regs = s.regs := rfl
@[simp] theorem State.emit_cores (s : State) (o : Out) : (s.emit o).cores = s.cores := rfl
@[simp] theorem State.emit_tiles (s : State) (o : Out) : (s.emit o).tiles = s.tiles := rfl
@[simp] theorem State.emit_arbours (s : State) (o : Out) : (s.emit o).arbours = s.arbours := rfl
@[simp] theorem State.emit_slices (s : State) (o : Out) : (s.emit o).slices = s.slices := rfl
@[simp] theorem State.emit_homes (s : State) (o : Out) : (s.emit o).homes = s.homes := rfl
@[simp] theorem State.emit_chans (s : State) (o : Out) : (s.emit o).chans = s.chans := rfl
@[simp] theorem State.emit_mem (s : State) (o : Out) : (s.emit o).mem = s.mem := rfl
@[simp] theorem State.emit_memTags (s : State) (o : Out) : (s.emit o).memTags = s.memTags := rfl
@[simp] theorem State.emit_urn (s : State) (o : Out) : (s.emit o).urn = s.urn := rfl
@[simp] theorem State.emit_urnAns (s : State) (o : Out) : (s.emit o).urnAns = s.urnAns := rfl
@[simp] theorem State.emit_tsvLast (s : State) (o : Out) : (s.emit o).tsvLast = s.tsvLast := rfl
@[simp] theorem State.emit_urnSched (s : State) (o : Out) : (s.emit o).urnSched = s.urnSched := rfl
@[simp] theorem State.emit_stateMsgs (s : State) (o : Out) : (s.emit o).stateMsgs = s.stateMsgs := rfl
@[simp] theorem State.emit_tlbis (s : State) (o : Out) : (s.emit o).tlbis = s.tlbis := rfl
@[simp] theorem State.emit_tlbiOuts (s : State) (o : Out) : (s.emit o).tlbiOuts = s.tlbiOuts := rfl
@[simp] theorem State.emit_net (s : State) (o : Out) : (s.emit o).net = s.net := rfl
@[simp] theorem State.emit_nacked (s : State) (o : Out) : (s.emit o).nacked = s.nacked := rfl
@[simp] theorem State.emit_kiosks (s : State) (o : Out) : (s.emit o).kiosks = s.kiosks := rfl
@[simp] theorem State.emit_flits (s : State) (o : Out) : (s.emit o).flits = s.flits := rfl
@[simp] theorem State.emit_flitFails (s : State) (o : Out) : (s.emit o).flitFails = s.flitFails := rfl
@[simp] theorem State.emit_meshRx (s : State) (o : Out) : (s.emit o).meshRx = s.meshRx := rfl
@[simp] theorem State.emit_ports (s : State) (o : Out) : (s.emit o).ports = s.ports := rfl
@[simp] theorem State.emit_delivered (s : State) (o : Out) : (s.emit o).delivered = s.delivered := rfl
@[simp] theorem State.emit_flip (s : State) (o : Out) : (s.emit o).flip = s.flip := rfl
@[simp] theorem State.emit_spareTslot (s : State) (o : Out) : (s.emit o).spareTslot = s.spareTslot := rfl
@[simp] theorem State.emit_iommus (s : State) (o : Out) : (s.emit o).iommus = s.iommus := rfl
@[simp] theorem State.emit_io (s : State) (o : Out) : (s.emit o).io = s.io := rfl
@[simp] theorem State.emit_pwr (s : State) (o : Out) : (s.emit o).pwr = s.pwr := rfl
@[simp] theorem State.emit_bootCfg (s : State) (o : Out) : (s.emit o).bootCfg = s.bootCfg := rfl
@[simp] theorem State.emit_stops (s : State) (o : Out) : (s.emit o).stops = s.stops := rfl
@[simp] theorem State.emit_injEn (s : State) (o : Out) : (s.emit o).injEn = s.injEn := rfl
@[simp] theorem State.emit_lifeDue (s : State) (o : Out) : (s.emit o).lifeDue = s.lifeDue := rfl
@[simp] theorem State.emit_boot (s : State) (o : Out) : (s.emit o).boot = s.boot := rfl
@[simp] theorem State.emit_life (s : State) (o : Out) : (s.emit o).life = s.life := rfl
@[simp] theorem State.emit_ctl (s : State) (o : Out) : (s.emit o).ctl = s.ctl := rfl
@[simp] theorem State.emit_rnd (s : State) (o : Out) : (s.emit o).rnd = s.rnd := rfl
@[simp] theorem State.emit_wdog (s : State) (o : Out) : (s.emit o).wdog = s.wdog := rfl
@[simp] theorem State.emit_wdogWarned (s : State) (o : Out) : (s.emit o).wdogWarned = s.wdogWarned := rfl

/-! ### lifeEvent -/
@[simp] theorem State.lifeEvent_pending (s : State) (k : Nat) : (s.lifeEvent k).pending = s.pending := rfl
@[simp] theorem State.lifeEvent_free (s : State) (k : Nat) : (s.lifeEvent k).free = s.free := rfl
@[simp] theorem State.lifeEvent_part (s : State) (k : Nat) : (s.lifeEvent k).part = s.part := rfl
@[simp] theorem State.lifeEvent_mode (s : State) (k : Nat) : (s.lifeEvent k).mode = s.mode := rfl
@[simp] theorem State.lifeEvent_time (s : State) (k : Nat) : (s.lifeEvent k).time = s.time := rfl
@[simp] theorem State.lifeEvent_regs (s : State) (k : Nat) : (s.lifeEvent k).regs = s.regs := rfl
@[simp] theorem State.lifeEvent_cores (s : State) (k : Nat) : (s.lifeEvent k).cores = s.cores := rfl
@[simp] theorem State.lifeEvent_tiles (s : State) (k : Nat) : (s.lifeEvent k).tiles = s.tiles := rfl
@[simp] theorem State.lifeEvent_arbours (s : State) (k : Nat) : (s.lifeEvent k).arbours = s.arbours := rfl
@[simp] theorem State.lifeEvent_slices (s : State) (k : Nat) : (s.lifeEvent k).slices = s.slices := rfl
@[simp] theorem State.lifeEvent_homes (s : State) (k : Nat) : (s.lifeEvent k).homes = s.homes := rfl
@[simp] theorem State.lifeEvent_chans (s : State) (k : Nat) : (s.lifeEvent k).chans = s.chans := rfl
@[simp] theorem State.lifeEvent_mem (s : State) (k : Nat) : (s.lifeEvent k).mem = s.mem := rfl
@[simp] theorem State.lifeEvent_memTags (s : State) (k : Nat) : (s.lifeEvent k).memTags = s.memTags := rfl
@[simp] theorem State.lifeEvent_urn (s : State) (k : Nat) : (s.lifeEvent k).urn = s.urn := rfl
@[simp] theorem State.lifeEvent_urnAns (s : State) (k : Nat) : (s.lifeEvent k).urnAns = s.urnAns := rfl
@[simp] theorem State.lifeEvent_tsvLast (s : State) (k : Nat) : (s.lifeEvent k).tsvLast = s.tsvLast := rfl
@[simp] theorem State.lifeEvent_urnSched (s : State) (k : Nat) : (s.lifeEvent k).urnSched = s.urnSched := rfl
@[simp] theorem State.lifeEvent_stateMsgs (s : State) (k : Nat) : (s.lifeEvent k).stateMsgs = s.stateMsgs := rfl
@[simp] theorem State.lifeEvent_tlbis (s : State) (k : Nat) : (s.lifeEvent k).tlbis = s.tlbis := rfl
@[simp] theorem State.lifeEvent_tlbiOuts (s : State) (k : Nat) : (s.lifeEvent k).tlbiOuts = s.tlbiOuts := rfl
@[simp] theorem State.lifeEvent_net (s : State) (k : Nat) : (s.lifeEvent k).net = s.net := rfl
@[simp] theorem State.lifeEvent_nacked (s : State) (k : Nat) : (s.lifeEvent k).nacked = s.nacked := rfl
@[simp] theorem State.lifeEvent_kiosks (s : State) (k : Nat) : (s.lifeEvent k).kiosks = s.kiosks := rfl
@[simp] theorem State.lifeEvent_flits (s : State) (k : Nat) : (s.lifeEvent k).flits = s.flits := rfl
@[simp] theorem State.lifeEvent_flitFails (s : State) (k : Nat) : (s.lifeEvent k).flitFails = s.flitFails := rfl
@[simp] theorem State.lifeEvent_meshRx (s : State) (k : Nat) : (s.lifeEvent k).meshRx = s.meshRx := rfl
@[simp] theorem State.lifeEvent_ports (s : State) (k : Nat) : (s.lifeEvent k).ports = s.ports := rfl
@[simp] theorem State.lifeEvent_delivered (s : State) (k : Nat) : (s.lifeEvent k).delivered = s.delivered := rfl
@[simp] theorem State.lifeEvent_flip (s : State) (k : Nat) : (s.lifeEvent k).flip = s.flip := rfl
@[simp] theorem State.lifeEvent_spareTslot (s : State) (k : Nat) : (s.lifeEvent k).spareTslot = s.spareTslot := rfl
@[simp] theorem State.lifeEvent_iommus (s : State) (k : Nat) : (s.lifeEvent k).iommus = s.iommus := rfl
@[simp] theorem State.lifeEvent_io (s : State) (k : Nat) : (s.lifeEvent k).io = s.io := rfl
@[simp] theorem State.lifeEvent_pwr (s : State) (k : Nat) : (s.lifeEvent k).pwr = s.pwr := rfl
@[simp] theorem State.lifeEvent_bootCfg (s : State) (k : Nat) : (s.lifeEvent k).bootCfg = s.bootCfg := rfl
@[simp] theorem State.lifeEvent_out (s : State) (k : Nat) : (s.lifeEvent k).out = s.out := rfl
@[simp] theorem State.lifeEvent_stops (s : State) (k : Nat) : (s.lifeEvent k).stops = s.stops := rfl
@[simp] theorem State.lifeEvent_injEn (s : State) (k : Nat) : (s.lifeEvent k).injEn = s.injEn := rfl
@[simp] theorem State.lifeEvent_lifeDue (s : State) (k : Nat) : (s.lifeEvent k).lifeDue = s.lifeDue := rfl
@[simp] theorem State.lifeEvent_boot (s : State) (k : Nat) : (s.lifeEvent k).boot = s.boot := rfl
@[simp] theorem State.lifeEvent_ctl (s : State) (k : Nat) : (s.lifeEvent k).ctl = s.ctl := rfl
@[simp] theorem State.lifeEvent_rnd (s : State) (k : Nat) : (s.lifeEvent k).rnd = s.rnd := rfl
@[simp] theorem State.lifeEvent_wdog (s : State) (k : Nat) : (s.lifeEvent k).wdog = s.wdog := rfl
@[simp] theorem State.lifeEvent_wdogWarned (s : State) (k : Nat) : (s.lifeEvent k).wdogWarned = s.wdogWarned := rfl

/-! ### setReg -/
@[simp] theorem State.setReg_pending (s : State) (die unit : Nat) (r : RegDef) (idx : List Nat) (v : BitVec 64) : (s.setReg die unit r idx v).pending = s.pending := rfl
@[simp] theorem State.setReg_free (s : State) (die unit : Nat) (r : RegDef) (idx : List Nat) (v : BitVec 64) : (s.setReg die unit r idx v).free = s.free := rfl
@[simp] theorem State.setReg_part (s : State) (die unit : Nat) (r : RegDef) (idx : List Nat) (v : BitVec 64) : (s.setReg die unit r idx v).part = s.part := rfl
@[simp] theorem State.setReg_mode (s : State) (die unit : Nat) (r : RegDef) (idx : List Nat) (v : BitVec 64) : (s.setReg die unit r idx v).mode = s.mode := rfl
@[simp] theorem State.setReg_time (s : State) (die unit : Nat) (r : RegDef) (idx : List Nat) (v : BitVec 64) : (s.setReg die unit r idx v).time = s.time := rfl
@[simp] theorem State.setReg_cores (s : State) (die unit : Nat) (r : RegDef) (idx : List Nat) (v : BitVec 64) : (s.setReg die unit r idx v).cores = s.cores := rfl
@[simp] theorem State.setReg_tiles (s : State) (die unit : Nat) (r : RegDef) (idx : List Nat) (v : BitVec 64) : (s.setReg die unit r idx v).tiles = s.tiles := rfl
@[simp] theorem State.setReg_arbours (s : State) (die unit : Nat) (r : RegDef) (idx : List Nat) (v : BitVec 64) : (s.setReg die unit r idx v).arbours = s.arbours := rfl
@[simp] theorem State.setReg_slices (s : State) (die unit : Nat) (r : RegDef) (idx : List Nat) (v : BitVec 64) : (s.setReg die unit r idx v).slices = s.slices := rfl
@[simp] theorem State.setReg_homes (s : State) (die unit : Nat) (r : RegDef) (idx : List Nat) (v : BitVec 64) : (s.setReg die unit r idx v).homes = s.homes := rfl
@[simp] theorem State.setReg_chans (s : State) (die unit : Nat) (r : RegDef) (idx : List Nat) (v : BitVec 64) : (s.setReg die unit r idx v).chans = s.chans := rfl
@[simp] theorem State.setReg_mem (s : State) (die unit : Nat) (r : RegDef) (idx : List Nat) (v : BitVec 64) : (s.setReg die unit r idx v).mem = s.mem := rfl
@[simp] theorem State.setReg_memTags (s : State) (die unit : Nat) (r : RegDef) (idx : List Nat) (v : BitVec 64) : (s.setReg die unit r idx v).memTags = s.memTags := rfl
@[simp] theorem State.setReg_urn (s : State) (die unit : Nat) (r : RegDef) (idx : List Nat) (v : BitVec 64) : (s.setReg die unit r idx v).urn = s.urn := rfl
@[simp] theorem State.setReg_urnAns (s : State) (die unit : Nat) (r : RegDef) (idx : List Nat) (v : BitVec 64) : (s.setReg die unit r idx v).urnAns = s.urnAns := rfl
@[simp] theorem State.setReg_tsvLast (s : State) (die unit : Nat) (r : RegDef) (idx : List Nat) (v : BitVec 64) : (s.setReg die unit r idx v).tsvLast = s.tsvLast := rfl
@[simp] theorem State.setReg_urnSched (s : State) (die unit : Nat) (r : RegDef) (idx : List Nat) (v : BitVec 64) : (s.setReg die unit r idx v).urnSched = s.urnSched := rfl
@[simp] theorem State.setReg_stateMsgs (s : State) (die unit : Nat) (r : RegDef) (idx : List Nat) (v : BitVec 64) : (s.setReg die unit r idx v).stateMsgs = s.stateMsgs := rfl
@[simp] theorem State.setReg_tlbis (s : State) (die unit : Nat) (r : RegDef) (idx : List Nat) (v : BitVec 64) : (s.setReg die unit r idx v).tlbis = s.tlbis := rfl
@[simp] theorem State.setReg_tlbiOuts (s : State) (die unit : Nat) (r : RegDef) (idx : List Nat) (v : BitVec 64) : (s.setReg die unit r idx v).tlbiOuts = s.tlbiOuts := rfl
@[simp] theorem State.setReg_net (s : State) (die unit : Nat) (r : RegDef) (idx : List Nat) (v : BitVec 64) : (s.setReg die unit r idx v).net = s.net := rfl
@[simp] theorem State.setReg_nacked (s : State) (die unit : Nat) (r : RegDef) (idx : List Nat) (v : BitVec 64) : (s.setReg die unit r idx v).nacked = s.nacked := rfl
@[simp] theorem State.setReg_kiosks (s : State) (die unit : Nat) (r : RegDef) (idx : List Nat) (v : BitVec 64) : (s.setReg die unit r idx v).kiosks = s.kiosks := rfl
@[simp] theorem State.setReg_flits (s : State) (die unit : Nat) (r : RegDef) (idx : List Nat) (v : BitVec 64) : (s.setReg die unit r idx v).flits = s.flits := rfl
@[simp] theorem State.setReg_flitFails (s : State) (die unit : Nat) (r : RegDef) (idx : List Nat) (v : BitVec 64) : (s.setReg die unit r idx v).flitFails = s.flitFails := rfl
@[simp] theorem State.setReg_meshRx (s : State) (die unit : Nat) (r : RegDef) (idx : List Nat) (v : BitVec 64) : (s.setReg die unit r idx v).meshRx = s.meshRx := rfl
@[simp] theorem State.setReg_ports (s : State) (die unit : Nat) (r : RegDef) (idx : List Nat) (v : BitVec 64) : (s.setReg die unit r idx v).ports = s.ports := rfl
@[simp] theorem State.setReg_delivered (s : State) (die unit : Nat) (r : RegDef) (idx : List Nat) (v : BitVec 64) : (s.setReg die unit r idx v).delivered = s.delivered := rfl
@[simp] theorem State.setReg_flip (s : State) (die unit : Nat) (r : RegDef) (idx : List Nat) (v : BitVec 64) : (s.setReg die unit r idx v).flip = s.flip := rfl
@[simp] theorem State.setReg_spareTslot (s : State) (die unit : Nat) (r : RegDef) (idx : List Nat) (v : BitVec 64) : (s.setReg die unit r idx v).spareTslot = s.spareTslot := rfl
@[simp] theorem State.setReg_iommus (s : State) (die unit : Nat) (r : RegDef) (idx : List Nat) (v : BitVec 64) : (s.setReg die unit r idx v).iommus = s.iommus := rfl
@[simp] theorem State.setReg_io (s : State) (die unit : Nat) (r : RegDef) (idx : List Nat) (v : BitVec 64) : (s.setReg die unit r idx v).io = s.io := rfl
@[simp] theorem State.setReg_pwr (s : State) (die unit : Nat) (r : RegDef) (idx : List Nat) (v : BitVec 64) : (s.setReg die unit r idx v).pwr = s.pwr := rfl
@[simp] theorem State.setReg_bootCfg (s : State) (die unit : Nat) (r : RegDef) (idx : List Nat) (v : BitVec 64) : (s.setReg die unit r idx v).bootCfg = s.bootCfg := rfl
@[simp] theorem State.setReg_out (s : State) (die unit : Nat) (r : RegDef) (idx : List Nat) (v : BitVec 64) : (s.setReg die unit r idx v).out = s.out := rfl
@[simp] theorem State.setReg_stops (s : State) (die unit : Nat) (r : RegDef) (idx : List Nat) (v : BitVec 64) : (s.setReg die unit r idx v).stops = s.stops := rfl
@[simp] theorem State.setReg_injEn (s : State) (die unit : Nat) (r : RegDef) (idx : List Nat) (v : BitVec 64) : (s.setReg die unit r idx v).injEn = s.injEn := rfl
@[simp] theorem State.setReg_lifeDue (s : State) (die unit : Nat) (r : RegDef) (idx : List Nat) (v : BitVec 64) : (s.setReg die unit r idx v).lifeDue = s.lifeDue := rfl
@[simp] theorem State.setReg_boot (s : State) (die unit : Nat) (r : RegDef) (idx : List Nat) (v : BitVec 64) : (s.setReg die unit r idx v).boot = s.boot := rfl
@[simp] theorem State.setReg_life (s : State) (die unit : Nat) (r : RegDef) (idx : List Nat) (v : BitVec 64) : (s.setReg die unit r idx v).life = s.life := rfl
@[simp] theorem State.setReg_ctl (s : State) (die unit : Nat) (r : RegDef) (idx : List Nat) (v : BitVec 64) : (s.setReg die unit r idx v).ctl = s.ctl := rfl
@[simp] theorem State.setReg_rnd (s : State) (die unit : Nat) (r : RegDef) (idx : List Nat) (v : BitVec 64) : (s.setReg die unit r idx v).rnd = s.rnd := rfl
@[simp] theorem State.setReg_wdog (s : State) (die unit : Nat) (r : RegDef) (idx : List Nat) (v : BitVec 64) : (s.setReg die unit r idx v).wdog = s.wdog := rfl
@[simp] theorem State.setReg_wdogWarned (s : State) (die unit : Nat) (r : RegDef) (idx : List Nat) (v : BitVec 64) : (s.setReg die unit r idx v).wdogWarned = s.wdogWarned := rfl

/-! ### setFld -/
@[simp] theorem State.setFld_pending (s : State) (die unit : Nat) (r : RegDef) (idx : List Nat) (f : RField) (x : Nat) : (s.setFld die unit r idx f x).pending = s.pending := rfl
@[simp] theorem State.setFld_free (s : State) (die unit : Nat) (r : RegDef) (idx : List Nat) (f : RField) (x : Nat) : (s.setFld die unit r idx f x).free = s.free := rfl
@[simp] theorem State.setFld_part (s : State) (die unit : Nat) (r : RegDef) (idx : List Nat) (f : RField) (x : Nat) : (s.setFld die unit r idx f x).part = s.part := rfl
@[simp] theorem State.setFld_mode (s : State) (die unit : Nat) (r : RegDef) (idx : List Nat) (f : RField) (x : Nat) : (s.setFld die unit r idx f x).mode = s.mode := rfl
@[simp] theorem State.setFld_time (s : State) (die unit : Nat) (r : RegDef) (idx : List Nat) (f : RField) (x : Nat) : (s.setFld die unit r idx f x).time = s.time := rfl
@[simp] theorem State.setFld_cores (s : State) (die unit : Nat) (r : RegDef) (idx : List Nat) (f : RField) (x : Nat) : (s.setFld die unit r idx f x).cores = s.cores := rfl
@[simp] theorem State.setFld_tiles (s : State) (die unit : Nat) (r : RegDef) (idx : List Nat) (f : RField) (x : Nat) : (s.setFld die unit r idx f x).tiles = s.tiles := rfl
@[simp] theorem State.setFld_arbours (s : State) (die unit : Nat) (r : RegDef) (idx : List Nat) (f : RField) (x : Nat) : (s.setFld die unit r idx f x).arbours = s.arbours := rfl
@[simp] theorem State.setFld_slices (s : State) (die unit : Nat) (r : RegDef) (idx : List Nat) (f : RField) (x : Nat) : (s.setFld die unit r idx f x).slices = s.slices := rfl
@[simp] theorem State.setFld_homes (s : State) (die unit : Nat) (r : RegDef) (idx : List Nat) (f : RField) (x : Nat) : (s.setFld die unit r idx f x).homes = s.homes := rfl
@[simp] theorem State.setFld_chans (s : State) (die unit : Nat) (r : RegDef) (idx : List Nat) (f : RField) (x : Nat) : (s.setFld die unit r idx f x).chans = s.chans := rfl
@[simp] theorem State.setFld_mem (s : State) (die unit : Nat) (r : RegDef) (idx : List Nat) (f : RField) (x : Nat) : (s.setFld die unit r idx f x).mem = s.mem := rfl
@[simp] theorem State.setFld_memTags (s : State) (die unit : Nat) (r : RegDef) (idx : List Nat) (f : RField) (x : Nat) : (s.setFld die unit r idx f x).memTags = s.memTags := rfl
@[simp] theorem State.setFld_urn (s : State) (die unit : Nat) (r : RegDef) (idx : List Nat) (f : RField) (x : Nat) : (s.setFld die unit r idx f x).urn = s.urn := rfl
@[simp] theorem State.setFld_urnAns (s : State) (die unit : Nat) (r : RegDef) (idx : List Nat) (f : RField) (x : Nat) : (s.setFld die unit r idx f x).urnAns = s.urnAns := rfl
@[simp] theorem State.setFld_tsvLast (s : State) (die unit : Nat) (r : RegDef) (idx : List Nat) (f : RField) (x : Nat) : (s.setFld die unit r idx f x).tsvLast = s.tsvLast := rfl
@[simp] theorem State.setFld_urnSched (s : State) (die unit : Nat) (r : RegDef) (idx : List Nat) (f : RField) (x : Nat) : (s.setFld die unit r idx f x).urnSched = s.urnSched := rfl
@[simp] theorem State.setFld_stateMsgs (s : State) (die unit : Nat) (r : RegDef) (idx : List Nat) (f : RField) (x : Nat) : (s.setFld die unit r idx f x).stateMsgs = s.stateMsgs := rfl
@[simp] theorem State.setFld_tlbis (s : State) (die unit : Nat) (r : RegDef) (idx : List Nat) (f : RField) (x : Nat) : (s.setFld die unit r idx f x).tlbis = s.tlbis := rfl
@[simp] theorem State.setFld_tlbiOuts (s : State) (die unit : Nat) (r : RegDef) (idx : List Nat) (f : RField) (x : Nat) : (s.setFld die unit r idx f x).tlbiOuts = s.tlbiOuts := rfl
@[simp] theorem State.setFld_net (s : State) (die unit : Nat) (r : RegDef) (idx : List Nat) (f : RField) (x : Nat) : (s.setFld die unit r idx f x).net = s.net := rfl
@[simp] theorem State.setFld_nacked (s : State) (die unit : Nat) (r : RegDef) (idx : List Nat) (f : RField) (x : Nat) : (s.setFld die unit r idx f x).nacked = s.nacked := rfl
@[simp] theorem State.setFld_kiosks (s : State) (die unit : Nat) (r : RegDef) (idx : List Nat) (f : RField) (x : Nat) : (s.setFld die unit r idx f x).kiosks = s.kiosks := rfl
@[simp] theorem State.setFld_flits (s : State) (die unit : Nat) (r : RegDef) (idx : List Nat) (f : RField) (x : Nat) : (s.setFld die unit r idx f x).flits = s.flits := rfl
@[simp] theorem State.setFld_flitFails (s : State) (die unit : Nat) (r : RegDef) (idx : List Nat) (f : RField) (x : Nat) : (s.setFld die unit r idx f x).flitFails = s.flitFails := rfl
@[simp] theorem State.setFld_meshRx (s : State) (die unit : Nat) (r : RegDef) (idx : List Nat) (f : RField) (x : Nat) : (s.setFld die unit r idx f x).meshRx = s.meshRx := rfl
@[simp] theorem State.setFld_ports (s : State) (die unit : Nat) (r : RegDef) (idx : List Nat) (f : RField) (x : Nat) : (s.setFld die unit r idx f x).ports = s.ports := rfl
@[simp] theorem State.setFld_delivered (s : State) (die unit : Nat) (r : RegDef) (idx : List Nat) (f : RField) (x : Nat) : (s.setFld die unit r idx f x).delivered = s.delivered := rfl
@[simp] theorem State.setFld_flip (s : State) (die unit : Nat) (r : RegDef) (idx : List Nat) (f : RField) (x : Nat) : (s.setFld die unit r idx f x).flip = s.flip := rfl
@[simp] theorem State.setFld_spareTslot (s : State) (die unit : Nat) (r : RegDef) (idx : List Nat) (f : RField) (x : Nat) : (s.setFld die unit r idx f x).spareTslot = s.spareTslot := rfl
@[simp] theorem State.setFld_iommus (s : State) (die unit : Nat) (r : RegDef) (idx : List Nat) (f : RField) (x : Nat) : (s.setFld die unit r idx f x).iommus = s.iommus := rfl
@[simp] theorem State.setFld_io (s : State) (die unit : Nat) (r : RegDef) (idx : List Nat) (f : RField) (x : Nat) : (s.setFld die unit r idx f x).io = s.io := rfl
@[simp] theorem State.setFld_pwr (s : State) (die unit : Nat) (r : RegDef) (idx : List Nat) (f : RField) (x : Nat) : (s.setFld die unit r idx f x).pwr = s.pwr := rfl
@[simp] theorem State.setFld_bootCfg (s : State) (die unit : Nat) (r : RegDef) (idx : List Nat) (f : RField) (x : Nat) : (s.setFld die unit r idx f x).bootCfg = s.bootCfg := rfl
@[simp] theorem State.setFld_out (s : State) (die unit : Nat) (r : RegDef) (idx : List Nat) (f : RField) (x : Nat) : (s.setFld die unit r idx f x).out = s.out := rfl
@[simp] theorem State.setFld_stops (s : State) (die unit : Nat) (r : RegDef) (idx : List Nat) (f : RField) (x : Nat) : (s.setFld die unit r idx f x).stops = s.stops := rfl
@[simp] theorem State.setFld_injEn (s : State) (die unit : Nat) (r : RegDef) (idx : List Nat) (f : RField) (x : Nat) : (s.setFld die unit r idx f x).injEn = s.injEn := rfl
@[simp] theorem State.setFld_lifeDue (s : State) (die unit : Nat) (r : RegDef) (idx : List Nat) (f : RField) (x : Nat) : (s.setFld die unit r idx f x).lifeDue = s.lifeDue := rfl
@[simp] theorem State.setFld_boot (s : State) (die unit : Nat) (r : RegDef) (idx : List Nat) (f : RField) (x : Nat) : (s.setFld die unit r idx f x).boot = s.boot := rfl
@[simp] theorem State.setFld_life (s : State) (die unit : Nat) (r : RegDef) (idx : List Nat) (f : RField) (x : Nat) : (s.setFld die unit r idx f x).life = s.life := rfl
@[simp] theorem State.setFld_ctl (s : State) (die unit : Nat) (r : RegDef) (idx : List Nat) (f : RField) (x : Nat) : (s.setFld die unit r idx f x).ctl = s.ctl := rfl
@[simp] theorem State.setFld_rnd (s : State) (die unit : Nat) (r : RegDef) (idx : List Nat) (f : RField) (x : Nat) : (s.setFld die unit r idx f x).rnd = s.rnd := rfl
@[simp] theorem State.setFld_wdog (s : State) (die unit : Nat) (r : RegDef) (idx : List Nat) (f : RField) (x : Nat) : (s.setFld die unit r idx f x).wdog = s.wdog := rfl
@[simp] theorem State.setFld_wdogWarned (s : State) (die unit : Nat) (r : RegDef) (idx : List Nat) (f : RField) (x : Nat) : (s.setFld die unit r idx f x).wdogWarned = s.wdogWarned := rfl

/-! ### addFld -/
@[simp] theorem State.addFld_pending (s : State) (die unit : Nat) (r : RegDef) (idx : List Nat) (f : RField) (k : Nat) : (s.addFld die unit r idx f k).pending = s.pending := rfl
@[simp] theorem State.addFld_free (s : State) (die unit : Nat) (r : RegDef) (idx : List Nat) (f : RField) (k : Nat) : (s.addFld die unit r idx f k).free = s.free := rfl
@[simp] theorem State.addFld_part (s : State) (die unit : Nat) (r : RegDef) (idx : List Nat) (f : RField) (k : Nat) : (s.addFld die unit r idx f k).part = s.part := rfl
@[simp] theorem State.addFld_mode (s : State) (die unit : Nat) (r : RegDef) (idx : List Nat) (f : RField) (k : Nat) : (s.addFld die unit r idx f k).mode = s.mode := rfl
@[simp] theorem State.addFld_time (s : State) (die unit : Nat) (r : RegDef) (idx : List Nat) (f : RField) (k : Nat) : (s.addFld die unit r idx f k).time = s.time := rfl
@[simp] theorem State.addFld_cores (s : State) (die unit : Nat) (r : RegDef) (idx : List Nat) (f : RField) (k : Nat) : (s.addFld die unit r idx f k).cores = s.cores := rfl
@[simp] theorem State.addFld_tiles (s : State) (die unit : Nat) (r : RegDef) (idx : List Nat) (f : RField) (k : Nat) : (s.addFld die unit r idx f k).tiles = s.tiles := rfl
@[simp] theorem State.addFld_arbours (s : State) (die unit : Nat) (r : RegDef) (idx : List Nat) (f : RField) (k : Nat) : (s.addFld die unit r idx f k).arbours = s.arbours := rfl
@[simp] theorem State.addFld_slices (s : State) (die unit : Nat) (r : RegDef) (idx : List Nat) (f : RField) (k : Nat) : (s.addFld die unit r idx f k).slices = s.slices := rfl
@[simp] theorem State.addFld_homes (s : State) (die unit : Nat) (r : RegDef) (idx : List Nat) (f : RField) (k : Nat) : (s.addFld die unit r idx f k).homes = s.homes := rfl
@[simp] theorem State.addFld_chans (s : State) (die unit : Nat) (r : RegDef) (idx : List Nat) (f : RField) (k : Nat) : (s.addFld die unit r idx f k).chans = s.chans := rfl
@[simp] theorem State.addFld_mem (s : State) (die unit : Nat) (r : RegDef) (idx : List Nat) (f : RField) (k : Nat) : (s.addFld die unit r idx f k).mem = s.mem := rfl
@[simp] theorem State.addFld_memTags (s : State) (die unit : Nat) (r : RegDef) (idx : List Nat) (f : RField) (k : Nat) : (s.addFld die unit r idx f k).memTags = s.memTags := rfl
@[simp] theorem State.addFld_urn (s : State) (die unit : Nat) (r : RegDef) (idx : List Nat) (f : RField) (k : Nat) : (s.addFld die unit r idx f k).urn = s.urn := rfl
@[simp] theorem State.addFld_urnAns (s : State) (die unit : Nat) (r : RegDef) (idx : List Nat) (f : RField) (k : Nat) : (s.addFld die unit r idx f k).urnAns = s.urnAns := rfl
@[simp] theorem State.addFld_tsvLast (s : State) (die unit : Nat) (r : RegDef) (idx : List Nat) (f : RField) (k : Nat) : (s.addFld die unit r idx f k).tsvLast = s.tsvLast := rfl
@[simp] theorem State.addFld_urnSched (s : State) (die unit : Nat) (r : RegDef) (idx : List Nat) (f : RField) (k : Nat) : (s.addFld die unit r idx f k).urnSched = s.urnSched := rfl
@[simp] theorem State.addFld_stateMsgs (s : State) (die unit : Nat) (r : RegDef) (idx : List Nat) (f : RField) (k : Nat) : (s.addFld die unit r idx f k).stateMsgs = s.stateMsgs := rfl
@[simp] theorem State.addFld_tlbis (s : State) (die unit : Nat) (r : RegDef) (idx : List Nat) (f : RField) (k : Nat) : (s.addFld die unit r idx f k).tlbis = s.tlbis := rfl
@[simp] theorem State.addFld_tlbiOuts (s : State) (die unit : Nat) (r : RegDef) (idx : List Nat) (f : RField) (k : Nat) : (s.addFld die unit r idx f k).tlbiOuts = s.tlbiOuts := rfl
@[simp] theorem State.addFld_net (s : State) (die unit : Nat) (r : RegDef) (idx : List Nat) (f : RField) (k : Nat) : (s.addFld die unit r idx f k).net = s.net := rfl
@[simp] theorem State.addFld_nacked (s : State) (die unit : Nat) (r : RegDef) (idx : List Nat) (f : RField) (k : Nat) : (s.addFld die unit r idx f k).nacked = s.nacked := rfl
@[simp] theorem State.addFld_kiosks (s : State) (die unit : Nat) (r : RegDef) (idx : List Nat) (f : RField) (k : Nat) : (s.addFld die unit r idx f k).kiosks = s.kiosks := rfl
@[simp] theorem State.addFld_flits (s : State) (die unit : Nat) (r : RegDef) (idx : List Nat) (f : RField) (k : Nat) : (s.addFld die unit r idx f k).flits = s.flits := rfl
@[simp] theorem State.addFld_flitFails (s : State) (die unit : Nat) (r : RegDef) (idx : List Nat) (f : RField) (k : Nat) : (s.addFld die unit r idx f k).flitFails = s.flitFails := rfl
@[simp] theorem State.addFld_meshRx (s : State) (die unit : Nat) (r : RegDef) (idx : List Nat) (f : RField) (k : Nat) : (s.addFld die unit r idx f k).meshRx = s.meshRx := rfl
@[simp] theorem State.addFld_ports (s : State) (die unit : Nat) (r : RegDef) (idx : List Nat) (f : RField) (k : Nat) : (s.addFld die unit r idx f k).ports = s.ports := rfl
@[simp] theorem State.addFld_delivered (s : State) (die unit : Nat) (r : RegDef) (idx : List Nat) (f : RField) (k : Nat) : (s.addFld die unit r idx f k).delivered = s.delivered := rfl
@[simp] theorem State.addFld_flip (s : State) (die unit : Nat) (r : RegDef) (idx : List Nat) (f : RField) (k : Nat) : (s.addFld die unit r idx f k).flip = s.flip := rfl
@[simp] theorem State.addFld_spareTslot (s : State) (die unit : Nat) (r : RegDef) (idx : List Nat) (f : RField) (k : Nat) : (s.addFld die unit r idx f k).spareTslot = s.spareTslot := rfl
@[simp] theorem State.addFld_iommus (s : State) (die unit : Nat) (r : RegDef) (idx : List Nat) (f : RField) (k : Nat) : (s.addFld die unit r idx f k).iommus = s.iommus := rfl
@[simp] theorem State.addFld_io (s : State) (die unit : Nat) (r : RegDef) (idx : List Nat) (f : RField) (k : Nat) : (s.addFld die unit r idx f k).io = s.io := rfl
@[simp] theorem State.addFld_pwr (s : State) (die unit : Nat) (r : RegDef) (idx : List Nat) (f : RField) (k : Nat) : (s.addFld die unit r idx f k).pwr = s.pwr := rfl
@[simp] theorem State.addFld_bootCfg (s : State) (die unit : Nat) (r : RegDef) (idx : List Nat) (f : RField) (k : Nat) : (s.addFld die unit r idx f k).bootCfg = s.bootCfg := rfl
@[simp] theorem State.addFld_out (s : State) (die unit : Nat) (r : RegDef) (idx : List Nat) (f : RField) (k : Nat) : (s.addFld die unit r idx f k).out = s.out := rfl
@[simp] theorem State.addFld_stops (s : State) (die unit : Nat) (r : RegDef) (idx : List Nat) (f : RField) (k : Nat) : (s.addFld die unit r idx f k).stops = s.stops := rfl
@[simp] theorem State.addFld_injEn (s : State) (die unit : Nat) (r : RegDef) (idx : List Nat) (f : RField) (k : Nat) : (s.addFld die unit r idx f k).injEn = s.injEn := rfl
@[simp] theorem State.addFld_lifeDue (s : State) (die unit : Nat) (r : RegDef) (idx : List Nat) (f : RField) (k : Nat) : (s.addFld die unit r idx f k).lifeDue = s.lifeDue := rfl
@[simp] theorem State.addFld_boot (s : State) (die unit : Nat) (r : RegDef) (idx : List Nat) (f : RField) (k : Nat) : (s.addFld die unit r idx f k).boot = s.boot := rfl
@[simp] theorem State.addFld_life (s : State) (die unit : Nat) (r : RegDef) (idx : List Nat) (f : RField) (k : Nat) : (s.addFld die unit r idx f k).life = s.life := rfl
@[simp] theorem State.addFld_ctl (s : State) (die unit : Nat) (r : RegDef) (idx : List Nat) (f : RField) (k : Nat) : (s.addFld die unit r idx f k).ctl = s.ctl := rfl
@[simp] theorem State.addFld_rnd (s : State) (die unit : Nat) (r : RegDef) (idx : List Nat) (f : RField) (k : Nat) : (s.addFld die unit r idx f k).rnd = s.rnd := rfl
@[simp] theorem State.addFld_wdog (s : State) (die unit : Nat) (r : RegDef) (idx : List Nat) (f : RField) (k : Nat) : (s.addFld die unit r idx f k).wdog = s.wdog := rfl
@[simp] theorem State.addFld_wdogWarned (s : State) (die unit : Nat) (r : RegDef) (idx : List Nat) (f : RField) (k : Nat) : (s.addFld die unit r idx f k).wdogWarned = s.wdogWarned := rfl

/-! ### setDramWord -/
@[simp] theorem State.setDramWord_pending (s : State) (ch chline w : Nat) (x : Word) : (s.setDramWord ch chline w x).pending = s.pending := rfl
@[simp] theorem State.setDramWord_free (s : State) (ch chline w : Nat) (x : Word) : (s.setDramWord ch chline w x).free = s.free := rfl
@[simp] theorem State.setDramWord_part (s : State) (ch chline w : Nat) (x : Word) : (s.setDramWord ch chline w x).part = s.part := rfl
@[simp] theorem State.setDramWord_mode (s : State) (ch chline w : Nat) (x : Word) : (s.setDramWord ch chline w x).mode = s.mode := rfl
@[simp] theorem State.setDramWord_time (s : State) (ch chline w : Nat) (x : Word) : (s.setDramWord ch chline w x).time = s.time := rfl
@[simp] theorem State.setDramWord_regs (s : State) (ch chline w : Nat) (x : Word) : (s.setDramWord ch chline w x).regs = s.regs := rfl
@[simp] theorem State.setDramWord_cores (s : State) (ch chline w : Nat) (x : Word) : (s.setDramWord ch chline w x).cores = s.cores := rfl
@[simp] theorem State.setDramWord_tiles (s : State) (ch chline w : Nat) (x : Word) : (s.setDramWord ch chline w x).tiles = s.tiles := rfl
@[simp] theorem State.setDramWord_arbours (s : State) (ch chline w : Nat) (x : Word) : (s.setDramWord ch chline w x).arbours = s.arbours := rfl
@[simp] theorem State.setDramWord_slices (s : State) (ch chline w : Nat) (x : Word) : (s.setDramWord ch chline w x).slices = s.slices := rfl
@[simp] theorem State.setDramWord_homes (s : State) (ch chline w : Nat) (x : Word) : (s.setDramWord ch chline w x).homes = s.homes := rfl
@[simp] theorem State.setDramWord_chans (s : State) (ch chline w : Nat) (x : Word) : (s.setDramWord ch chline w x).chans = s.chans := rfl
@[simp] theorem State.setDramWord_urn (s : State) (ch chline w : Nat) (x : Word) : (s.setDramWord ch chline w x).urn = s.urn := rfl
@[simp] theorem State.setDramWord_urnAns (s : State) (ch chline w : Nat) (x : Word) : (s.setDramWord ch chline w x).urnAns = s.urnAns := rfl
@[simp] theorem State.setDramWord_tsvLast (s : State) (ch chline w : Nat) (x : Word) : (s.setDramWord ch chline w x).tsvLast = s.tsvLast := rfl
@[simp] theorem State.setDramWord_urnSched (s : State) (ch chline w : Nat) (x : Word) : (s.setDramWord ch chline w x).urnSched = s.urnSched := rfl
@[simp] theorem State.setDramWord_stateMsgs (s : State) (ch chline w : Nat) (x : Word) : (s.setDramWord ch chline w x).stateMsgs = s.stateMsgs := rfl
@[simp] theorem State.setDramWord_tlbis (s : State) (ch chline w : Nat) (x : Word) : (s.setDramWord ch chline w x).tlbis = s.tlbis := rfl
@[simp] theorem State.setDramWord_tlbiOuts (s : State) (ch chline w : Nat) (x : Word) : (s.setDramWord ch chline w x).tlbiOuts = s.tlbiOuts := rfl
@[simp] theorem State.setDramWord_net (s : State) (ch chline w : Nat) (x : Word) : (s.setDramWord ch chline w x).net = s.net := rfl
@[simp] theorem State.setDramWord_nacked (s : State) (ch chline w : Nat) (x : Word) : (s.setDramWord ch chline w x).nacked = s.nacked := rfl
@[simp] theorem State.setDramWord_kiosks (s : State) (ch chline w : Nat) (x : Word) : (s.setDramWord ch chline w x).kiosks = s.kiosks := rfl
@[simp] theorem State.setDramWord_flits (s : State) (ch chline w : Nat) (x : Word) : (s.setDramWord ch chline w x).flits = s.flits := rfl
@[simp] theorem State.setDramWord_flitFails (s : State) (ch chline w : Nat) (x : Word) : (s.setDramWord ch chline w x).flitFails = s.flitFails := rfl
@[simp] theorem State.setDramWord_meshRx (s : State) (ch chline w : Nat) (x : Word) : (s.setDramWord ch chline w x).meshRx = s.meshRx := rfl
@[simp] theorem State.setDramWord_ports (s : State) (ch chline w : Nat) (x : Word) : (s.setDramWord ch chline w x).ports = s.ports := rfl
@[simp] theorem State.setDramWord_delivered (s : State) (ch chline w : Nat) (x : Word) : (s.setDramWord ch chline w x).delivered = s.delivered := rfl
@[simp] theorem State.setDramWord_flip (s : State) (ch chline w : Nat) (x : Word) : (s.setDramWord ch chline w x).flip = s.flip := rfl
@[simp] theorem State.setDramWord_spareTslot (s : State) (ch chline w : Nat) (x : Word) : (s.setDramWord ch chline w x).spareTslot = s.spareTslot := rfl
@[simp] theorem State.setDramWord_iommus (s : State) (ch chline w : Nat) (x : Word) : (s.setDramWord ch chline w x).iommus = s.iommus := rfl
@[simp] theorem State.setDramWord_io (s : State) (ch chline w : Nat) (x : Word) : (s.setDramWord ch chline w x).io = s.io := rfl
@[simp] theorem State.setDramWord_pwr (s : State) (ch chline w : Nat) (x : Word) : (s.setDramWord ch chline w x).pwr = s.pwr := rfl
@[simp] theorem State.setDramWord_bootCfg (s : State) (ch chline w : Nat) (x : Word) : (s.setDramWord ch chline w x).bootCfg = s.bootCfg := rfl
@[simp] theorem State.setDramWord_out (s : State) (ch chline w : Nat) (x : Word) : (s.setDramWord ch chline w x).out = s.out := rfl
@[simp] theorem State.setDramWord_stops (s : State) (ch chline w : Nat) (x : Word) : (s.setDramWord ch chline w x).stops = s.stops := rfl
@[simp] theorem State.setDramWord_injEn (s : State) (ch chline w : Nat) (x : Word) : (s.setDramWord ch chline w x).injEn = s.injEn := rfl
@[simp] theorem State.setDramWord_lifeDue (s : State) (ch chline w : Nat) (x : Word) : (s.setDramWord ch chline w x).lifeDue = s.lifeDue := rfl
@[simp] theorem State.setDramWord_boot (s : State) (ch chline w : Nat) (x : Word) : (s.setDramWord ch chline w x).boot = s.boot := rfl
@[simp] theorem State.setDramWord_life (s : State) (ch chline w : Nat) (x : Word) : (s.setDramWord ch chline w x).life = s.life := rfl
@[simp] theorem State.setDramWord_ctl (s : State) (ch chline w : Nat) (x : Word) : (s.setDramWord ch chline w x).ctl = s.ctl := rfl
@[simp] theorem State.setDramWord_rnd (s : State) (ch chline w : Nat) (x : Word) : (s.setDramWord ch chline w x).rnd = s.rnd := rfl
@[simp] theorem State.setDramWord_wdog (s : State) (ch chline w : Nat) (x : Word) : (s.setDramWord ch chline w x).wdog = s.wdog := rfl
@[simp] theorem State.setDramWord_wdogWarned (s : State) (ch chline w : Nat) (x : Word) : (s.setDramWord ch chline w x).wdogWarned = s.wdogWarned := rfl

/-! ### takeFree -/
@[simp] theorem State.takeFree_pending (s : State) : s.takeFree.2.pending = s.pending := rfl
@[simp] theorem State.takeFree_part (s : State) : s.takeFree.2.part = s.part := rfl
@[simp] theorem State.takeFree_mode (s : State) : s.takeFree.2.mode = s.mode := rfl
@[simp] theorem State.takeFree_time (s : State) : s.takeFree.2.time = s.time := rfl
@[simp] theorem State.takeFree_regs (s : State) : s.takeFree.2.regs = s.regs := rfl
@[simp] theorem State.takeFree_cores (s : State) : s.takeFree.2.cores = s.cores := rfl
@[simp] theorem State.takeFree_tiles (s : State) : s.takeFree.2.tiles = s.tiles := rfl
@[simp] theorem State.takeFree_arbours (s : State) : s.takeFree.2.arbours = s.arbours := rfl
@[simp] theorem State.takeFree_slices (s : State) : s.takeFree.2.slices = s.slices := rfl
@[simp] theorem State.takeFree_homes (s : State) : s.takeFree.2.homes = s.homes := rfl
@[simp] theorem State.takeFree_chans (s : State) : s.takeFree.2.chans = s.chans := rfl
@[simp] theorem State.takeFree_mem (s : State) : s.takeFree.2.mem = s.mem := rfl
@[simp] theorem State.takeFree_memTags (s : State) : s.takeFree.2.memTags = s.memTags := rfl
@[simp] theorem State.takeFree_urn (s : State) : s.takeFree.2.urn = s.urn := rfl
@[simp] theorem State.takeFree_urnAns (s : State) : s.takeFree.2.urnAns = s.urnAns := rfl
@[simp] theorem State.takeFree_tsvLast (s : State) : s.takeFree.2.tsvLast = s.tsvLast := rfl
@[simp] theorem State.takeFree_urnSched (s : State) : s.takeFree.2.urnSched = s.urnSched := rfl
@[simp] theorem State.takeFree_stateMsgs (s : State) : s.takeFree.2.stateMsgs = s.stateMsgs := rfl
@[simp] theorem State.takeFree_tlbis (s : State) : s.takeFree.2.tlbis = s.tlbis := rfl
@[simp] theorem State.takeFree_tlbiOuts (s : State) : s.takeFree.2.tlbiOuts = s.tlbiOuts := rfl
@[simp] theorem State.takeFree_net (s : State) : s.takeFree.2.net = s.net := rfl
@[simp] theorem State.takeFree_nacked (s : State) : s.takeFree.2.nacked = s.nacked := rfl
@[simp] theorem State.takeFree_kiosks (s : State) : s.takeFree.2.kiosks = s.kiosks := rfl
@[simp] theorem State.takeFree_flits (s : State) : s.takeFree.2.flits = s.flits := rfl
@[simp] theorem State.takeFree_flitFails (s : State) : s.takeFree.2.flitFails = s.flitFails := rfl
@[simp] theorem State.takeFree_meshRx (s : State) : s.takeFree.2.meshRx = s.meshRx := rfl
@[simp] theorem State.takeFree_ports (s : State) : s.takeFree.2.ports = s.ports := rfl
@[simp] theorem State.takeFree_delivered (s : State) : s.takeFree.2.delivered = s.delivered := rfl
@[simp] theorem State.takeFree_flip (s : State) : s.takeFree.2.flip = s.flip := rfl
@[simp] theorem State.takeFree_spareTslot (s : State) : s.takeFree.2.spareTslot = s.spareTslot := rfl
@[simp] theorem State.takeFree_iommus (s : State) : s.takeFree.2.iommus = s.iommus := rfl
@[simp] theorem State.takeFree_io (s : State) : s.takeFree.2.io = s.io := rfl
@[simp] theorem State.takeFree_pwr (s : State) : s.takeFree.2.pwr = s.pwr := rfl
@[simp] theorem State.takeFree_bootCfg (s : State) : s.takeFree.2.bootCfg = s.bootCfg := rfl
@[simp] theorem State.takeFree_out (s : State) : s.takeFree.2.out = s.out := rfl
@[simp] theorem State.takeFree_stops (s : State) : s.takeFree.2.stops = s.stops := rfl
@[simp] theorem State.takeFree_injEn (s : State) : s.takeFree.2.injEn = s.injEn := rfl
@[simp] theorem State.takeFree_lifeDue (s : State) : s.takeFree.2.lifeDue = s.lifeDue := rfl
@[simp] theorem State.takeFree_boot (s : State) : s.takeFree.2.boot = s.boot := rfl
@[simp] theorem State.takeFree_life (s : State) : s.takeFree.2.life = s.life := rfl
@[simp] theorem State.takeFree_ctl (s : State) : s.takeFree.2.ctl = s.ctl := rfl
@[simp] theorem State.takeFree_rnd (s : State) : s.takeFree.2.rnd = s.rnd := rfl
@[simp] theorem State.takeFree_wdog (s : State) : s.takeFree.2.wdog = s.wdog := rfl
@[simp] theorem State.takeFree_wdogWarned (s : State) : s.takeFree.2.wdogWarned = s.wdogWarned := rfl

/-! ### setArbour -/
@[simp] theorem State.setArbour_pending (s : State) (lt : Nat) (x : Arbour) : (s.setArbour lt x).pending = s.pending := rfl
@[simp] theorem State.setArbour_free (s : State) (lt : Nat) (x : Arbour) : (s.setArbour lt x).free = s.free := rfl
@[simp] theorem State.setArbour_part (s : State) (lt : Nat) (x : Arbour) : (s.setArbour lt x).part = s.part := rfl
@[simp] theorem State.setArbour_mode (s : State) (lt : Nat) (x : Arbour) : (s.setArbour lt x).mode = s.mode := rfl
@[simp] theorem State.setArbour_time (s : State) (lt : Nat) (x : Arbour) : (s.setArbour lt x).time = s.time := rfl
@[simp] theorem State.setArbour_regs (s : State) (lt : Nat) (x : Arbour) : (s.setArbour lt x).regs = s.regs := rfl
@[simp] theorem State.setArbour_cores (s : State) (lt : Nat) (x : Arbour) : (s.setArbour lt x).cores = s.cores := rfl
@[simp] theorem State.setArbour_tiles (s : State) (lt : Nat) (x : Arbour) : (s.setArbour lt x).tiles = s.tiles := rfl
@[simp] theorem State.setArbour_slices (s : State) (lt : Nat) (x : Arbour) : (s.setArbour lt x).slices = s.slices := rfl
@[simp] theorem State.setArbour_homes (s : State) (lt : Nat) (x : Arbour) : (s.setArbour lt x).homes = s.homes := rfl
@[simp] theorem State.setArbour_chans (s : State) (lt : Nat) (x : Arbour) : (s.setArbour lt x).chans = s.chans := rfl
@[simp] theorem State.setArbour_mem (s : State) (lt : Nat) (x : Arbour) : (s.setArbour lt x).mem = s.mem := rfl
@[simp] theorem State.setArbour_memTags (s : State) (lt : Nat) (x : Arbour) : (s.setArbour lt x).memTags = s.memTags := rfl
@[simp] theorem State.setArbour_urn (s : State) (lt : Nat) (x : Arbour) : (s.setArbour lt x).urn = s.urn := rfl
@[simp] theorem State.setArbour_urnAns (s : State) (lt : Nat) (x : Arbour) : (s.setArbour lt x).urnAns = s.urnAns := rfl
@[simp] theorem State.setArbour_tsvLast (s : State) (lt : Nat) (x : Arbour) : (s.setArbour lt x).tsvLast = s.tsvLast := rfl
@[simp] theorem State.setArbour_urnSched (s : State) (lt : Nat) (x : Arbour) : (s.setArbour lt x).urnSched = s.urnSched := rfl
@[simp] theorem State.setArbour_stateMsgs (s : State) (lt : Nat) (x : Arbour) : (s.setArbour lt x).stateMsgs = s.stateMsgs := rfl
@[simp] theorem State.setArbour_tlbis (s : State) (lt : Nat) (x : Arbour) : (s.setArbour lt x).tlbis = s.tlbis := rfl
@[simp] theorem State.setArbour_tlbiOuts (s : State) (lt : Nat) (x : Arbour) : (s.setArbour lt x).tlbiOuts = s.tlbiOuts := rfl
@[simp] theorem State.setArbour_net (s : State) (lt : Nat) (x : Arbour) : (s.setArbour lt x).net = s.net := rfl
@[simp] theorem State.setArbour_nacked (s : State) (lt : Nat) (x : Arbour) : (s.setArbour lt x).nacked = s.nacked := rfl
@[simp] theorem State.setArbour_kiosks (s : State) (lt : Nat) (x : Arbour) : (s.setArbour lt x).kiosks = s.kiosks := rfl
@[simp] theorem State.setArbour_flits (s : State) (lt : Nat) (x : Arbour) : (s.setArbour lt x).flits = s.flits := rfl
@[simp] theorem State.setArbour_flitFails (s : State) (lt : Nat) (x : Arbour) : (s.setArbour lt x).flitFails = s.flitFails := rfl
@[simp] theorem State.setArbour_meshRx (s : State) (lt : Nat) (x : Arbour) : (s.setArbour lt x).meshRx = s.meshRx := rfl
@[simp] theorem State.setArbour_ports (s : State) (lt : Nat) (x : Arbour) : (s.setArbour lt x).ports = s.ports := rfl
@[simp] theorem State.setArbour_delivered (s : State) (lt : Nat) (x : Arbour) : (s.setArbour lt x).delivered = s.delivered := rfl
@[simp] theorem State.setArbour_flip (s : State) (lt : Nat) (x : Arbour) : (s.setArbour lt x).flip = s.flip := rfl
@[simp] theorem State.setArbour_spareTslot (s : State) (lt : Nat) (x : Arbour) : (s.setArbour lt x).spareTslot = s.spareTslot := rfl
@[simp] theorem State.setArbour_iommus (s : State) (lt : Nat) (x : Arbour) : (s.setArbour lt x).iommus = s.iommus := rfl
@[simp] theorem State.setArbour_io (s : State) (lt : Nat) (x : Arbour) : (s.setArbour lt x).io = s.io := rfl
@[simp] theorem State.setArbour_pwr (s : State) (lt : Nat) (x : Arbour) : (s.setArbour lt x).pwr = s.pwr := rfl
@[simp] theorem State.setArbour_bootCfg (s : State) (lt : Nat) (x : Arbour) : (s.setArbour lt x).bootCfg = s.bootCfg := rfl
@[simp] theorem State.setArbour_out (s : State) (lt : Nat) (x : Arbour) : (s.setArbour lt x).out = s.out := rfl
@[simp] theorem State.setArbour_stops (s : State) (lt : Nat) (x : Arbour) : (s.setArbour lt x).stops = s.stops := rfl
@[simp] theorem State.setArbour_injEn (s : State) (lt : Nat) (x : Arbour) : (s.setArbour lt x).injEn = s.injEn := rfl
@[simp] theorem State.setArbour_lifeDue (s : State) (lt : Nat) (x : Arbour) : (s.setArbour lt x).lifeDue = s.lifeDue := rfl
@[simp] theorem State.setArbour_boot (s : State) (lt : Nat) (x : Arbour) : (s.setArbour lt x).boot = s.boot := rfl
@[simp] theorem State.setArbour_life (s : State) (lt : Nat) (x : Arbour) : (s.setArbour lt x).life = s.life := rfl
@[simp] theorem State.setArbour_ctl (s : State) (lt : Nat) (x : Arbour) : (s.setArbour lt x).ctl = s.ctl := rfl
@[simp] theorem State.setArbour_rnd (s : State) (lt : Nat) (x : Arbour) : (s.setArbour lt x).rnd = s.rnd := rfl
@[simp] theorem State.setArbour_wdog (s : State) (lt : Nat) (x : Arbour) : (s.setArbour lt x).wdog = s.wdog := rfl
@[simp] theorem State.setArbour_wdogWarned (s : State) (lt : Nat) (x : Arbour) : (s.setArbour lt x).wdogWarned = s.wdogWarned := rfl

/-! ### setKsk -/
@[simp] theorem State.setKsk_pending (s : State) (k : Nat) (x : Kiosk) : (s.setKsk k x).pending = s.pending := rfl
@[simp] theorem State.setKsk_free (s : State) (k : Nat) (x : Kiosk) : (s.setKsk k x).free = s.free := rfl
@[simp] theorem State.setKsk_part (s : State) (k : Nat) (x : Kiosk) : (s.setKsk k x).part = s.part := rfl
@[simp] theorem State.setKsk_mode (s : State) (k : Nat) (x : Kiosk) : (s.setKsk k x).mode = s.mode := rfl
@[simp] theorem State.setKsk_time (s : State) (k : Nat) (x : Kiosk) : (s.setKsk k x).time = s.time := rfl
@[simp] theorem State.setKsk_regs (s : State) (k : Nat) (x : Kiosk) : (s.setKsk k x).regs = s.regs := rfl
@[simp] theorem State.setKsk_cores (s : State) (k : Nat) (x : Kiosk) : (s.setKsk k x).cores = s.cores := rfl
@[simp] theorem State.setKsk_tiles (s : State) (k : Nat) (x : Kiosk) : (s.setKsk k x).tiles = s.tiles := rfl
@[simp] theorem State.setKsk_arbours (s : State) (k : Nat) (x : Kiosk) : (s.setKsk k x).arbours = s.arbours := rfl
@[simp] theorem State.setKsk_slices (s : State) (k : Nat) (x : Kiosk) : (s.setKsk k x).slices = s.slices := rfl
@[simp] theorem State.setKsk_homes (s : State) (k : Nat) (x : Kiosk) : (s.setKsk k x).homes = s.homes := rfl
@[simp] theorem State.setKsk_chans (s : State) (k : Nat) (x : Kiosk) : (s.setKsk k x).chans = s.chans := rfl
@[simp] theorem State.setKsk_mem (s : State) (k : Nat) (x : Kiosk) : (s.setKsk k x).mem = s.mem := rfl
@[simp] theorem State.setKsk_memTags (s : State) (k : Nat) (x : Kiosk) : (s.setKsk k x).memTags = s.memTags := rfl
@[simp] theorem State.setKsk_urn (s : State) (k : Nat) (x : Kiosk) : (s.setKsk k x).urn = s.urn := rfl
@[simp] theorem State.setKsk_urnAns (s : State) (k : Nat) (x : Kiosk) : (s.setKsk k x).urnAns = s.urnAns := rfl
@[simp] theorem State.setKsk_tsvLast (s : State) (k : Nat) (x : Kiosk) : (s.setKsk k x).tsvLast = s.tsvLast := rfl
@[simp] theorem State.setKsk_urnSched (s : State) (k : Nat) (x : Kiosk) : (s.setKsk k x).urnSched = s.urnSched := rfl
@[simp] theorem State.setKsk_stateMsgs (s : State) (k : Nat) (x : Kiosk) : (s.setKsk k x).stateMsgs = s.stateMsgs := rfl
@[simp] theorem State.setKsk_tlbis (s : State) (k : Nat) (x : Kiosk) : (s.setKsk k x).tlbis = s.tlbis := rfl
@[simp] theorem State.setKsk_tlbiOuts (s : State) (k : Nat) (x : Kiosk) : (s.setKsk k x).tlbiOuts = s.tlbiOuts := rfl
@[simp] theorem State.setKsk_net (s : State) (k : Nat) (x : Kiosk) : (s.setKsk k x).net = s.net := rfl
@[simp] theorem State.setKsk_nacked (s : State) (k : Nat) (x : Kiosk) : (s.setKsk k x).nacked = s.nacked := rfl
@[simp] theorem State.setKsk_flits (s : State) (k : Nat) (x : Kiosk) : (s.setKsk k x).flits = s.flits := rfl
@[simp] theorem State.setKsk_flitFails (s : State) (k : Nat) (x : Kiosk) : (s.setKsk k x).flitFails = s.flitFails := rfl
@[simp] theorem State.setKsk_meshRx (s : State) (k : Nat) (x : Kiosk) : (s.setKsk k x).meshRx = s.meshRx := rfl
@[simp] theorem State.setKsk_ports (s : State) (k : Nat) (x : Kiosk) : (s.setKsk k x).ports = s.ports := rfl
@[simp] theorem State.setKsk_delivered (s : State) (k : Nat) (x : Kiosk) : (s.setKsk k x).delivered = s.delivered := rfl
@[simp] theorem State.setKsk_flip (s : State) (k : Nat) (x : Kiosk) : (s.setKsk k x).flip = s.flip := rfl
@[simp] theorem State.setKsk_spareTslot (s : State) (k : Nat) (x : Kiosk) : (s.setKsk k x).spareTslot = s.spareTslot := rfl
@[simp] theorem State.setKsk_iommus (s : State) (k : Nat) (x : Kiosk) : (s.setKsk k x).iommus = s.iommus := rfl
@[simp] theorem State.setKsk_io (s : State) (k : Nat) (x : Kiosk) : (s.setKsk k x).io = s.io := rfl
@[simp] theorem State.setKsk_pwr (s : State) (k : Nat) (x : Kiosk) : (s.setKsk k x).pwr = s.pwr := rfl
@[simp] theorem State.setKsk_bootCfg (s : State) (k : Nat) (x : Kiosk) : (s.setKsk k x).bootCfg = s.bootCfg := rfl
@[simp] theorem State.setKsk_out (s : State) (k : Nat) (x : Kiosk) : (s.setKsk k x).out = s.out := rfl
@[simp] theorem State.setKsk_stops (s : State) (k : Nat) (x : Kiosk) : (s.setKsk k x).stops = s.stops := rfl
@[simp] theorem State.setKsk_injEn (s : State) (k : Nat) (x : Kiosk) : (s.setKsk k x).injEn = s.injEn := rfl
@[simp] theorem State.setKsk_lifeDue (s : State) (k : Nat) (x : Kiosk) : (s.setKsk k x).lifeDue = s.lifeDue := rfl
@[simp] theorem State.setKsk_boot (s : State) (k : Nat) (x : Kiosk) : (s.setKsk k x).boot = s.boot := rfl
@[simp] theorem State.setKsk_life (s : State) (k : Nat) (x : Kiosk) : (s.setKsk k x).life = s.life := rfl
@[simp] theorem State.setKsk_ctl (s : State) (k : Nat) (x : Kiosk) : (s.setKsk k x).ctl = s.ctl := rfl
@[simp] theorem State.setKsk_rnd (s : State) (k : Nat) (x : Kiosk) : (s.setKsk k x).rnd = s.rnd := rfl
@[simp] theorem State.setKsk_wdog (s : State) (k : Nat) (x : Kiosk) : (s.setKsk k x).wdog = s.wdog := rfl
@[simp] theorem State.setKsk_wdogWarned (s : State) (k : Nat) (x : Kiosk) : (s.setKsk k x).wdogWarned = s.wdogWarned := rfl

end Sys2Proof.Machine
end

