-- ==== Sys2Proof/Laws/Tables.lean ====
section
/-! SUPPORT. The sparse tables: a read after a write, what a write leaves alone, two writes to one place, and the canonical form. -/
set_option autoImplicit false
namespace Sys2Proof.Machine

section
variable {α : Type}

theorem tget_terase (t : Tbl α) (d : α) (k j : Nat) : tget (terase t k) d j = if j = k then d else tget t d j := by
  induction t with
  | nil => simp [terase, tget]
  | cons p r ih =>
    obtain ⟨i, a⟩ := p
    unfold terase at ih ⊢
    by_cases hik : i = k
    · subst hik
      by_cases hj : j = i
      · subst hj; simpa using ih
      · have : ¬ i = j := fun h => hj h.symm
        simp_all [tget]
    · by_cases hij : i = j
      · subst hij; simp [tget, hik]
      · simp [tget, hik, hij, ih]

theorem tget_tins_ne (t : Tbl α) (d v : α) (k j : Nat) (h : j ≠ k) : tget (tins t k v) d j = tget t d j := by
  have h' : ¬ k = j := fun e => h e.symm
  induction t with
  | nil => simp [tins, tget, h']
  | cons p r ih =>
    obtain ⟨i, a⟩ := p
    by_cases hk : k < i
    · simp [tins, tget, hk, h']
    · simp only [tins, hk, if_false, tget, ih]

theorem tget_tins_same (t : Tbl α) (d v : α) (k : Nat) (h : ∀ p ∈ t, p.1 ≠ k) : tget (tins t k v) d k = v := by
  induction t with
  | nil => simp [tins, tget]
  | cons p r ih =>
    obtain ⟨i, a⟩ := p
    have hi : ¬ i = k := h (i, a) (by simp)
    by_cases hk : k < i
    · simp [tins, tget, hk]
    · simpa [tins, tget, hk, hi] using ih (fun q hq => h q (by simp [hq]))

theorem terase_ne (t : Tbl α) (k : Nat) : ∀ p ∈ terase t k, p.1 ≠ k := by
  intro p hp; simp [terase] at hp; exact hp.2

theorem terase_eq_self (t : Tbl α) (k : Nat) (h : ∀ p ∈ t, p.1 ≠ k) : terase t k = t := by
  simp only [terase, List.filter_eq_self]
  intro p hp; simpa using h p hp

theorem terase_tins (t : Tbl α) (k : Nat) (v : α) : terase (tins t k v) k = terase t k := by
  induction t with
  | nil => simp [terase, tins]
  | cons p r ih =>
    by_cases hk : k < p.1
    · simp [terase, tins, hk]
    · unfold terase at ih ⊢
      by_cases hp : p.1 = k
      · simp [tins, hp, ih]
      · simp [tins, hk, hp, ih]

theorem terase_terase (t : Tbl α) (k : Nat) : terase (terase t k) k = terase t k := terase_eq_self _ _ (terase_ne t k)

end

section
variable {α : Type} [DecidableEq α]

@[simp] theorem tget_tset_same (t : Tbl α) (d v : α) (k : Nat) : tget (tset t d k v) d k = v := by
  unfold tset
  split
  · next h => subst h; simp [tget_terase]
  · exact tget_tins_same _ _ _ _ (terase_ne t k)

theorem tget_tset_ne (t : Tbl α) (d v : α) (k j : Nat) (h : j ≠ k) : tget (tset t d k v) d j = tget t d j := by
  unfold tset
  split
  · simp [tget_terase, h]
  · rw [tget_tins_ne _ _ _ _ _ h, tget_terase]; simp [h]

@[simp] theorem tset_tset (t : Tbl α) (d v w : α) (k : Nat) : tset (tset t d k v) d k w = tset t d k w := by
  have h : terase (tset t d k v) k = terase t k := by
    unfold tset
    split
    · exact terase_terase t k
    · rw [terase_tins, terase_terase]
  unfold tset at h ⊢
  simp only [h]

theorem twf_cons (i : Nat) (a : α) (r : Tbl α) (d : α) :
    twf ((i, a) :: r) d = true ↔ a ≠ d ∧ (∀ p ∈ r, i < p.1) ∧ twf r d = true := by
  simp [twf, and_assoc, List.all_eq_true]

theorem twf_filter (t : Tbl α) (d : α) (f : Nat × α → Bool) (h : twf t d = true) : twf (t.filter f) d = true := by
  induction t with
  | nil => exact h
  | cons p r ih =>
    obtain ⟨i, a⟩ := p
    obtain ⟨h1, h2, h3⟩ := (twf_cons i a r d).mp h
    by_cases hf : f (i, a) = true
    · rw [List.filter_cons_of_pos hf, twf_cons]
      exact ⟨h1, fun q hq => h2 q (List.mem_filter.mp hq).1, ih h3⟩
    · rw [List.filter_cons_of_neg hf]; exact ih h3

omit [DecidableEq α] in
theorem mem_tins (t : Tbl α) (k : Nat) (v : α) (p : Nat × α) (h : p ∈ tins t k v) : p = (k, v) ∨ p ∈ t := by
  induction t with
  | nil => simpa [tins] using h
  | cons q r ih =>
    by_cases hk : k < q.1
    · simpa [tins, hk] using h
    · simp only [tins, hk, if_false, List.mem_cons] at h
      rcases h with h | h
      · exact .inr (by simp [h])
      · rcases ih h with h | h
        · exact .inl h
        · exact .inr (by simp [h])

theorem twf_tins (t : Tbl α) (d v : α) (k : Nat) (hv : v ≠ d) (hk : ∀ p ∈ t, p.1 ≠ k) (h : twf t d = true) :
    twf (tins t k v) d = true := by
  induction t with
  | nil => simp [tins, twf, hv]
  | cons p r ih =>
    obtain ⟨i, a⟩ := p
    obtain ⟨h1, h2, h3⟩ := (twf_cons i a r d).mp h
    have hi : i ≠ k := hk (i, a) (by simp)
    by_cases hlt : k < i
    · simp only [tins, hlt, if_true, twf_cons]
      refine ⟨hv, ?_, h1, h2, h3⟩
      intro q hq
      rcases List.mem_cons.mp hq with hq | hq
      · simpa [hq] using hlt
      · exact Nat.lt_trans hlt (h2 q hq)
    · simp only [tins, hlt, if_false, twf_cons]
      refine ⟨h1, ?_, ih (fun q hq => hk q (by simp [hq])) h3⟩
      intro q hq
      rcases mem_tins r k v q hq with hq | hq
      · subst hq; show i < k; omega
      · exact h2 q hq

/-- A write keeps the canonical form. -/
theorem twf_tset (t : Tbl α) (d v : α) (k : Nat) (h : twf t d = true) : twf (tset t d k v) d = true := by
  unfold tset
  split
  · exact twf_filter t d _ h
  · next hv => exact twf_tins _ d v k hv (terase_ne t k) (twf_filter t d _ h)

end

theorem foldN_zero {α : Type} (f : α → Nat → α) (a : α) : foldN 0 f a = a := rfl
theorem foldN_succ {α : Type} (n : Nat) (f : α → Nat → α) (a : α) : foldN (n + 1) f a = f (foldN n f a) n := by
  simp [foldN, List.range_succ]

/-- A property that every step of a fold keeps is kept by the fold. -/
theorem foldN_keeps {α : Type} (P : α → Prop) (n : Nat) (f : α → Nat → α) (a : α) (h : ∀ x i, P x → P (f x i)) (ha : P a) :
    P (foldN n f a) := by
  induction n with
  | zero => exact ha
  | succ n ih => rw [foldN_succ]; exact h _ _ ih

/-- A property that every step of a fold over a list keeps is kept by the fold. -/
theorem foldl_keeps {α β : Type} (P : α → Prop) (l : List β) (f : α → β → α) (a : α) (h : ∀ x i, P x → P (f x i)) (ha : P a) :
    P (l.foldl f a) := by
  induction l generalizing a with
  | nil => exact ha
  | cons x r ih => exact ih _ (h _ _ ha)

end Sys2Proof.Machine
end

