-- ==== Sys2Proof/Laws/CoreRun.lean ====
section
/-! SUPPORT. What the frame of an instruction does when its core is ready, and what retirement leaves of a core. -/
set_option autoImplicit false
namespace Sys2Proof.Machine

@[simp] theorem State.core_setCore_same (s : State) (lc : Nat) (c : Core) : (s.setCore lc c).core lc = c := by
  simp [State.core, State.setCore]

theorem State.core_setCore_ne (s : State) (lc k : Nat) (c : Core) (h : k ≠ lc) : (s.setCore lc c).core k = s.core k := by
  simp [State.core, State.setCore, tget_tset_ne, h]

@[simp] theorem State.setCore_setCore (s : State) (lc : Nat) (c d : Core) : (s.setCore lc c).setCore lc d = s.setCore lc d := by
  simp [State.setCore]

@[simp] theorem State.setCore_reg (s : State) (lc die unit : Nat) (c : Core) (r : RegDef) (idx : List Nat) :
    (s.setCore lc c).reg die unit r idx = s.reg die unit r idx := rfl
@[simp] theorem State.setCore_fld (s : State) (lc die unit : Nat) (c : Core) (r : RegDef) (idx : List Nat) (f : RField) :
    (s.setCore lc c).fld die unit r idx f = s.fld die unit r idx f := rfl

@[simp] theorem State.setCore_l2Any (s : State) (lc lt line : Nat) (c : Core) : (s.setCore lc c).l2Any lt line = s.l2Any lt line := rfl

@[simp] theorem Core.sysr_setSys_same (c : Core) (n : Nat) (v : BitVec 64) : (c.setSys n v).sysr n = v := by
  simp [Core.sysr, Core.setSys]
theorem Core.sysr_setSys_ne (c : Core) (n k : Nat) (v : BitVec 64) (h : k ≠ n) : (c.setSys n v).sysr k = c.sysr k := by
  unfold Core.sysr Core.setSys
  exact tget_tset_ne c.sys (sysReset k) v n k h

/-- What counting leaves of a core: everything but the counters, s.cntctl and the entries due. -/
def Core.counted (c d : Core) : Prop :=
  d = { c with sys := d.sys, cntDue := d.cntDue } ∧ ∀ n, isCounter n = false → d.sysr n = c.sysr n

theorem Core.counted_refl (c : Core) : c.counted c := ⟨rfl, fun _ _ => rfl⟩
theorem Core.counted_trans {a b c : Core} (h : a.counted b) (k : b.counted c) : a.counted c := by
  refine ⟨?_, fun n hn => (k.2 n hn).trans (h.2 n hn)⟩
  have h1 := h.1; have k1 := k.1
  rw [k1, h1]

theorem Core.cntBump_counted (c : Core) (j k : Nat) (hj : j ≤ 10) : c.counted (c.cntBump j k) := by
  have key : ∀ n v, isCounter n = true → c.counted (c.setSys n v) := by
    intro n v hn
    refine ⟨rfl, fun m hm => c.sysr_setSys_ne n m v (fun e => ?_)⟩
    rw [e, hn] at hm; exact Bool.noConfusion hm
  have hn : isCounter (0x040 + j) = true := by simp [isCounter, within]; omega
  have key2 : ∀ (d : Core) v, c.counted d → c.counted (d.setSys 0x058 v) := by
    intro d v h
    refine c.counted_trans h ⟨rfl, fun m hm => d.sysr_setSys_ne _ m v (fun e => ?_)⟩
    rw [e] at hm; exact Bool.noConfusion hm
  unfold Core.cntBump
  simp only
  split
  · exact key _ _ hn
  · split
    · exact c.counted_trans (key2 _ _ (key _ _ hn)) ⟨rfl, fun _ _ => rfl⟩
    · exact key2 _ _ (key _ _ hn)

theorem Core.countEv_counted (c : Core) (pl : Nat) (w : Bool) (code : Nat) : c.counted (c.countEv pl w code) := by
  unfold Core.countEv
  simp only
  have h1 : c.counted (foldN 8 (fun (c : Core) j =>
      if c.cntOn j pl w && field (c.sysr (0x050 + j)) 0 12 == code && code != 0 then c.cntBump j 1 else c) c) := by
    have : ∀ n, n ≤ 8 → c.counted (foldN n (fun (c : Core) j =>
        if c.cntOn j pl w && field (c.sysr (0x050 + j)) 0 12 == code && code != 0 then c.cntBump j 1 else c) c) := by
      intro n
      induction n with
      | zero => intro _; exact c.counted_refl
      | succ n ih =>
        intro hn
        rw [foldN_succ]
        split
        · exact Core.counted_trans (ih (by omega)) (Core.cntBump_counted _ _ _ (by omega))
        · exact ih (by omega)
    exact this 8 (Nat.le_refl 8)
  split
  · exact Core.counted_trans h1 (Core.cntBump_counted _ _ _ (by omega))
  · exact h1

theorem Core.countEvs_counted (c : Core) (pl : Nat) (w : Bool) (codes : List Nat) : c.counted (c.countEvs pl w codes) := by
  unfold Core.countEvs
  exact foldl_keeps (fun d => c.counted d) codes _ c (fun d k h => Core.counted_trans h (d.countEv_counted pl w k)) c.counted_refl

/-- Retirement keeps every field of a core but the L1I, the counters and the events in progress. -/
theorem Core.retired_shape (c pre : Core) (line : Nat) :
    ∃ sys due, c.retired pre line =
        { c with l1i := (c.l1iUse line).l1i, l1iTree := (c.l1iUse line).l1iTree, evs := [], far := [], wrote := [], sys := sys, cntDue := due } ∧
      ∀ n, isCounter n = false → (c.retired pre line).sysr n = c.sysr n := by
  have hu : c.l1iUse line = { c with l1i := (c.l1iUse line).l1i, l1iTree := (c.l1iUse line).l1iTree } := rfl
  have hk : ({ c with l1i := (c.l1iUse line).l1i, l1iTree := (c.l1iUse line).l1iTree, evs := [], far := [], wrote := [] } : Core).counted
      (c.retired pre line) := by
    unfold Core.retired Core.countRetired
    rw [hu]
    exact Core.countEvs_counted _ _ _ _
  exact ⟨_, _, hk.1, hk.2⟩

/-- An instruction of a ready core that only changes its core. -/
theorem runCore_ready (s : State) (lc line : Nat) (f : Core → CoreRes) (c : Core) (h : s.ready lc line) (hf : f (s.core lc) = .ok c)
    (h1 : c.flips = []) (h2 : c.shelf = []) (h3 : c.cntDue = []) (h4 : c.walled = (s.core lc).walled) :
    runCore lc f s = .next (s.after lc line c) := by
  obtain ⟨r1, r2, r3, r4, r5, r6, r7, r8⟩ := h
  have hc : ({ c.l1iUse line with cntDue := [] } : Core) = c.l1iUse line := by
    have : (c.l1iUse line).cntDue = [] := h3
    rw [← this]
  obtain ⟨y, d, e, _⟩ := Core.retired_shape c (s.core lc) line
  have hs : (c.retired (s.core lc) line).shelf = [] := by rw [e]; exact h2
  have hi : (s.setCore lc c).regInject lc (s.core lc) = s.setCore lc c := by
    simp [State.regInject, h1, r7]
  have hs' : ((c.l1iUse line).countRetired (s.core lc).pl (s.core lc).walled).shelf = [] := hs
  have hd : (c.l1iUse line).cntDue = [] := h3
  have hn : (s.l2Any (lcTile lc) line).isNone = false := by
    cases hl : s.l2Any (lcTile lc) line <;> simp [hl] at r3 ⊢
  simp only [runCore, State.runInstr, r1, r2, r4, r8, hf, State.retire, State.retireFetch, State.shelfInstall, State.pushDue,
    State.shelfClear, State.core_setCore_same, h4, h2, hd, hc, hn, List.find?_nil, List.foldl_nil, State.setCore_setCore, hs', hi,
    State.setCore_l2Any, Bool.not_true, Bool.false_eq_true, if_false, if_true, ne_eq, not_true_eq_false, List.isEmpty_nil]
  rfl

/-- An instruction of a ready core that raises an exception, a call apart. -/
theorem runCore_ready_exc (s : State) (lc line : Nat) (f : Core → CoreRes) (e : Exc) (h : s.ready lc line) (hf : f (s.core lc) = .error e)
    (he : e.isCall = false) : runCore lc f s = .next (s.takeExc lc e (s.core lc).pc) := by
  obtain ⟨r1, r2, _, r4, _, _, _, r8⟩ := h
  simp [runCore, State.runInstr, r1, r2, r4, r8, hf, he]

@[simp] theorem Core.walled_setG (c : Core) (r : BitVec 5) (w : Word) : (c.setG r w).walled = c.walled := by simp [Core.walled, Core.sysr]
@[simp] theorem Core.walled_setP (c : Core) (n : BitVec 3) (x : BitVec 8) (z : BitVec 3) : (c.setP n x z).walled = c.walled := by
  simp [Core.walled, Core.sysr]
@[simp] theorem Core.walled_advance (c : Core) : c.advance.walled = c.walled := rfl

/-- An instruction of a ready core that writes one general register and falls through. -/
theorem runCore_finish (s : State) (lc line : Nat) (f : Core → CoreRes) (rd : BitVec 5) (w : Word) (h : s.ready lc line)
    (hf : f (s.core lc) = .ok ((s.core lc).finish rd w)) : runCore lc f s = .next (s.after lc line ((s.core lc).finish rd w)) :=
  runCore_ready s lc line f _ h hf (by simp [Core.finish, h.2.2.2.1]) (by simp [Core.finish, h.2.2.2.2.1]) (by simp [Core.finish, h.2.2.2.2.2.1])
    (by simp [Core.finish])

/-- An instruction of a ready core that writes one predicate and falls through. -/
theorem runCore_finishP (s : State) (lc line : Nat) (f : Core → CoreRes) (n : BitVec 3) (x : BitVec 8) (z : BitVec 3) (h : s.ready lc line)
    (hf : f (s.core lc) = .ok ((s.core lc).finishP n x z)) : runCore lc f s = .next (s.after lc line ((s.core lc).finishP n x z)) :=
  runCore_ready s lc line f _ h hf (by simp [Core.finishP, h.2.2.2.1]) (by simp [Core.finishP, h.2.2.2.2.1])
    (by simp [Core.finishP, h.2.2.2.2.2.1]) (by simp [Core.finishP])

/-- The body of a ready core's instruction is what the frame runs. -/
theorem runInstr_ready (s t : State) (lc line : Nat) (body : State → MRes Bool) (b : Bool) (h : s.ready lc line) (hb : body s = (.ok b, t)) :
    s.runInstr lc body = t.ran lc line (s.core lc) b := by
  obtain ⟨r1, r2, _, r4, _, _, _, r8⟩ := h
  simp [State.runInstr, r1, r2, r4, r8, hb, State.ran]

/-- A ready core's instruction whose body raises an exception, a call apart. -/
theorem runInstr_ready_exc (s t : State) (lc line : Nat) (body : State → MRes Bool) (e : Exc) (h : s.ready lc line)
    (hb : body s = (.error (.exc e), t)) (he : e.isCall = false) : s.runInstr lc body = t.takeExc lc e (s.core lc).pc := by
  obtain ⟨r1, r2, _, r4, _, _, _, r8⟩ := h
  simp [State.runInstr, r1, r2, r4, r8, hb, he]

end Sys2Proof.Machine
end

