-- ==== Sys2Proof/Laws/Decode.lean ====
section
/-! SUPPORT. What the decoder of Ecyen-72 refuses by class. -/
set_option autoImplicit false
namespace Sys2Proof

/-- R105: a word of a class without a format spells no instruction. -/
theorem decodeEcyen_none (lc : Nat) (w : BitVec 32) (h : classFormats (wordClass w) = []) : decodeEcyen lc w = none := by
  unfold decodeEcyen
  split <;> simp_all [classFormats]

end Sys2Proof
end

