-- ==== Sys2Proof/Laws/Memory.lean ====
section
/-! SUPPORT. The stored words of DRAM: a read after a write, what a write leaves alone, and the canonical form of memory, which every
memory operation keeps. -/
set_option autoImplicit false
namespace Sys2Proof.Machine

/-! ## Bytes -/

@[simp] theorem memByte_set_same (m : List Host.Cell) (a : Nat) (b : BitVec 8) : memByte (memSetByte m a b) a = b :=
  tget_tset_same m 0 b a

theorem memByte_set_ne (m : List Host.Cell) (a c : Nat) (b : BitVec 8) (h : c ≠ a) : memByte (memSetByte m a b) c = memByte m c :=
  tget_tset_ne m 0 b a c h

theorem memSetByte_wf (m : List Host.Cell) (a : Nat) (b : BitVec 8) (h : Memory.wf m = true) : Memory.wf (memSetByte m a b) = true :=
  twf_tset m 0 b a h

theorem memSetVal_wf (m : List Host.Cell) (a : Nat) (v : BitVec 64) (h : Memory.wf m = true) : Memory.wf (memSetVal m a v) = true :=
  foldN_keeps (fun m => Memory.wf m = true) 8 _ m (fun x _ hx => memSetByte_wf x _ _ hx) h

theorem memByte_setVal (m : List Host.Cell) (a c : Nat) (v : BitVec 64) :
    memByte (memSetVal m a v) c = if a ≤ c ∧ c < a + 8 then BitVec.ofNat 8 (v.toNat >>> (8 * (c - a))) else memByte m c := by
  have step : ∀ n, memByte (foldN n (fun m i => memSetByte m (a + i) (BitVec.ofNat 8 (v.toNat >>> (8 * i)))) m) c =
      if a ≤ c ∧ c < a + n then BitVec.ofNat 8 (v.toNat >>> (8 * (c - a))) else memByte m c := by
    intro n
    induction n with
    | zero => rw [foldN_zero, if_neg (by omega)]
    | succ n ih =>
      rw [foldN_succ]
      by_cases hc : c = a + n
      · subst hc; rw [memByte_set_same, if_pos (by omega), Nat.add_sub_cancel_left]
      · rw [memByte_set_ne _ _ _ _ hc, ih]
        by_cases h : a ≤ c ∧ c < a + n
        · rw [if_pos h, if_pos (by omega)]
        · rw [if_neg h, if_neg (by omega)]
  exact step 8

theorem memVal_set_same (m : List Host.Cell) (a : Nat) (v : BitVec 64) : memVal (memSetVal m a v) a = v := by
  unfold memVal
  simp only [foldN_succ, foldN_zero, memByte_setVal, v64]
  simp only [Nat.le_add_right, Nat.add_lt_add_iff_left, Nat.reduceLT, and_self, if_true, Nat.add_sub_cancel_left, BitVec.toNat_ofNat,
    Nat.shiftRight_eq_div_pow, Nat.add_zero, Nat.le_refl, Nat.lt_add_right_iff_pos, Nat.sub_self]
  apply BitVec.eq_of_toNat_eq
  have := v.isLt
  simp only [BitVec.toNat_ofNat]
  omega

theorem memVal_set_other (m : List Host.Cell) (a c : Nat) (v : BitVec 64) (h : c + 8 ≤ a ∨ a + 8 ≤ c) :
    memVal (memSetVal m a v) c = memVal m c := by
  unfold memVal
  simp only [foldN_succ, foldN_zero, memByte_setVal]
  simp only [show ∀ i, i < 8 → (¬ (a ≤ c + i ∧ c + i < a + 8)) from fun i hi => by omega, Nat.reduceLT, if_false]

/-! ## Words -/

theorem dramWord_set_same (s : State) (ch l w : Nat) (x : Word) : (s.setDramWord ch l w x).dramWord ch l w = x := by
  simp [State.dramWord, State.setDramWord, memVal_set_same]

theorem dramKey_far (ch l w ch' l' w' : Nat) (hl : l < 2 ^ 32) (hl' : l' < 2 ^ 32) (hw : w < 16) (hw' : w' < 16)
    (h : (ch', l', w') ≠ (ch, l, w)) : dramKey ch' l' w' + 8 ≤ dramKey ch l w ∨ dramKey ch l w + 8 ≤ dramKey ch' l' w' := by
  have hn : ch' ≠ ch ∨ l' ≠ l ∨ w' ≠ w := by
    by_cases h1 : ch' = ch
    · by_cases h2 : l' = l
      · exact .inr (.inr (fun h3 => h (by rw [h1, h2, h3])))
      · exact .inr (.inl h2)
    · exact .inl h1
  unfold dramKey
  omega

theorem dramTagKey_ne (ch l w ch' l' w' : Nat) (hl : l < 2 ^ 32) (hl' : l' < 2 ^ 32) (hw : w < 16) (hw' : w' < 16)
    (h : (ch', l', w') ≠ (ch, l, w)) : dramTagKey ch' l' w' ≠ dramTagKey ch l w := by
  have hn : ch' ≠ ch ∨ l' ≠ l ∨ w' ≠ w := by
    by_cases h1 : ch' = ch
    · by_cases h2 : l' = l
      · exact .inr (.inr (fun h3 => h (by rw [h1, h2, h3])))
      · exact .inr (.inl h2)
    · exact .inl h1
  unfold dramTagKey
  omega

theorem dramWord_set_other (s : State) (ch l w ch' l' w' : Nat) (x : Word) (hl : l < 2 ^ 32) (hl' : l' < 2 ^ 32) (hw : w < 16)
    (hw' : w' < 16) (h : (ch', l', w') ≠ (ch, l, w)) : (s.setDramWord ch l w x).dramWord ch' l' w' = s.dramWord ch' l' w' := by
  have h1 := memVal_set_other s.mem (dramKey ch l w) (dramKey ch' l' w') x.val (dramKey_far ch l w ch' l' w' hl hl' hw hw' h)
  have h2 := memByte_set_ne s.memTags (dramTagKey ch l w) (dramTagKey ch' l' w') x.tag (dramTagKey_ne ch l w ch' l' w' hl hl' hw hw' h)
  simp [State.dramWord, State.setDramWord, h1, h2]

/-! ## Canonical form -/

theorem setDramWord_memWf (s : State) (ch l w : Nat) (x : Word) (h : s.memWf = true) : (s.setDramWord ch l w x).memWf = true := by
  simp only [State.memWf, State.setDramWord, Bool.and_eq_true] at h ⊢
  exact ⟨memSetVal_wf _ _ _ h.1, memSetByte_wf _ _ _ h.2⟩

theorem setDramLine_memWf (s : State) (ch l : Nat) (ws : List Word) (h : s.memWf = true) : (s.setDramLine ch l ws).memWf = true :=
  foldN_keeps (fun s => State.memWf s = true) 16 _ s (fun x i hx => setDramWord_memWf x ch l i _ hx) h

theorem reset_memWf : State.reset.memWf = true := rfl

end Sys2Proof.Machine
end

