-- ==== Sys2Proof/Laws/Release.lean ====
section
/-! SUPPORT. What the release buffer's operations can do: when they refuse, and that they change nothing but the arbours and registers. -/
set_option autoImplicit false
namespace Sys2Proof.Machine

/-- Two states that differ in nothing but their arbours and control-space registers. -/
def State.arbOnly (s t : State) : Prop := t = { s with arbours := t.arbours, regs := t.regs }

theorem State.arbOnly_refl (s : State) : s.arbOnly s := rfl
theorem State.arbOnly_trans {s t u : State} (h : s.arbOnly t) (k : t.arbOnly u) : s.arbOnly u := by
  have h1 : t = { s with arbours := t.arbours, regs := t.regs } := h
  have k1 : u = { t with arbours := u.arbours, regs := u.regs } := k
  unfold State.arbOnly
  rw [k1, h1]

theorem State.arbOnly_setFld (s : State) (die unit : Nat) (r : RegDef) (idx : List Nat) (f : RField) (x : Nat) :
    s.arbOnly (s.setFld die unit r idx f x) := rfl
theorem State.arbOnly_addFld (s : State) (die unit : Nat) (r : RegDef) (idx : List Nat) (f : RField) (x : Nat) :
    s.arbOnly (s.addFld die unit r idx f x) := rfl
theorem State.arbOnly_putArbour (s : State) (lt : Nat) (a : Arbour) : s.arbOnly (s.putArbour lt a) := rfl

/-- R255: outside safe mode a transaction passes at once, and nothing changes. -/
theorem State.rbEnter_split (s : State) (lt : Nat) (e : RbEnt) (h : s.safeMode lt = false) : s.rbEnter lt e = (true, s) := by
  simp [State.rbEnter, h]

/-- R256: a transaction is refused exactly in safe mode, when it is new, no snoop's answer, and the 44 entries are full. -/
theorem State.rbEnter_refused (s : State) (lt : Nat) (e : RbEnt) :
    (s.rbEnter lt e).1 = false ↔
      s.safeMode lt = true ∧ (s.arbour lt).rb.contains e = false ∧ (s.arbour lt).full = true ∧ e.kind ≠ .snoop := by
  unfold State.rbEnter
  simp only
  split
  · rename_i h; cases hs : s.safeMode lt <;> simp_all
  · split <;> simp_all

theorem State.rbEnter_only (s : State) (lt : Nat) (e : RbEnt) : s.arbOnly (s.rbEnter lt e).2 := by
  unfold State.rbEnter
  simp only
  split
  · exact s.arbOnly_refl
  · split
    · exact s.arbOnly_addFld _ _ _ _ _ _
    · exact s.arbOnly_putArbour _ _

theorem State.rbLeave_only (s : State) (lt : Nat) (e : RbEnt) : s.arbOnly (s.rbLeave lt e) := by
  unfold State.rbLeave
  simp only
  split
  · exact s.arbOnly_putArbour _ _
  · exact s.arbOnly_refl

theorem State.rbPass_only (s : State) (lt : Nat) (e : RbEnt) : s.arbOnly (s.rbPass lt e).2 := by
  have h := s.rbEnter_only lt e
  unfold State.rbPass
  split
  · rename_i t ht; rw [ht] at h; exact h
  · rename_i t ht; rw [ht] at h; exact State.arbOnly_trans h (t.rbLeave_only lt e)

theorem State.logClear_only (s : State) (lt : Nat) : s.arbOnly (s.logClear lt) := by
  unfold State.logClear
  simp only
  split
  · exact s.arbOnly_refl
  · exact s.arbOnly_putArbour _ _

theorem State.rbDiscard_only (s : State) (lt : Nat) (log : Bool) : s.arbOnly (s.rbDiscard lt log) := by
  unfold State.rbDiscard
  simp only
  split
  · exact s.arbOnly_refl
  · exact s.arbOnly_putArbour _ _

end Sys2Proof.Machine
end

