-- ==== Sys2Proof/Tests/Slice0.lean ====
section
/-! SUPPORT. The smoke test of WellFormed, small states, witnesses for the hypotheses of the statements, and a few single steps
whose results the spec's own examples and tables give. -/
set_option autoImplicit false
namespace Sys2Proof.Tests
-- The witnesses are checked one after another, so that their evaluations do not hold memory together.
set_option Elab.async false
open Sys2Proof.Machine

/-! One ill-formed term for each check of WellFormed, beside a well-formed neighbour. -/

/-- An Open initiator for the terms below. -/
def who : CtlWho := ⟨0, 0, false⟩
/-- A message with nothing wrong. -/
def msg0 : Msg := { kind := .rdS, src := .tile 255, dst := .home 1, line := 2 ^ 45 - 1, walled := false, pl3 := false, retried := false, nc := false, dirty := false, grant := .none, mask := 2 ^ 128 - 1, data := [], core := some 511, refused := .rdS }
/-- A flit of four words. -/
def flit0 : Flit := { header := 0, payload := [Word.zero, Word.zero, Word.zero, Word.zero] }

theorem test_wf_core : Instr.wf (.queueAnswer 511) = true ∧ Instr.wf (.queueAnswer 512) = false := by decide
theorem test_wf_tile : Instr.wf (.maskDone 255) = true ∧ Instr.wf (.maskDone 256) = false := by decide
theorem test_wf_kiosk : Instr.wf (.kioskReset 511) = true ∧ Instr.wf (.kioskReset 512) = false := by decide
theorem test_wf_context : Instr.wf (.go 0 3) = true ∧ Instr.wf (.go 0 4) = false ∧ Instr.wf (.kioskWake 0 5) = false := by decide
theorem test_wf_unit : Instr.wf (.longOperationComplete 0 2) = true ∧ Instr.wf (.longOperationComplete 0 3) = false := by decide
theorem test_wf_timer : Instr.wf (.timerFire 0 2) = true ∧ Instr.wf (.timerFire 0 0) = false ∧ Instr.wf (.timerFire 0 3) = false := by decide
theorem test_wf_chan : Instr.wf (.granuleInit 15) = true ∧ Instr.wf (.granuleInit 16) = false := by decide
theorem test_wf_chan_line : Instr.wf (.channelRead 0 (2 ^ 32 - 1) [] [] false) = true ∧ Instr.wf (.channelRead 0 (2 ^ 32) [] [] false) = false := by
  decide
theorem test_wf_line_words : Instr.wf (.channelWrite 0 0 [] 0 false) = true ∧ Instr.wf (.channelWrite 0 0 [Word.zero] 0 false) = false ∧
    Instr.wf (.channelWrite 0 0 [] (2 ^ 128) false) = false := by decide
theorem test_wf_line : Instr.wf (.cxlTimeout (2 ^ 45 - 1)) = true ∧ Instr.wf (.cxlTimeout (2 ^ 45)) = false := by decide
theorem test_wf_die : Instr.wf (.poll 9 63) = true ∧ Instr.wf (.poll 10 0) = false ∧ Instr.wf (.poll 0 64) = false := by decide
theorem test_wf_node : Instr.wf (.snapDone 0 1023 false) = true ∧ Instr.wf (.snapDone 0 1024 false) = false := by decide
theorem test_wf_offset : Instr.wf (.registerRead who (2 ^ 36 - 8) 8 0) = true ∧ Instr.wf (.registerRead who (2 ^ 36) 8 0) = false := by decide
theorem test_wf_bwr : Instr.wf (.bwr 0 0 (2 ^ 22 - 8) 0) = true ∧ Instr.wf (.bwr 0 0 (2 ^ 22) 0) = false := by decide
theorem test_wf_queue : Instr.wf (.queueDisable 65535) = true ∧ Instr.wf (.queueDisable 65536) = false := by decide
theorem test_wf_entry : Instr.wf (.urnPush .hardware 0 (List.replicate 8 Word.zero) false false) = true ∧
    Instr.wf (.urnPush .hardware 0 (List.replicate 9 Word.zero) false false) = false := by decide
theorem test_wf_queue_who : Instr.wf (.urnWait (.core 512) 0) = false ∧ Instr.wf (.urnWait (.kiosk 0 4) 0) = false ∧
    Instr.wf (.urnWait (.function 65536) 0) = false ∧ Instr.wf (.urnWait .hardware 0) = true := by decide
theorem test_wf_rid : Instr.wf (.flr 65535) = true ∧ Instr.wf (.flr 65536) = false := by decide
theorem test_wf_port : Instr.wf (.slotControlWrite 39 0) = true ∧ Instr.wf (.slotControlWrite 40 0) = false := by decide
theorem test_wf_half : Instr.wf (.holdExpiry 1) = true ∧ Instr.wf (.holdExpiry 2) = false ∧ Instr.wf (.sync 2) = false := by decide
theorem test_wf_link : Instr.wf (.linkDown 5) = true ∧ Instr.wf (.linkDown 6) = false ∧ Instr.wf (.footbridgeLinkTrained 0 8 0 0 true) = false ∧
    Instr.wf (.footbridgeLinkTrained 0 0 6 0 true) = false := by decide
theorem test_wf_way : Instr.wf (.wayFlushDone 0 15 false) = true ∧ Instr.wf (.wayFlushDone 0 16 false) = false := by decide
theorem test_wf_pin : Instr.wf (.gpioInputChange 31 true) = true ∧ Instr.wf (.gpioInputChange 32 true) = false := by decide
theorem test_wf_rank : Instr.wf (.zqCalibration 0 7) = true ∧ Instr.wf (.zqCalibration 0 8) = false ∧
    Instr.wf (.dimmTemperatureRead 0 2 0) = false := by decide
theorem test_wf_range : Instr.wf (.memRangeWrite 3 0) = true ∧ Instr.wf (.memRangeWrite 4 0) = false ∧ Instr.wf (.wwRangeWrite who 16 0) = false := by
  decide
theorem test_wf_domain : Instr.wf (.wake 1023) = true ∧ Instr.wf (.wake 1024) = false := by decide
theorem test_wf_bytes : Instr.wf (.challenge 0 [255]) = true ∧ Instr.wf (.challenge 0 [256]) = false ∧ Instr.wf (.getMeasurements 256 [] false) = false ∧
    Instr.wf (.vendorDefinedRequest [256] [] 0 0) = false := by decide
theorem test_wf_slot : Instr.wf (.measurementExtend who 15) = true ∧ Instr.wf (.measurementExtend who 16) = false ∧ Instr.wf (.withdraw 64) = false := by
  decide
theorem test_wf_bus_address : Instr.wf (.entdaa 127) = true ∧ Instr.wf (.entdaa 128) = false ∧ Instr.wf (.setdasa 128 0) = false := by decide
theorem test_wf_initiator : Instr.wf (.m7Req ⟨15, 65535, true⟩) = true ∧ Instr.wf (.m7Req ⟨16, 0, true⟩) = false ∧ Instr.wf (.m7Req ⟨0, 65536, true⟩) = false ∧
    Instr.wf (.maint (some ⟨16, 0, true⟩)) = false := by decide
theorem test_wf_message : Instr.wf (.rds msg0 []) = true ∧ Instr.wf (.rds { msg0 with src := .tile 256 } []) = false ∧
    Instr.wf (.rds { msg0 with dst := .socket 8 } []) = false ∧ Instr.wf (.rds { msg0 with line := 2 ^ 45 } []) = false ∧
    Instr.wf (.rds { msg0 with mask := 2 ^ 128 } []) = false ∧ Instr.wf (.rds { msg0 with data := [Word.zero] } []) = false ∧
    Instr.wf (.rds { msg0 with core := some 512 } []) = false := by decide
theorem test_wf_agent : Instr.wf (.coherenceTimeout (.llc 256) 0) = false ∧ Instr.wf (.coherenceTimeout (.home 2) 0) = false ∧
    Instr.wf (.coherenceTimeout (.iommu 2) 0) = false ∧ Instr.wf (.coherenceTimeout (.nca 9) 0) = true := by decide
theorem test_wf_cache_error : Instr.wf (.rds msg0 [⟨.l2, 0, 32767, 16, true⟩]) = true ∧ Instr.wf (.rds msg0 [⟨.l2, 256, 0, 0, true⟩]) = false ∧
    Instr.wf (.rds msg0 [⟨.l2, 0, 32768, 0, true⟩]) = false ∧ Instr.wf (.rds msg0 [⟨.l2, 0, 0, 17, true⟩]) = false := by decide
theorem test_wf_mismatch : Instr.wf (.mismatch 0 ⟨false, 0, false, [2 ^ 45 - 1], false⟩) = true ∧
    Instr.wf (.mismatch 0 ⟨false, 0, false, [2 ^ 45], false⟩) = false := by decide
theorem test_wf_flit : Instr.wf (.flitReceive 0 0 0 flit0 0 none) = true ∧ Instr.wf (.flitReceive 0 0 0 { flit0 with payload := [] } 0 none) = false ∧
    Instr.wf (.flitReceive 0 0 8 flit0 0 none) = false ∧ Instr.wf (.heldPacket 0 [{ flit0 with payload := [] }] false false) = false := by decide
theorem test_wf_route : Instr.wf (.meshRouteWrite 0 1 true 3 0) = true ∧ Instr.wf (.meshRouteWrite 0 2 true 0 0) = false ∧
    Instr.wf (.meshRouteWrite 0 0 true 4 0) = false := by decide
theorem test_wf_tlp : Instr.wf (.tlpMemoryRequest ⟨39, 0, none, 0, true, 9, [0, 0], false⟩) = true ∧
    Instr.wf (.tlpMemoryRequest ⟨39, 0, none, 0, true, 9, [0], false⟩) = false ∧ Instr.wf (.tlpMemoryRequest ⟨39, 0, none, 0, false, 9, [0], false⟩) = false ∧
    Instr.wf (.tlpMemoryRequest ⟨39, 0, none, 0, false, 4097, [], false⟩) = false ∧
    Instr.wf (.tlpMemoryRequest ⟨39, 0, none, 2 ^ 64, false, 8, [], false⟩) = false := by decide
theorem test_wf_config : Instr.wf (.configurationRequest 0 1023 none 15 false) = true ∧ Instr.wf (.configurationRequest 0 1024 none 15 false) = false ∧
    Instr.wf (.configurationRequest 0 0 none 16 false) = false := by decide
theorem test_wf_io : Instr.wf (.pcieMessage 0 0 3) = false ∧ Instr.wf (.hotPlugFrame 10 0) = false ∧ Instr.wf (.invalidateRequest 16 none none) = false ∧
    Instr.wf (.msi 0 0 (2 ^ 21) 0 true) = false ∧ Instr.wf (.chainFrame 8 true) = false := by decide
theorem test_wf_spd : Instr.wf (.trainingComplete 0 [⟨2, false, true, 16, 1, 6400, 0⟩] true) = true ∧
    Instr.wf (.trainingComplete 0 [⟨3, false, true, 16, 1, 6400, 0⟩] true) = false := by decide
theorem test_wf_test_unit : Instr.wf (.testResult (.tile 271) false false true false true) = true ∧
    Instr.wf (.testResult (.tile 272) false false true false true) = false ∧ Instr.wf (.testResult (.node 16384) false false true false true) = false := by
  decide

/-! Small states of a core. -/

/-- A clean line of zero words, as the tile of a core in that world holds it. -/
def lineOf (n : Nat) (st : LineState) (walled : Bool) (data : List Word) : CacheLine :=
  { line := n, st := st, walled := walled, pres := 0, excl := false, data := data, bad := [] }
/-- The words of the data line of the tests: data 0x1122334455667788, poison 5, pointer, system, data of colour 3, zeros. -/
def words : List Word :=
  [Word.data 0x1122334455667788, Word.poison 5, Word.pointer 0x0400000000001234, Word.system 77 1, ⟨0x99, 0x03⟩] ++ List.replicate 11 Word.zero
/-- A line whose words spell ADDI g5, g0, 3 over and over (Table 4-10: class 0x2, OP 0x00). -/
def code : List Word := List.replicate 16 (Word.data 0x200A0003200A0003)
/-- Core 0 at address 0x1000, with the line of its PC and the data line in its L1 caches: g1 = 5, g2 = 3, g3 poison 4, g4 a pointer, g5 system, g6 the least integer, g7 = -1, g8 the
address of the data line, g9 an odd address. -/
def core (st : BitVec 64) : Core :=
  { Core.reset with
    started := true, pc := 0x1000, sys := [(0, st)], l1i := [(256, 32)], l1d := [(252, 64)],
    g := [(1, Word.data 5), (2, Word.data 3), (3, Word.poison 4), (4, Word.pointer 0x0C00000000002000), (5, Word.system 9 1),
      (6, Word.data 0x8000000000000000), (7, Word.data 0xFFFFFFFFFFFFFFFF), (8, Word.data 0x2000), (9, Word.data 0x2001)],
    p := [(1, 0xFF), (2, 0x01), (3, 0x02)], pz := [(4, 3)],
    v := [(8, Word.data 5), (9, Word.poison 2), (10, Word.pointer 16), (11, Word.system 9 1), (16, Word.data 3), (17, Word.data 4), (18, Word.data 8)] }
/-- Core c runs in M5, and its tile holds the line of its PC and the data line, which it owns. -/
def run (c : Core) : State :=
  { State.reset with
    mode := .m5, cores := [(0, c)],
    tiles := [(0, { TileCache.reset with l2 := [(16 * 32, lineOf 32 .e c.walled code), (16 * 64, lineOf 64 .m c.walled words)] })] }
/-- PL3 in the Walled world, and Open PL2, PL1 and PL0. -/
def s3 : State := run (core 7)
def s2 : State := run (core 2)
def s1 : State := run (core 1)
def s0 : State := run (core 0)

/-! Witnesses for the hypotheses of the statements: for each statement, concrete states and operands that meet the hypotheses of each of
its clauses together. -/

/-- State.ready and State.plain but for the fetch and the translation. -/
def readyB (s : State) (lc line : Nat) : Bool :=
  s.coreRuns lc && (s.irqNow lc).isNone && (s.l2Any (lcTile lc) line).isSome && (s.core lc).flips.isEmpty && (s.core lc).shelf.isEmpty &&
    (s.core lc).cntDue.isEmpty && s.fld (ltDie (lcTile lc)) (ltIdx (lcTile lc)) ERB_INJ_STATUS [] ERB_INJ_STATUS_REMAIN == 0
theorem ready_of {s : State} {lc line : Nat} (h : readyB s lc line = true) (f : s.fetchInstr lc = (.ok line, s)) : s.ready lc line := by
  simp only [readyB, Bool.and_eq_true, Option.isNone_iff_eq_none, List.isEmpty_iff, beq_iff_eq] at h
  exact ⟨h.1.1.1.1.1.1, h.1.1.1.1.1.2, h.1.1.1.1.2, h.1.1.1.2, h.1.1.2, h.1.2, h.2, f⟩
def plainB (s : State) (lc : Nat) (va : BitVec 64) (size pa : Nat) : Bool :=
  decide (vaLow va % 2 ^ 14 + size ≤ 2 ^ 14) && decide (pa % 128 + size ≤ 128) && !s.openRefused lc (128 * (pa / 128)) && !(s.core lc).tagEn
theorem plain_of {s : State} {lc : Nat} {w : Bool} {va : BitVec 64} {size pa : Nat} {ws : List Word} (h : plainB s lc va size pa = true)
    (t : s.translate lc { fetch := false, write := w } va = (.ok ⟨pa, false, false, 0⟩, s)) (l : s.coreLine lc (pa / 128) .data = (some ws, s)) :
    s.plain lc w va size pa ws := by
  simp only [plainB, Bool.and_eq_true, decide_eq_true_eq, Bool.not_eq_true'] at h
  exact ⟨h.1.1.1, h.1.1.2, ⟨_, _, t⟩, h.1.2, l, h.2⟩

theorem test_ready_s0 : s0.ready 0 32 := ready_of (by decide +kernel) rfl
theorem test_ready_s1 : s1.ready 0 32 := ready_of (by decide +kernel) rfl
theorem test_ready_s2 : s2.ready 0 32 := ready_of (by decide +kernel) rfl
theorem test_ready_s3 : s3.ready 0 32 := ready_of (by decide +kernel) rfl
/-- A read and a write of the data line from each world. -/
theorem test_plain_s0 (w : Bool) : s0.plain 0 w 0x2000 8 0x2000 words := by
  cases w <;> exact plain_of (by decide +kernel) rfl rfl
theorem test_plain_s3 (w : Bool) : s3.plain 0 w 0x2000 8 0x2000 words := by
  cases w <;> exact plain_of (by decide +kernel) rfl rfl

theorem test_hyps_EmptyQueueTicks :
    let s : State := { State.reset with mode := .m5 }
    State.reset.pending = [] ∧ State.reset.mode = .m1 ∧ s.pending = [] ∧ (s.mode ≠ .m0 ∧ s.mode ≠ .m1) ∧ s.cores = [] ∧ s.kiosks = [] ∧ s.pwr.lower = [] ∧
      s.io.busy = false ∧ s.rnd.rounds = [] ∧ s.ports.buf = [] ∧ s.ports.staging = [] ∧ s.ports.oldSlots = [] ∧
      s.flag 15 5 PWR_PKG_CTL [] PWR_PKG_CTL_M7_REQ = false := by decide +kernel
theorem test_hyps_IntegerRegisterResults : s0.ready 0 32 ∧ s3.ready 0 32 ∧
    (let c := s0.core 0
     (c.getG 4).cls = .pointer ∧ (c.getG 1).cls = .data ∧ firstPoison [c.getG 4, c.getG 1] = none ∧ firstPoison [c.getG 1, c.getG 4] = none ∧
       (c.getG 2).cls = .data ∧ firstPoison [c.getG 1, c.getG 2] = none ∧ (c.getG 5).cls = .system ∧ firstPoison [c.getG 4, c.getG 5] = none) :=
  ⟨test_ready_s0, test_ready_s3, by decide +kernel⟩
theorem test_hyps_DivisionResults : s0.ready 0 32 ∧
    (let c := s0.core 0
     firstPoison [c.getG 1, c.getG 0] = none ∧ c.gv 0 = 0 ∧ firstPoison [c.getG 6, c.getG 7] = none ∧ c.gv 6 = 0x8000000000000000 ∧
       c.gv 7 = 0xFFFFFFFFFFFFFFFF ∧ firstPoison [c.getG 1, c.getG 2] = none ∧ c.gv 2 ≠ 0) :=
  ⟨test_ready_s0, by decide +kernel⟩
theorem test_hyps_OverflowBitTraps : s0.ready 0 32 ∧
    (let c := s0.core 0
     let x := fun (r : BitVec 5) => (c.getG r).val.toInt
     firstPoison [c.getG 4, c.getG 1] = none ∧ firstPoison [c.getG 6, c.getG 7] = none ∧ firstPoison [c.getG 1, c.getG 0] = none ∧
       x 6 + x 7 < -(2 : Int) ^ 63 ∧ x 6 = -(2 : Int) ^ 63 ∧ x 7 = -1 ∧ x 1 + x 2 < (2 : Int) ^ 63 ∧ x 6 * x 7 = (2 : Int) ^ 63 ∧
       (c.getG 0).val = 0 ∧ (c.getG 2).val ≠ 0 ∧
       (c.getG 4).cls = .pointer ∧ ((c.getG 4).val.toNat % 2 ^ 58 : Nat) + x 1 < (2 : Int) ^ 58 ∧
       ((c.getG 4).val.toNat % 2 ^ 58 : Nat) + x 6 < 0) :=
  ⟨test_ready_s0, by decide +kernel⟩
theorem test_hyps_UnaryImmediateAndShiftResults : s0.ready 0 32 ∧
    (let c := s0.core 0
     (c.getG 5).isPoison = false ∧ (c.getG 5).cls = .system ∧ c.pl = 0 ∧ (c.getG 0).isPoison = false ∧ (c.getG 7).isPoison = false ∧
       ((0xFFFF : BitVec 17)).toNat < 65536 ∧ (63 : Nat) < 64) :=
  ⟨test_ready_s0, by decide +kernel⟩
theorem test_hyps_PoisonOperandPoisonsResult : s0.ready 0 32 ∧ ((s0.core 0).getG 3).isPoison = true ∧ ((s0.core 0).getG 1).isPoison = false :=
  ⟨test_ready_s0, by decide +kernel⟩
theorem test_hyps_BitFieldResults : s0.ready 0 32 ∧ ((s0.core 0).getG 7).isPoison = false ∧ ((s0.core 0).getG 1).isPoison = false :=
  ⟨test_ready_s0, by decide +kernel⟩
theorem test_hyps_CompareResults : s0.ready 0 32 ∧
    (let c := s0.core 0
     (c.getG 6).isPoison = false ∧ (c.getG 7).isPoison = false ∧ (c.getG 6).val.toInt < (c.getG 7).val.toInt ∧ (c.getG 6).val ≠ (c.getG 7).val ∧
       (c.getG 3).isPoison = true ∧ c.getPZ 4 ≠ 0 ∧ c.getPZ 1 = 0 ∧ c.getPZ 3 = 0 ∧ (c.getP 1).getLsbD 0 = true ∧ (c.getP 3).getLsbD 0 = false) :=
  ⟨test_ready_s0, by decide +kernel⟩
theorem test_hyps_PredicateResults : s0.ready 0 32 ∧ (s0.core 0).getPZ 4 ≠ 0 ∧ (s0.core 0).getPZ 1 = 0 ∧ ((s0.core 0).getG 3).isPoison = true :=
  ⟨test_ready_s0, by decide +kernel⟩
theorem test_hyps_BranchResults : s0.ready 0 32 ∧
    (let c := s0.core 0
     c.getPZ 1 = 0 ∧ c.getPZ 4 ≠ 0 ∧ (c.getG 3).isPoison = true ∧ (c.getG 9).isPoison = false ∧ (c.getG 9).val.toNat % 2 ^ 58 % 4 ≠ 0 ∧
       (c.getG 8).isPoison = false ∧ (c.getG 8).val.toNat % 2 ^ 58 % 4 = 0) :=
  ⟨test_ready_s0, by decide +kernel⟩
theorem test_hyps_ReservedFieldsTrap : s0.ready 0 32 ∧
    (2 ≤ (2 : BitVec 7).toNat ∧ (127 : BitVec 7) ≠ 0 ∧ (31 : BitVec 5) ≠ 0 ∧ 65536 ≤ (0x10000 : BitVec 17).toNat) :=
  ⟨test_ready_s0, by decide +kernel⟩
theorem test_hyps_EveryStepKeepsMemoryCanonical : s0.memWf = true ∧ (∃ t, step { s0 with pending := [.add 0 ⟨10, 1, 2, 0⟩] } = .next t) ∧
    ({ s0 with mem := [(3, 7), (9, 1)] } : State).memWf = true ∧ ({ s0 with mem := [(9, 7), (3, 1)] } : State).memWf = false :=
  ⟨by decide +kernel, ⟨_, rfl⟩, by decide +kernel, by decide +kernel⟩
/-- A core with system registers written. -/
def withSys (s : State) (l : List (Nat × BitVec 64)) : State := l.foldl (fun s x => s.setCore 0 ((s.core 0).setSys x.1 x.2)) s
theorem test_hyps_ExceptionEntry :
    ([Exc.illegal, Exc.mk1 0x20 0 0, Exc.poison 63, Exc.mk1 0x18 4095 0].all (fun e => (s0.core 0).excLevel e == 1)) = true ∧
      (s1.core 0).excLevel (Exc.mk1 0x19 0 0) = 2 ∧ (s2.core 0).excLevel (Exc.mk1 0x1A 0 0) = 3 ∧ (s3.core 0).excLevel Exc.illegal = 3 ∧
      (s0.core 0).shelf = [] ∧ (s1.core 0).shelf = [] ∧ (s2.core 0).shelf = [] ∧ (s3.core 0).shelf = [] ∧ (s0.arbour (lcTile 0)).log = [] ∧
      (s1.arbour (lcTile 0)).log = [] ∧ (s2.arbour (lcTile 0)).log = [] ∧ (s3.arbour (lcTile 0)).log = [] ∧ (s0.core 0).vm = false ∧ (s1.core 0).vm = false ∧
      ((withSys s1 [(0x008, 1)]).core 0).vm = true ∧ bitOf (((withSys s1 [(0x008, 1)]).core 0).sysr 0x05C) 0 = false := by decide +kernel
theorem test_hyps_CallsTakeTheirExceptions : s0.ready 0 32 ∧ s1.ready 0 32 ∧ s2.ready 0 32 ∧ s3.ready 0 32 ∧
    (s0.core 0).pl = 0 ∧ (s1.core 0).pl = 1 ∧ (s2.core 0).pl = 2 ∧ (s3.core 0).pl = 3 ∧ s1.part = .a1 ∧ (s1.core 0).walled = false ∧
      (s3.core 0).walled = true ∧ (({ s1 with part := .x1 } : State)).ready 0 32 :=
  ⟨test_ready_s0, test_ready_s1, test_ready_s2, test_ready_s3, by decide +kernel, by decide +kernel, by decide +kernel, by decide +kernel, by decide +kernel,
    by decide +kernel, by decide +kernel,
    ready_of (by decide +kernel) rfl⟩
/-- Queue q enabled with its configuration fields, HEAD and TAIL. -/
def qset (s : State) (q : Nat) (l : List (RField × Nat)) (head tail : Nat) : State :=
  ((l.foldl (fun (s : State) x => s.setQf q URN_QCFG x.1 x.2) (s.setQf q URN_QCFG URN_QCFG_EN 1)).setQf q URN_QPTR URN_QPTR_HEAD head).setQf q
    URN_QPTR URN_QPTR_TAIL tail
/-- A Footbridge route to socket 7 over link 2, which is up. -/
def far7 (s : State) : State :=
  let t := (s.setFld 8 0x018 FB_ROUTE [] (FB_ROUTE_VALID 7) 1).setFld 8 0x018 FB_ROUTE [] (FB_ROUTE_LINK 7) 2
  { t with io := { t.io with fbUp := [(2, true)] } }
/-- An arbour that is not in safe mode takes every access. -/
theorem test_rbOpen {s : State} {lt : Nat} (h : s.safeMode lt = false) : s.rbOpen lt := fun t => by rw [h] at t; cases t
theorem test_hyps_SystemRegisterAccess : s0.ready 0 32 ∧ s1.ready 0 32 ∧ s3.ready 0 32 ∧ s1.rbOpen (lcTile 0) ∧
    (let i := qset s1 (iqNum 5) [(URN_QCFG_LOG2N, 3), (URN_QCFG_ESZ, 1)] 0 0
     let f := qset s1 (iqNum 5) [(URN_QCFG_LOG2N, 1), (URN_QCFG_ESZ, 1)] 0 0
     (s0.core 0).sysReadLevel s0.part 0x032 = some 0 ∧ (s0.core 0).sysReadLevel s0.part 0x000 = some 1 ∧ (s0.core 0).pl < 1 ∧
      (s0.core 0).sysReadLevel s0.part 0x004 = none ∧ sysLevel s0.part 0x004 = none ∧ sysLevel s3.part 0x012 = some 3 ∧ 3 ≤ (s3.core 0).pl ∧
      ((s3.core 0).getG 3).isPoison = true ∧ ((s3.core 0).getG 1).isPoison = false ∧
      ((s3.core 0).countRetired (s3.core 0).pl (s3.core 0).walled).cntDue = [] ∧ sysLevel s0.part 0x000 = some 1 ∧
      1 ≤ (s1.core 0).pl ∧ bitOf ((s1.core 0).sysr 0x008) 2 = false ∧ ((s1.core 0).getG 1).isPoison = false ∧ s1.ipiWaits 0 = false ∧
      s1.urnAns.any (fun x => x.who == .ipi 0) = false ∧ field ((s1.core 0).getG 1).val 0 10 = 5 ∧
      field ((s1.core 0).getG 1).val 10 3 = s1.socketId ∧ s1.qEn (iqNum 5) = false ∧ s1.coreExists 5 = true ∧ i.qEn (iqNum 5) = true ∧
      i.iqRoom (iqNum 5) 3 = true ∧ (i.urnHalf (qHalf (iqNum 5))).caddyRoom false 2 = true ∧ f.iqRoom (iqNum 5) 3 = false ∧
      field ((s1.core 0).getG 7).val 10 3 = 7 ∧ s1.fbReach 7 = false ∧ (far7 s1).fbReach 7 = true) :=
  ⟨test_ready_s0, test_ready_s1, test_ready_s3, test_rbOpen (by decide +kernel), by decide +kernel⟩
/-- s.estatus of a level, for the returns. -/
def back (s : State) (n : Nat) (v : BitVec 64) : State := withSys s [(0x017 + n, v), (0x013 + n, 0x4004)]
theorem test_hyps_EretAndWretRestore : (back s1 1 0x8).ready 0 32 ∧ (back s3 3 0x1).ready 0 32 ∧ s0.ready 0 32 ∧
    (let c := (back s1 1 0x8).core 0
     let w := (back s3 3 0x1).core 0
     c.pl = 1 ∧ (c.sysr 0x018).toNat % 4 = 0 ∧ bitOf (c.sysr 0x018) 2 = c.walled ∧ (c.countRetired c.pl c.walled).cntDue = [] ∧
       (s0.core 0).pl = 0 ∧ w.pl = 3 ∧ (w.sysr 0x01A).toNat % 4 = 1 ∧ w.walled = true ∧ (w.countRetired 3 true).cntDue = [] ∧ s3.part = .a1 ∧
       ((s3.core 0).sysr 0x01A).toNat % 4 = 0 ∧ bitOf ((s3.core 0).sysr 0x01A) 2 ≠ (s3.core 0).walled) :=
  ⟨ready_of (by decide +kernel) rfl,
   ready_of (by decide +kernel) rfl, test_ready_s0, by decide +kernel⟩
theorem test_hyps_TlbInstructions : s2.ready 0 32 ∧ s3.ready 0 32 ∧ s0.ready 0 32 ∧ s2.rbOpen (lcTile 0) ∧
    (let c := s2.core 0
     let m : TlbiMsg := { src := 0, sock := none, dst := 1, op := c.tlbiOp .all 0 0 }
     let t : State := { s2 with tlbis := [m] }
     let x : State := { far7 s2 with tlbiOuts := [⟨0, 7, 3⟩] }
     2 ≤ c.pl ∧ ¬ (c.pl = 1 ∧ bitOf (c.sysr 0x008) 3 = true) ∧ (∀ e ∈ c.sb, e.weak = true) ∧ c.sb = [] ∧ firstPoison [c.getG 1, c.getG 2] = none ∧
       s2.tlbis.all (fun m => m.src != 0) = true ∧ s2.tlbiOuts = [] ∧ t.tlbis.all (fun m => m.sock == none && m.src == 0) = true ∧
       x.tlbiOuts.any (fun y => y.src == 0 && x.fbReach y.sock) = true ∧ (s3.core 0).pl = 3 ∧ (0 : BitVec 7).toNat < 2 ∧ 2 ≤ (2 : BitVec 7).toNat ∧
       t.tlbis.find? (fun m => m.src == 0 && m.sock == none && m.dst == 1) = some m ∧ (t.core 1).sb = [] ∧ t.coreBegun 1 = false ∧
       (s0.core 0).pl = 0 ∧ bitOf ((s0.core 0).sysr 0x009) (((s0.core 0).getG 4).val.toNat / 2 ^ 58 % 64) = false ∧
       bitOf (((withSys s0 [(9, 8)]).core 0).sysr 0x009) (((s0.core 0).getG 4).val.toNat / 2 ^ 58 % 64) = true) :=
  ⟨test_ready_s2, test_ready_s3, test_ready_s0, test_rbOpen (by decide +kernel), by decide +kernel⟩
/-- Core 0 with entries in its store buffer. -/
def pre (s : State) (l : List SbEntry) : State := s.setCore 0 { s.core 0 with sb := l }
/-- A whole-word store of 7 to the first word of the data line. -/
def sbe (walled : Bool) : SbEntry := { pa := 0x2000, size := 8, upper := none, split := false, kind := .whole, word := Word.data 7, tags := [0], weak := false, walled := walled, pl3 := walled }
/-- A property of every value of a table and of its default is one of what is read there. -/
theorem tget_all {α : Type} (p : α → Prop) {t : Tbl α} {d : α} {k : Nat} (hd : p d) (h : ∀ x ∈ t, p x.2) : p (tget t d k) := by
  induction t with
  | nil => exact hd
  | cons x r ih =>
    simp only [tget]
    split
    · exact h x List.mem_cons_self
    · exact ih (fun y hy => h y (List.mem_cons_of_mem _ hy))
theorem test_offShelf {s : State} {lt line : Nat} (h : ∀ x ∈ s.cores, x.2.shelf = []) : s.offShelf lt line := by
  intro k _ e he
  rw [show (s.core k).shelf = [] from tget_all (fun c : Core => c.shelf = []) (by rfl) h] at he
  cases he
theorem test_hyps_LoadResults : s0.ready 0 32 ∧ s0.plain 0 false 0x2000 8 0x2000 words ∧ (pre s3 [sbe true]).ready 0 32 ∧
    (pre s3 [sbe true]).plain 0 false 0x2000 8 0x2000 words ∧
    (let c := s0.core 0
     let m : MemForm := .imm ⟨10, 8, 0⟩
     let e := sbe true
     memVa m c = 0x2000 ∧ memIllegal m = false ∧ firstPoison (memAddrOps m c) = none ∧ c.sb = [] ∧ ((pre s3 [e]).core 0).sb = [e] ∧
       (e.kind ≠ .colour ∧ e.kind ≠ .colourPoison ∧ e.upper = none ∧ e.pa ≤ 0x2000 ∧ 0x2000 + 8 ≤ e.pa + e.size ∧ e.pa % 128 + e.size ≤ 128 ∧
         e.tags = (touchedWords words (e.pa % 128) e.size).map Word.tag ∧ tfind ((pre s3 [e]).core 0).l1bad 64 = none ∧ (pre s3 [e]).isCxl 64 = false) ∧
       ((pre s3 [{ e with pa := 0x2008 }]).core 0).sb.all (fun e => !e.overlaps 0x2000 8) = true ∧
       (0x2000 : BitVec 64).toNat % 8 = 0 ∧ (memVa (.imm ⟨10, 9, 0⟩) c).toNat % 8 ≠ 0 ∧ memIllegal (.idx ⟨10, 8, 1, 0x7F⟩) = true ∧
       firstPoison (memAddrOps (.imm ⟨10, 3, 0⟩) c) = some 4) :=
  ⟨test_ready_s0, test_plain_s0 _, ready_of (by decide +kernel) rfl, plain_of (by decide +kernel) rfl rfl, by decide +kernel⟩
theorem test_hyps_StoreResults : s0.ready 0 32 ∧ s0.plain 0 true 0x2000 8 0x2000 words ∧ s3.ready 0 32 ∧ s3.plain 0 true 0x2000 8 0x2000 words ∧
    (pre s3 (List.replicate 127 (sbe true))).ready 0 32 ∧ (pre s3 (List.replicate 127 (sbe true))).plain 0 true 0x2000 8 0x2000 words ∧
    (let c := s0.core 0
     memVa (.imm ⟨5, 8, 0⟩) c = 0x2000 ∧ memIllegal (.imm ⟨5, 8, 0⟩) = false ∧ firstPoison (memAddrOps (.imm ⟨5, 8, 0⟩) c) = none ∧ c.sb.length ≤ 127 ∧
       ((pre s3 (List.replicate 127 (sbe true))).core 0).sb.length ≤ 127 ∧
       (memVa (.imm ⟨10, 9, 0⟩) c).toNat % 8 ≠ 0 ∧ memIllegal (.idx ⟨10, 8, 1, 0x7F⟩) = true ∧
       firstPoison (memAddrOps (.imm ⟨10, 3, 0⟩) c) = some 4) :=
  ⟨test_ready_s0, test_plain_s0 _, test_ready_s3, test_plain_s3 _, ready_of (by decide +kernel) rfl, plain_of (by decide +kernel) rfl rfl,
   by decide +kernel⟩
theorem test_hyps_WordStoreRules :
    words.length = 16 ∧ 0 < (sbe true).size ∧ (sbe true).pa % 128 + (sbe true).size ≤ 128 ∧ (sbe true).kind = .whole ∧ (sbe true).pa % 128 % 8 = 0 ∧
      (let e : SbEntry := { sbe true with pa := 0x207E, size := 2, kind := .sub }
       e.pa % 128 + e.size ≤ 128 ∧ e.size ≤ 8 ∧ e.pa % 128 < 8 * 15 + 8 ∧ 8 * 15 < e.pa % 128 + e.size) := by decide +kernel
theorem test_hyps_StoreBufferWrites :
    let s := pre s3 [sbe true]
    let l := lineOf 64 .m true words
    (lcTile 0 = 0 ∧ (s.core 0).sb = sbe true :: [] ∧ tfind (s.tile 0).l2 1024 = some l ∧ (sbe true).pa / 128 = 64 ∧
      s.l2Find 0 64 (sbe true).walled (sbe true).pl3 = some (1024, l) ∧ l.st = .m ∧ l.bad = [] ∧ s.l2Any 0 64 = some (1024, l) ∧
      s.storeWalled 0 (sbe true) = false ∧ s.fld (ltDie 0) (ltIdx 0) ERB_INJ_STATUS [] ERB_INJ_STATUS_REMAIN = 0 ∧
      ((pre s3 [sbe true, sbe true]).core 0).sb[1]? = some (sbe true) ∧ (sbe true).weak = false) ∧ s.rbOpen 0 ∧ s.offShelf 0 64 :=
  ⟨by decide +kernel, test_rbOpen (by decide +kernel), test_offShelf (by decide +kernel)⟩
theorem test_hyps_AtomicResults : s3.ready 0 32 ∧ s3.plain 0 true (formAddr 0x2000 0) 8 0x2000 words ∧
    s3.rbOpen (lcTile 0) ∧ s3.offShelf (lcTile 0) 64 ∧
    (let c := s3.core 0
     let l := lineOf 64 .m true words
     let at8 := s3.coreView 0 64 l.data
     c.sb = [] ∧ (c.getG 8).isPoison = false ∧ (formAddr (c.getG 8).val 0).toNat % 8 = 0 ∧ tfind (s3.tile 0).l2 1024 = some l ∧
       s3.l2Find 0 (0x2000 / 128) c.walled (decide (c.pl = 3)) = some (1024, l) ∧ l.st = .m ∧ l.bad = [] ∧ s3.l2Any 0 64 = some (1024, l) ∧
       s3.isCxl 64 = false ∧ (s3.arbour 0).log = [] ∧
       s3.amoRefused 0 0x2000 = false ∧ (c.getG 1).isPoison = false ∧ (at8.getD 0 Word.zero).isPoison = false ∧ (at8.getD 1 Word.zero).isPoison = true ∧
       c.pl ≠ 0 ∧ (4 : BitVec 7).toNat < 8) :=
  ⟨test_ready_s3, test_plain_s3 _, test_rbOpen (by decide +kernel), test_offShelf (by decide +kernel), by decide +kernel⟩
theorem test_hyps_TagInstructions : s0.ready 0 32 ∧ s3.ready 0 32 ∧ s3.plain 0 false 0x2000 1 0x2000 words ∧ s3.plain 0 true 0x2000 1 0x2000 words ∧
    s0.plain 0 true 0x2000 1 0x2000 words ∧
    (let c := s3.core 0
     (c.getG 8).isPoison = false ∧ formAddr (c.getG 8).val ((0 : BitVec 12).signExtend 64) = 0x2000 ∧ formAddr (c.getG 8).val 0 = 0x2000 ∧
       (c.getG 3).isPoison = true ∧ c.sb.length ≤ 127 ∧ s3.isCxl (0x2000 / 128) = false ∧ ¬ (c.pl = 0 ∨ (2 ≤ 63 ∧ c.pl < 3)) ∧ (s0.core 0).pl = 0 ∧
       ((s0.core 0).getG 8).cls ≠ .pointer) :=
  ⟨test_ready_s0, test_ready_s3, plain_of (by decide +kernel) rfl rfl,
   plain_of (by decide +kernel) rfl rfl,
   plain_of (by decide +kernel) rfl rfl, by decide +kernel⟩
/-- s.tagctl with checking, PREQ and poison-store faults at PL0. -/
def tagged : Core := Core.reset.setSys 0x030 0x111
theorem test_hyps_ColourChecks :
    let t : Touch := { word := ⟨0, 0x0D⟩, va := 0x0400000000002000, td := false }
    bitOf (Core.reset.sysr 0x030) Core.reset.pl = false ∧ bitOf (tagged.sysr 0x030) tagged.pl = true ∧ bitOf (tagged.sysr 0x030) (4 + tagged.pl) = true ∧
      Word.zero.cls ≠ .pointer ∧ (Word.pointer 0).cls = .pointer ∧ bitOf (tagged.sysr 0x030) 8 = true ∧ t.word.colour ≠ 0 ∧
      (0x0400000000002000 : BitVec 64).extractLsb' 58 6 ≠ t.word.colour ∧ (0x0400000000002000 : BitVec 64).extractLsb' 58 6 ≠ 0 := by decide +kernel

theorem test_hyps_MaintenanceAndFences : s0.ready 0 32 ∧ s3.ready 0 32 ∧ s0.rbOpen (lcTile 0) ∧ s3.rbOpen (lcTile 0) ∧
    s3.translate 0 { fetch := false, write := false } (formAddr 0x2000 0) = (.ok ⟨0x2000, false, false, 0⟩, s3) ∧
    s3.translate 0 { fetch := false, write := true } (formAddr 0x2000 0) = (.ok ⟨0x2000, false, false, 0⟩, s3) ∧
    s3.translate 0 { fetch := false, write := true } (formAddr 0xE0000000 0) = (.ok ⟨0xE0000000, true, false, 0⟩, s3) ∧
    s3.translate 0 { fetch := false, write := false } (formAddr 0x4000 0) = (.ok ⟨0x4000, false, false, 0⟩, s3) ∧
    (∀ lt, lt < 256 → s3.l2Any lt 128 = none ∧ s3.llcFind lt 128 false true = none ∧ ∀ x ∈ (s3.slice lt).vb, x.line ≠ 128) ∧
    ((s3.core 0).sb = [] ∧ (s3.arbour (lcTile 0)).log = [] ∧ s3.net = [] ∧ s3.nacked = [] ∧ s3.cmoBusy 64 = false ∧ s3.cmoElsewhere 64 = false ∧
      s3.cmoBusy 128 = false ∧ s3.cmoElsewhere 128 = false ∧ s3.safeMode (lcTile 0) = false ∧
      ((s3.core 0).getG 8).isPoison = false ∧ ((s3.core 0).getG 8).val = 0x2000 ∧ (s3.core 0).pl ≠ 0 ∧ (s0.core 0).pl = 0 ∧
      (2 : BitVec 7).toNat < 3 ∧ 0x3502 % 8 = 2 ∧ 0x3502 / 4096 % 2048 < 42 ∧ 0x3502 / 256 % 16 < 12 ∧ 0x3501 % 8 = 1 ∧ 0x3503 % 8 = 3 ∧
      (s3.tile 0).flushing = false ∧ field (s3.reg 0 (ltIdx 0) L2_WAY_DIS []) 32 16 = 0 ∧ tfind (s3.tile 0).l2 (16 * 3 + 5) = none) :=
  ⟨test_ready_s0, test_ready_s3, test_rbOpen (by decide +kernel), test_rbOpen (by decide +kernel), rfl, rfl, rfl, rfl, by decide +kernel, by decide +kernel⟩
/-- The lossless queue 0x105 of eight single words, which anyone of the world may use. -/
def q105 (s : State) (walled head tail : Nat) : State :=
  qset s 0x105 [(URN_QCFG_LOG2N, 3), (URN_QCFG_WORLD, walled), (URN_QCFG_PROD, 7)] head tail
/-- The same with one entry, which the caddy holds. -/
def q105c (s : State) (walled : Nat) : State :=
  let t := q105 s walled 5 6
  t.setUrn 0 { t.urnHalf 0 with caddy := [⟨0x105, 5, [Word.system 5 1], false⟩] }
theorem test_hyps_QueueInstructions :
    let s := q105c s0 0
    let e := q105 s0 0 5 5
    let f := q105 s0 0 5 13
    let b := qset s0 0x105 [(URN_QCFG_LOG2N, 1), (URN_QCFG_PROD, 7), (URN_QCFG_CLASS, 1)] 5 7
    let c := s.core 0
    let r : QReq := { who := .core 0, walled := c.walled, pl := c.pl, vmid := none }
    let w : CoreWait := { kind := .pop, queue := 0x105, rd := 10, rs := 11, g := true, entry := [], deadline := some 0 }
    let a : State := { s.setCore 1 { c with wait := some w } with urnAns := [⟨.core 1, 0, [Word.data 9], none⟩] }
    let i : State := (s.setCore 1 { c with wait := some w, irqPending := true, sys := [(0, 9), (8, 3)] }).setUrn 0
      { s.urnHalf 0 with waiting := [⟨.core 1, .wait, 0x105, [], false, false, false⟩] }
    (c.tagEn = false ∧ c.sb = [] ∧ (s.arbour (lcTile 0)).log = [] ∧ (c.getG 1).isPoison = false ∧ (2 : BitVec 7).toNat < 4 ∧ s0.qEn 0x105 = false ∧
      s.qEn 0x105 = true ∧ s.qAllowed 0x105 r true = true ∧ s.qAllowed 0x105 r false = true ∧ (q105 s0 1 5 5).qEn 0x105 = true ∧
      (q105 s0 1 5 5).qAllowed 0x105 r true = false ∧ (q105 s0 1 5 5).qAllowed 0x105 r false = false ∧ s.qWords 0x105 = 1 ∧
      (s.setQf 0x105 URN_QCFG URN_QCFG_ESZ 1).qWords 0x105 ≠ 1 ∧ s.qContract 0x105 = none ∧ s.qFull 0x105 = false ∧
      (s.urnHalf (qHalf 0x105)).caddyRoom false 1 = true ∧ f.qFull 0x105 = true ∧ f.qf 0x105 URN_QCFG URN_QCFG_CLASS = 0 ∧ b.qFull 0x105 = true ∧
      b.qf 0x105 URN_QCFG URN_QCFG_CLASS ≠ 0 ∧ b.qf 0x105 URN_QCFG URN_QCFG_POLICY = 0 ∧ e.qCount 0x105 = 0 ∧ e.qEn 0x105 = true ∧ s.qCount 0x105 ≠ 0 ∧
      (s.urnHalf (qHalf 0x105)).caddyFind 0x105 (s.qHead 0x105) = some [Word.system 5 1] ∧ (a.core 1).wait = some w ∧ a.coreOpen 1 = true ∧
      a.tileOpen (lcTile 1) = true ∧ a.urnAns.find? (fun a => a.who == .core 1) = some ⟨.core 1, 0, [Word.data 9], none⟩ ∧
      w.deadline = some 0 ∧ 0 ≤ i.time ∧ (i.urnHalf 0).waiting.any (fun x => x.who == .core 1) = true ∧ (i.core 1).wait = some w ∧ i.coreOpen 1 = true ∧
      i.tileOpen (lcTile 1) = true ∧ (i.core 1).irq.isSome = true) ∧
      s.ready 0 32 ∧ s.rbOpen (lcTile 0) ∧ e.ready 0 32 ∧ f.ready 0 32 ∧ b.ready 0 32 :=
  ⟨by decide +kernel, ready_of (by decide +kernel) rfl, test_rbOpen (by decide +kernel), ready_of (by decide +kernel) rfl, ready_of (by decide +kernel) rfl,
   ready_of (by decide +kernel) rfl⟩
theorem test_hyps_VectorIntegerResults : s0.ready 0 32 ∧ s3.ready 0 32 ∧
    ([0, 4, 8, 12, 2, 16, 32, 48].all (fun md : BitVec 7 => !md.getLsbD 0 && (s0.core 0).getPZ (md.extractLsb' 4 3) == 0) = true ∧
      (31 : BitVec 5).toNat ≥ 8 ∧ (7 : BitVec 5).toNat < 8 ∧ (1 : BitVec 7).getLsbD 0 = true ∧ (0 : BitVec 7).toNat / 4 % 4 = 0) :=
  ⟨test_ready_s0, test_ready_s3, by decide +kernel⟩
theorem test_hyps_PoisonedPredicatePoisonsVector : s0.ready 0 32 ∧
    (let md : BitVec 7 := 64
     (s0.core 0).getPZ (md.extractLsb' 4 3) ≠ 0 ∧ md.getLsbD 0 = false ∧ md.toNat / 4 % 4 = 0 ∧ md.getLsbD 1 = false ∧ (0 : BitVec 5) = 0 ∧
       (5 : BitVec 5).toNat ≤ 5 ∧ (1 : BitVec 5).toNat ≤ 1 ∧ (7 : BitVec 5).toNat < 8 ∧ ((s0.core 0).getG 8).isPoison = false ∧ ((s0.core 0).getG 1).isPoison = false ∧
       (∀ i < 8, ((s0.core 0).getV 3 i).isPoison = false)) :=
  ⟨test_ready_s0, by decide +kernel⟩
theorem test_hyps_FloatingPointResults : s0.ready 0 32 ∧ (withSys s0 [(0x032, 0x3E0)]).ready 0 32 ∧
    ([0, 4, 8, 12, 2, 16, 1, 5, 13].all (fun md : BitVec 7 => (s0.core 0).getPZ (md.extractLsb' 4 3) == 0 &&
        (!md.getLsbD 0 || md.extractLsb' 4 3 == 0 && !md.getLsbD 1)) = true ∧
      (3 : BitVec 5).toNat ≤ 3 ∧ (1 : BitVec 5).toNat ≤ 1 ∧ (0 : BitVec 7).toNat / 4 % 4 = 0 ∧ (7 : BitVec 5).toNat < 8 ∧
      1 &&& (((withSys s0 [(0x032, 0x3E0)]).core 0).sysr 0x032).toNat / 32 % 32 ≠ 0) :=
  ⟨test_ready_s0, ready_of (by decide +kernel) rfl, by decide +kernel⟩
theorem test_hyps_FloatingPointSpecialValues :
    let f := fpFmt 0
    let frac := fun (x : Nat) => x % 2 ^ f.mb
    let expo := fun (x : Nat) => x / 2 ^ f.mb % 2 ^ f.eb
    expo 0x7FF0000000000001 = 2 ^ f.eb - 1 ∧ frac 0x7FF0000000000001 ≠ 0 ∧ frac 0x7FF0000000000001 < 2 ^ (f.mb - 1) ∧
      expo 0xFFF0000000000000 = 2 ^ f.eb - 1 ∧ frac 0xFFF0000000000000 = 0 ∧ 0xFFF0000000000000 / 2 ^ (f.eb + f.mb) % 2 = 1 ∧
      expo 0x8000000000000000 = 0 ∧ frac 0x8000000000000000 = 0 ∧ expo 0xBFF0000000000000 ≠ 0 ∧ expo 0xBFF0000000000000 ≠ 2 ^ f.eb - 1 ∧
      ¬ (expo 1 = 2 ^ f.eb - 1 ∧ frac 1 ≠ 0) ∧ 1 < 2 ^ f.size ∧ (3 : Nat) < 4 := by decide +kernel
theorem test_hyps_VectorMemoryResults : s3.ready 0 32 ∧
    (∀ w, ∀ k ∈ List.range 8, s3.plain 0 w (formAddr 0x2000 (BitVec.ofNat 64 (8 * k))) 8 (0x2000 + 8 * k) words) ∧
    (let c := s3.core 0
     c.sb = [] ∧ (c.getG 8).isPoison = false ∧ (c.getG 8).val = 0x2000 ∧ c.getPZ ((16 : BitVec 7).extractLsb' 4 3) = 0 ∧
       (16 : BitVec 7).toNat / 4 % 4 = 0 ∧ (c.getG 1).isPoison = false ∧ (∀ k < 8, (c.getV 3 k).isPoison = false)) := by
  refine ⟨test_ready_s3, ?_, by decide +kernel⟩
  intro w k hk
  simp only [List.range, List.range.loop, List.mem_cons, List.not_mem_nil, or_false] at hk
  rcases hk with rfl | rfl | rfl | rfl | rfl | rfl | rfl | rfl <;> cases w <;>
    exact plain_of (by decide +kernel) rfl rfl
theorem test_hyps_CoreEvents :
    let c := s0.core 0
    let i : State := s0.setCore 0 { c with irqPending := true, sys := [(0, 8)] }
    let d : State := s0.setCore 0 { c with sys := [(0, 9), (8, 3)] }
    let m : StateMsg := ⟨0, 5, true⟩
    let t : State := { withSys s0 [(0x03A, 3), (0x038, 50), (0x039, 60)] with time := 100, stateMsgs := [m, ⟨0, 65530, false⟩] }
    let x := t.core 0
    let q := qset t (iqNum 0) [(URN_QCFG_LOG2N, 3), (URN_QCFG_ESZ, 1)] 5 5
    let full := q.setUrn 0 { q.urnHalf 0 with caddy := List.replicate 7168 ⟨0x101, 5, [Word.zero, Word.zero], false⟩ }
    let imo := withSys t [(0x008, 2)]
    s0.coreRuns 0 = true ∧ c.shelf = [] ∧ State.reset.coreRuns 511 = false ∧ (i.core 0).irq = some 0 ∧ i.coreRuns 0 = true ∧ i.coreBegun 0 = false ∧
      c.irq = none ∧ (d.core 0).irq = none ∧
      (s0.coreExists 0 = true ∧ bitOf (x.sysr 0x03A) 0 = true ∧ bitOf (x.sysr 0x03A) 1 = true ∧ (x.sysr (0x037 + 1)).toNat ≤ t.time ∧
        (x.sysr (0x037 + 2)).toNat ≤ t.time ∧ x.imo = false ∧ (imo.core 0).imo = true ∧ t.tileSt (lcTile 0) = 0) ∧
      (t.qEn (iqNum 0) = false ∧ q.qEn (iqNum 0) = true ∧ q.iqRoom (iqNum 0) 1 = true ∧ q.iqRoom (iqNum 0) 2 = true ∧
        (q.urnHalf (qHalf (iqNum 0))).caddyRoom false 2 = true ∧ qHalf (iqNum 0) = 0 ∧ full.qEn (iqNum 0) = true ∧ full.iqRoom (iqNum 0) 1 = true ∧
        (full.urnHalf 0).caddyRoom false 2 = false) ∧
      t.stateMsgs.find? (fun m => m.lc == 0) = some m ∧ t.tileOpen (lcTile 0) = true ∧ (m.seq + 2 ^ 16 - x.irqSeq) % 2 ^ 16 < 2 ^ 15 ∧
      0 < (m.seq + 2 ^ 16 - x.irqSeq) % 2 ^ 16 ∧ ¬ (65530 + 2 ^ 16 - x.irqSeq) % 2 ^ 16 < 2 ^ 15 ∧ (511 : Nat) < 512 := by
  decide +kernel
/-- The arbour of tile 0 in safe mode. -/
def safe (s : State) : State := s.setFld 0 (ltIdx 0) ARB_STATUS [] ARB_STATUS_MODE 1
theorem test_hyps_ArbourEvents :
    let s := safe s0
    let b := safe (s0.setReg 0 (ltIdx 0) ARB_LAST_PC [] 0x1001)
    let x : State := { s with mode := .m10, part := .x1 }
    let stuck := s.setArbour 0 { s.arbour 0 with stuckSig := true, stuckPair := true }
    let gone := (safe (s0.setFld 15 1 GH_TILE_FATAL [0] GH_TILE_FATAL_FATAL 1))
    let one : Mismatch := ⟨false, 0, false, [64], false⟩
    let twice : Mismatch := ⟨true, 0, true, [], true⟩
    s.safeArb 0 = true ∧ s.coreExists 0 = true ∧ s0.safeArb 0 = false ∧ (b.core 0).pc = 0x1000 ∧ (b.reg 0 (ltIdx 0) ARB_LAST_PC []).getLsbD 0 = true ∧
      (b.reg 0 (ltIdx 0) ARB_LAST_PC []).toNat / 4 % 2 ^ 56 * 4 = 0x1000 ∧ b.time < (b.reg 0 (ltIdx 0) ARB_LAST_TIME []).toNat + 1000000 ∧
      (s.reg 0 (ltIdx 0) ARB_LAST_PC []).getLsbD 0 = false ∧ (s.core 0).shelf = [] ∧ (s.core 0).flips = [] ∧ s.tileSt 0 = 0 ∧
      (s0.setDomSt 0 PWR_DOM_STATUS_STATE 2).tileSt 0 ≠ 0 ∧ gone.safeArb 0 = true ∧ gone.coreExists 0 = false ∧
      one.lines = [64] ∧ one.both = false ∧ twice.both = true ∧ twice.lines = [] ∧ (s.arbour 0).stuckPair = false ∧ (s.arbour 0).stuckSig = false ∧
      (stuck.safeArb 0 = true ∧ stuck.coreExists 0 = true ∧ (stuck.core 0).flips = [] ∧ (stuck.arbour 0).stuckSig = true ∧
        (stuck.arbour 0).stuckPair = true) ∧
      x.mode = .m10 ∧ x.part = .x1 ∧ x.safeArb 0 = true ∧ (x.core 0).flips = [] ∧ (255 : Nat) < 256 := by decide +kernel
theorem test_hyps_CacheControl :
    let f := (s0.setTile 0 { s0.tile 0 with flushing := true, l2 := [] }).setSlice 0 { s0.slice 0 with flushing := true }
    let e := s0.setTile 0 { s0.tile 0 with l2 := [] }
    let p := (e.setReg 0 (ltIdx 0) L2_WAY_DIS [] 0x300000001).setReg 0 (llcUnit 0) LLC_WAY_DIS [] 0x300000001
    let last := (e.setReg 0 (ltIdx 0) L2_WAY_DIS [] 0x100000001).setReg 0 (llcUnit 0) LLC_WAY_DIS [] 0x100000001
    let n := s0.setSlice 0 { s0.slice 0 with newMask := some (2, 3) }
    (s0.tile 0).flushing = false ∧ (s0.slice 0).flushing = false ∧ (f.tile 0).flushing = true ∧ (f.tile 0).l2 = [] ∧ (f.tile 0).fills = [] ∧
      (f.arbour 0).rb = [] ∧ (f.slice 0).flushing = true ∧ (f.slice 0).parked = [] ∧ (f.slice 0).txns = [] ∧ (f.slice 0).lines = [] ∧
      (f.slice 0).vb = [] ∧ f.net = [] ∧ f.nacked = [] ∧
      s0.l2WaysOk 0 0xFFFF = false ∧ s0.l2WaysOk 0 1 = true ∧ s0.llcWaysOk 0xFFFF 0 = false ∧
      s0.llcWaysOk 1 (s0.fld 0 (llcUnit 0) LLC_WALLED_WAYS [] LLC_WALLED_WAYS_MASK) = true ∧ s0.llcWaysOk 1 2 = true ∧ s0.llcWaysOk 3 3 = false ∧
      (s0.slice 0).newMask = none ∧ (s0.tile 0).hwPend = 0 ∧ (s0.slice 0).hwPend = 0 ∧
      (p.reg 0 (ltIdx 0) L2_WAY_DIS []).getLsbD 32 = true ∧ (p.reg 0 (ltIdx 0) L2_WAY_DIS []).toNat / 2 ^ 16 % 2 ^ 16 = 0 ∧ (p.tile 0).l2 = [] ∧
      natBit (p.tile 0).hwPend 0 = false ∧ (p.reg 0 (llcUnit 0) LLC_WAY_DIS []).getLsbD 32 = true ∧ p.net = [] ∧ p.nacked = [] ∧
      (p.slice 0).lines = [] ∧ (p.slice 0).parked = [] ∧ (p.slice 0).txns = [] ∧ (p.slice 0).newMask = none ∧ natBit (p.slice 0).hwPend 0 = false ∧
      (last.reg 0 (ltIdx 0) L2_WAY_DIS []).toNat / 2 ^ 32 % 2 ^ 16 = 2 ^ 0 ∧ (last.reg 0 (llcUnit 0) LLC_WAY_DIS []).toNat / 2 ^ 32 % 2 ^ 16 = 2 ^ 0 ∧
      (s0.reg 0 (ltIdx 0) L2_WAY_DIS []).getLsbD 47 = false ∧ (s0.reg 0 (llcUnit 0) LLC_WAY_DIS []).getLsbD 47 = false ∧
      s0.part = .a1 ∧ ({ s0 with part := .x1 } : State).part = .x1 ∧ (n.slice 0).newMask = some (2, 3) ∧ n.net = [] ∧ (n.slice 0).lines = [] ∧
      (n.slice 0).parked = [] ∧ (n.slice 0).txns = [] ∧ (255 : Nat) < 256 ∧ (15 : Nat) < 16 := by decide +kernel
/-- A read of line 64 on its way from a slice. -/
def rd64 (dst : Agent) : Msg := { msg0 with src := .llc 3, dst := dst, line := 64, core := none, mask := 0 }
/-- A transaction of line 64. -/
def tx64 (p : TxnPhase) : Txn := { line := 64, req := rd64 (.home 0), phase := p, await := [.tile 0], data := none, dirty := false, held := [] }
theorem test_hyps_CoherenceMessages :
    let w := s3.setTile 0 { s3.tile 0 with wb := [⟨64, true, words⟩] }
    let d := s3.setFld 8 0x038 HOME_DEAD [] HOME_DEAD_DIES 1
    let two : State := { s3 with net := [{ rd64 (.home 0) with line := 9 }, rd64 (.home 0)] }
    let up : Msg := { rd64 (.llc 3) with src := .tile 0 }
    let held := s3.setSlice 3 { s3.slice 3 with lines := [(16 * 64, { lineOf 64 .m true words with pres := 1, excl := true })] }
    let cmp : Txn := { tx64 .cmp with await := [.tile 0] }
    let t := (held.setHome 0 { s3.home 0 with txns := [tx64 .cmp] }).setSlice 3 { held.slice 3 with txns := [cmp] }
    let ask := s3.setTile 0 { s3.tile 0 with l2 := [], miss := [{ up with kind := .rdS, core := some 0 }] }
    let upg := s3.setTile 0 { s3.tile 0 with miss := [{ up with kind := .upg, core := some 0 }] }
    let dr := s3.setReg 8 0 MEM_RANGE [0] (BitVec.ofNat 64 (2 ^ 44 + 9 * 2 ^ 22))
    (∀ n, (rd64 (.tile 0)).src ≠ .socket n) ∧ (∀ n, up.src ≠ .socket n) ∧ (∃ n, (rd64 (.tile 0)).src = .llc n) ∧
      (∃ n, ({ rd64 (.iommu 0) with src := .home 0 } : Msg).src = .home n) ∧
      (s3.net.contains (rd64 (.home 0)) = false ∧ two.net.contains (rd64 (.home 0)) = true ∧ two.inOrder (rd64 (.home 0)) = false ∧
        d.homeDead 0 (rd64 (.home 0)).src = true) ∧
      ((s3.tile 0).dead = false ∧ s3.tileDead (.tile 0) = false ∧ held.llcFind 3 64 false true = some (1024, { lineOf 64 .m true words with pres := 1, excl := true }) ∧
        tfind (held.slice 3).lines 1024 = some { lineOf 64 .m true words with pres := 1, excl := true } ∧ (held.slice 3).txn 64 = none ∧
        (held.slice 3).cq = [] ∧ (held.slice 3).parked = [] ∧ held.scanOf 0 = 0 ∧ natBit 1 0 = true ∧
        held.otherTiles 3 { lineOf 64 .m true words with pres := 1, excl := true } (.tile 0) = [] ∧ up.pl3 = false ∧ ({ up with pl3 := true } : Msg).pl3 = true) ∧
      ((t.slice 3).txn 64 = some cmp ∧ cmp.phase = .cmp ∧ cmp.await = [up.src] ∧ cmp.held = [] ∧ cmp.grant = .none ∧ (t.slice 3).cq = [] ∧
        (t.slice 3).parked = [] ∧ t.llcFind 3 64 false true = some (1024, { lineOf 64 .m true words with pres := 1, excl := true })) ∧
      ((w.tile 0).wb.find? (fun w => w.line == 64) = some ⟨64, true, words⟩ ∧ (w.arbour 0).rb = [] ∧
        (ask.tile 0).missOf 64 = some { up with kind := .rdS, core := some 0 } ∧ (ask.core 0).shelf = [] ∧ ask.tileSt 0 = 0 ∧
        (upg.tile 0).missOf 64 = some { up with kind := .upg, core := some 0 } ∧ upg.l2Any 0 64 = some (1024, lineOf 64 .m true words) ∧
        s3.l2Any 0 64 = some (1024, lineOf 64 .m true words) ∧ tfind (s3.tile 0).l2 1024 = some (lineOf 64 .m true words) ∧ s3.tileSt 0 < 3 ∧
        (rd64 (.tile 0)).nc = false) ∧
      (dr.classify (64 * 128) = .dram 0 4 4 ∧ dr.sfFind 0 64 = none ∧ (dr.home 0).blocks 64 = false ∧ (dr.home 0).parked = [] ∧ (dr.home 0).wb = [] ∧
        (dr.chan 4).stalled = [] ∧ (dr.chan 4).canWrite 4 = true ∧ (dr.chan 4).raw = [] ∧ dr.mf 4 ERB_INJ_STATUS ERB_INJ_STATUS_REMAIN = 0) ∧
      (s3.nacked = [] ∧ ({ s3 with nacked := [up] } : State).nacked = [up] ∧ (s3.home 0).txn 64 = none ∧ (s3.home 0).snoops = [] ∧
        (s3.slice 0).txn 64 = none ∧ (t.home 0).txn 64 = some (tx64 .cmp) ∧ (t.home 0).snoops = [] ∧ t.remoteHome 64 = none ∧
        (tx64 .cmp).phase = .cmp) := by
  intro w d two up held cmp t ask upg dr
  exact ⟨(fun _ h => nomatch h), (fun _ h => nomatch h), ⟨3, rfl⟩, ⟨0, rfl⟩, by decide +kernel, by decide +kernel, by decide +kernel, by decide +kernel,
    by decide +kernel, by decide +kernel⟩
theorem test_hyps_HomeConflictQueue :
    let h := fun (n : Nat) => s3.setHome 0 { s3.home 0 with txns := [tx64 .upper], cq := List.replicate n (rd64 (.home 0)) }
    (∀ n, (rd64 (.home 0)).src ≠ .socket n) ∧ (rd64 (.home 0)).dst = .home 0 ∧ (h 13).homeDead 0 (rd64 (.home 0)).src = false ∧
      (((h 13).home 0).txn 64).isSome = true ∧ ((h 13).home 0).fwds = [] ∧ (h 13).sfFind 0 64 = none ∧ (h 13).net = [] ∧
      ((h 13).home 0).cq.countP (fun x => !isFwd x.kind) < 14 ∧ ¬ ((h 14).home 0).cq.countP (fun x => !isFwd x.kind) < 14 ∧
      ((h 15).home 0).cq.countP (fun x => !isFwd x.kind) < 16 ∧ ¬ ((h 16).home 0).cq.countP (fun x => !isFwd x.kind) < 16 := by
  intro h
  exact ⟨(fun _ h => nomatch h), rfl, by decide +kernel, by decide +kernel, by decide +kernel, by decide +kernel, by decide +kernel, by decide +kernel,
    by decide +kernel, by decide +kernel, by decide +kernel⟩
/-- Channel 3 with a VALID granule and two that fill. -/
def chanA : Chan := { Chan.reset with valid := [(0, true)], fill := [(1, 11), (2, 0)] }
/-- Channel 3 trained, with capacity and its die's scrub enabled. -/
def trained (s : State) : State :=
  ((s.setMf 3 MEM_CFG MEM_CFG_TRAINED 1).setMf 3 MEM_CFG MEM_CFG_CAP 8).setFld 8 0x03A GK_SCRUB_CTL [] GK_SCRUB_CTL_EN 1
theorem test_hyps_ChannelWriteStores :
    let s := trained (s0.setChan 3 chanA)
    let f := trained (s0.setChan 3 { chanA with fill := chanA.fill ++ (List.range 62).map (fun i => (i + 100, 0)) })
    s.chanLines 3 ≤ 2 ^ 32 - 1 ∧ 511 < s.chanLines 3 ∧ 9000 < s.chanLines 3 ∧ 90000 < f.chanLines 3 ∧ tget (s.chan 3).raw ⟨[], false, []⟩ 511 = ⟨[], false, []⟩ ∧
      (s.chan 3).stalled = [] ∧ (s.chan 3).canWrite 511 = true ∧ (s.chan 3).canWrite 9000 = true ∧
      s.mf 3 ERB_INJ_STATUS ERB_INJ_STATUS_REMAIN = 0 ∧ (15 : Nat) < 16 ∧ (2 ^ 128 - 1 : Nat) < 2 ^ 128 ∧
      ((f.chan 3).canWrite 9000 && !((f.chan 3).stalled.any (fun w => granOf w.chline == granOf 9000))) = false := by decide +kernel
theorem test_hyps_ChannelEvents :
    let s := trained (s0.setChan 3 chanA)
    let e := trained (s0.setChan 3 { chanA with valid := [] })
    let l := s0.setFld 8 0 TRL_NODE_CTL [] TRL_NODE_CTL_LOCK 1
    let full := trained (s0.setChan 3 { chanA with fill := (List.range 57).map (fun i => (i + 1, 0)) })
    let m4 : State := { s with mode := .m4 }
    s.chanLines 3 ≤ 2 ^ 32 - 1 ∧ 511 < s.chanLines 3 ∧ tget (s.chan 3).raw ⟨[], false, []⟩ 511 = ⟨[], false, []⟩ ∧
      (s.chan 3).fillMap 9 = none ∧ (s.chan 3).fillMap 1 = some 11 ∧ natBit 11 2 = false ∧
      [0, 1].all (natBit 11) = true ∧ s.chAwake 3 = true ∧ (s.chan 3).stalled = [] ∧ tget (s.chan 3).valid false 1 = false ∧
      s.mf 3 ERB_INJ_STATUS ERB_INJ_STATUS_REMAIN = 0 ∧ s.mode.up = true ∧ s.chTrained 3 = true ∧ s0.chTrained 3 = false ∧ s0.mode.up = true ∧
      512 * (s.chan 3).nextInvalid (s.chan 3).initPos ((s.chan 3).valid.length + (s.chan 3).fill.length + 1) < s.chanLines 3 ∧
      512 * (full.chan 3).nextInvalid (full.chan 3).initPos ((full.chan 3).valid.length + (full.chan 3).fill.length + 1) < full.chanLines 3 ∧
      (s.chan 3).fill.length ≤ 56 ∧ 56 < (full.chan 3).fill.length ∧ full.chTrained 3 = true ∧ s.flag 8 0x03A GK_SCRUB_CTL [] GK_SCRUB_CTL_EN = true ∧
      (s0.setFld 8 0x03A GK_SCRUB_CTL [] GK_SCRUB_CTL_EN 0).flag 8 0x03A GK_SCRUB_CTL [] GK_SCRUB_CTL_EN = false ∧
      (e.chan 3).patrolNext = none ∧ (s.chan 3).patrolNext = some 0 ∧ tget (s.chan 3).raw ⟨[], false, []⟩ 0 = ⟨[], false, []⟩ ∧
      0 ≤ s.mf 3 MEM_CFG MEM_CFG_RANKS ∧ 1 < (s.chan 3).fastRefresh.length ∧ State.reset.mode.up = false ∧
      (0x80 + 20 : BitVec 64).getLsbD 7 = true ∧ 20 ≤ (0x80 + 20 : BitVec 64).toNat / 2 ^ 0 % 32 ∧ (3 : BitVec 64).getLsbD 7 = false ∧
      l.flag 8 0 TRL_NODE_CTL [] TRL_NODE_CTL_LOCK = true ∧ s.flag 8 0 TRL_NODE_CTL [] TRL_NODE_CTL_LOCK = false ∧ s.rangeOk 0 1 = false ∧
      s.mode ≠ .m4 ∧ s.mode ≠ .m8 ∧ m4.flag 8 0 TRL_NODE_CTL [] TRL_NODE_CTL_LOCK = false ∧ m4.rangeOk 3 0 = true := by decide +kernel
/-- A flit from its destination die and stop, channel, epoch and kind. -/
def flitTo (die stop vc epoch kind : Nat) : Flit :=
  ⟨BitVec.ofNat 32 (die + stop * 16 + vc * 1024 + epoch * 2 ^ 14 + kind * 2 ^ 16), [Word.zero, Word.data 1, Word.poison 3, Word.zero]⟩
theorem test_hyps_MeshFlits :
    let y := fun (k t : Nat) => ({ die := 0, stop := 14, port := 1, flit := flitTo 0 40 1 0 k, err := 0, inj := false, tries := t } : FlitAt)
    let s := fun (k t : Nat) => ({ s0 with flitFails := [(2 ^ 16 * 0 + 2 ^ 8 * 14 + 1, y k t)] } : State)
    let way : State := { s0 with flits := [y 2 0] }
    let off : State := { s0 with injEn := false }
    s0.flits = [] ∧ s0.injectBar 0 14 1 (flitTo 0 40 1 0 2) = false ∧ off.injectBar 0 14 4 (flitTo 0 40 1 0 2) = true ∧
      ((flitTo 0 40 1 2 0).epoch + 4 - s0.epoch) % 4 = 2 ∧ ((flitTo 0 40 1 1 0).epoch + 4 - s0.epoch) % 4 ≠ 2 ∧ tfind s0.flitFails 3585 = none ∧
      (way.flits.filter (fun y => y.die == 0 && y.stop == 14 && y.port == 1) = [y 2 0] ∧ (y 2 0).err = 0 ∧ tfind way.flitFails 3585 = none ∧
        ((y 2 0).flit.epoch + 4 - way.epoch) % 4 ≠ 2) ∧
      tfind (s 2 2).flitFails 3585 = some (y 2 2) ∧ tfind (s 1 2).flitFails 3585 = some (y 1 2) ∧ tfind (s 2 1).flitFails 3585 = some (y 2 1) ∧
      (s 2 2).fld (portPeer 0 14 1).1 ((s 2 2).stopLoc (portPeer 0 14 1).1 (portPeer 0 14 1).2.1).unit ERB_INJ_STATUS [] ERB_INJ_STATUS_REMAIN = 0 ∧
      2 ≤ (y 2 2).tries ∧ (y 2 1).tries < 2 ∧ (y 2 2).flit.kind ≥ 2 ∧ (y 1 2).flit.kind < 2 ∧ portTo 9 40 = some 1 ∧ (0 : Nat) < 8 := by decide +kernel
theorem test_hyps_RouteBanksAndFlips :
    let s := fun (p : FlipPhase) (m : Mode) (b : Nat) => ({ s0.setFld 8 0x03B MESH_FLIP_STATUS [] MESH_FLIP_STATUS_BUSY b with mode := m, flip := p, injEn := true } : State)
    let h := s .hold .m5 1
    let c := (s .none .m5 0).setFld 8 0x031 TSV_CCFG [2] TSV_CCFG_VALID 1
    let d := c.setReg 0 0x040 MESH_TILEMAP [1, 0] 9
    let one : FlitAt := { die := 0, stop := 0, port := 0, flit := flitTo 0 9 1 1 0, err := 0, inj := false, tries := 0 }
    (s .none .m5 0).injEn = true ∧ 1 ≠ (s .none .m5 0).epoch % 2 ∧ (s .none .m5 0).fld 8 0x03B MESH_FLIP_STATUS [] MESH_FLIP_STATUS_BUSY = 0 ∧
      h.fld 8 0x03B MESH_FLIP_STATUS [] MESH_FLIP_STATUS_BUSY ≠ 0 ∧ h.flip = .hold ∧ h.heldFlits = [] ∧
      ({ h with flits := [one] } : State).heldFlits ≠ [] ∧ (s .none .m9 0).mode ≠ .m4 ∧ (s .none .m9 0).mode ≠ .m5 ∧ (s .none .m9 0).mode ≠ .m8 ∧
      (s .none .m5 0).admitted.any (fun n => (s .none .m5 0).contractPath 0 n != (s .none .m5 0).contractPath 1 n) = false ∧ c.admitted = [2] ∧
      d.admitted.any (fun n => d.contractPath 0 n != d.contractPath 1 n) = true ∧ d.fld 8 0x03B MESH_FLIP_STATUS [] MESH_FLIP_STATUS_BUSY = 0 ∧
      (s .flipped .m5 1).flip = .flipped ∧ (s .flipped .m5 1).meshFlits.all (fun x => x.flit.epoch == (s .flipped .m5 1).epoch) = true ∧
      ({ s .flipped .m5 1 with flits := [one] } : State).meshFlits.all (fun x => x.flit.epoch == s0.epoch) = false := by decide +kernel

theorem test_hyps_ControlSpaceAccesses :
    let w := who
    let off := regKey 15 1 GH_STATUS []
    let isErr := fun (x : Except Nat CtlAt) (e : Nat) => match x with
      | .error n => n == e
      | .ok _ => false
    let isOk := fun (x : Except Nat CtlAt) => match x with
      | .error _ => false
      | .ok _ => true
    let v := s0.setFld 15 0 TRL_BUSERR_INFO [] TRL_BUSERR_INFO_VALID 1
    let n := s0.setFld 15 1 TRL_NODE_CTL [] TRL_NODE_CTL_SNAP 1
    let b : State := { v.setFld 15 0 TRL_BUSERR_INFO [] TRL_BUSERR_INFO_KIND 3 with ctl := { v.ctl with busCycle := some v.trellisCycle } }
    s0.mode ≠ .m0 ∧ isOk (s0.ctlFind w off 8 false) = true ∧ isOk (s0.ctlFind w (regKey 8 0 MEM_RANGE [1]) 8 true) = true ∧
      isErr (s0.ctlFind w off 4 true) 1 = true ∧ isErr (s0.ctlFind w (off + 4) 8 true) 2 = true ∧ isErr (s0.ctlFind w (11 * 2 ^ 32) 8 false) 3 = true ∧
      isErr (s0.ctlFind w (14 * 2 ^ 32 + 8) 8 false) 3 = true ∧ s0.mode ≠ .m1 ∧ s0.mode ≠ .m2 ∧ w.kind < 16 ∧ (15 : Nat) < 16 ∧ (15 : Nat) ≠ 6 ∧
      v.flag 15 0 TRL_BUSERR_INFO [] TRL_BUSERR_INFO_VALID = true ∧ v.ctl.busCycle = none ∧ s0.flag 15 0 TRL_BUSERR_INFO [] TRL_BUSERR_INFO_VALID = false ∧
      (b.flag 15 0 TRL_BUSERR_INFO [] TRL_BUSERR_INFO_VALID = true ∧ b.ctl.busCycle = some b.trellisCycle ∧
        w.kind * 2 ^ 16 + w.num % 2 ^ 16 <
          b.fld 15 0 TRL_BUSERR_INFO [] TRL_BUSERR_INFO_KIND * 2 ^ 16 + b.fld 15 0 TRL_BUSERR_INFO [] TRL_BUSERR_INFO_INITIATOR) ∧
      s0.headerOn .root 15 = true ∧ s0.nodeCls 15 1 = some .gh ∧ s0.headerOn .gh 15 = true ∧ NodeCls.gh ≠ .tsv ∧
      s0.flag 15 1 TRL_NODE_CTL [] TRL_NODE_CTL_SNAP = false ∧ n.flag 15 1 TRL_NODE_CTL [] TRL_NODE_CTL_SNAP = true := by decide +kernel
theorem test_hyps_GuardedPairs :
    let w : CtlWho := ⟨3, 7, true⟩
    let k := guardKey none
    let g : GuardArm := { who := w, value := 5, time := 10 }
    let s := fun (t : Nat) => ({ s3 with time := t, ctl := { s3.ctl with guard := [(k, g)] } } : State)
    let j : State := { s3 with ctl := { s3.ctl with guard := [(guardKey (some (0, 0)), g)] } }
    let isOk := fun (x : Except Nat CtlAt) => match x with
      | .error _ => false
      | .ok _ => true
    (2 : Nat) < 2 ^ 10 ∧ s3.mode ≠ .m0 ∧ tfind s3.ctl.guard k = none ∧ tfind (s 20).ctl.guard k = some g ∧ isOk ((s 20).ctlFind w k 8 true) = true ∧
      isOk ((s 20).ctlFind w (k + 8) 8 true) = true ∧ (s 2570).time ≤ g.time + 2560 ∧ ¬ (s 2571).time ≤ g.time + 2560 ∧
      (0xFFFFFFFFFFFFFFFA : BitVec 64) = ~~~ g.value ∧ (5 : BitVec 64) ≠ ~~~ g.value ∧ tfind j.ctl.guard (guardKey (some (0, 0))) = some g ∧
      isOk (j.ctlFind w (guardKey (some (0, 0))) 8 true) = true ∧ isOk (j.ctlFind w (guardKey (some (0, 0)) + 8) 8 true) = true := by decide +kernel
theorem test_hyps_WalledWorldNode :
    let w : CtlWho := ⟨3, 7, true⟩
    let m := s3.setReg 8 0 MEM_RANGE [2] (BitVec.ofNat 64 (2 ^ 44 + 4 + 9 * 2 ^ 22))
    let v := 2 ^ 54 + 128 + 129 * 2 ^ 27
    let on := s3.setFld 15 2 WW_WDOG_CTL [] WW_WDOG_CTL_EN 1
    let warn : State := { on.setFld 15 2 WW_WDOG_CTL [] WW_WDOG_CTL_WARN_MS 1 with wdog := 10 ^ 15 }
    let range := warn.setReg 15 2 WW_RANGE [3] (BitVec.ofNat 64 v)
    s3.part = .a1 ∧ (15 : Nat) < 16 ∧ s3.headerOn .ww 15 = true ∧ s3.headerOn .gh 15 = true ∧ w.walled = true ∧ who.walled = false ∧
      (BitVec.ofNat 64 v).getLsbD 54 = true ∧ v % 2 ^ 27 ≤ v / 2 ^ 27 % 2 ^ 27 ∧ (m.memRange 2).toNat / 2 ^ 44 % 4 ≠ 0 ∧
      (m.memRange 2).toNat % 2 ^ 22 ≤ v % 2 ^ 27 / 32 ∧ v / 2 ^ 27 % 2 ^ 27 / 32 ≤ (m.memRange 2).toNat / 2 ^ 22 % 2 ^ 22 ∧
      s3.coreExists 1023 = false ∧ s3.coreExists 0 = true ∧ s3.wdogOn = false ∧ on.wdogOn = true ∧ warn.wdogWarned = false ∧
      warn.fld 15 2 WW_WDOG_CTL [] WW_WDOG_CTL_WARN_MS ≠ 0 ∧ warn.wdogLeft ≤ 1000000 ∧ warn.wdogLeft = 0 ∧ warn.mode.wdogRuns = true ∧
      warn.boot.scrub = false ∧ warn.anyWalled = false ∧ range.anyWalled = true ∧ range.wdogLeft = 0 := by decide +kernel
theorem test_hyps_CounterRounds :
    let e := s0.setFld 15 0x004 CNT_RND_CTL [] CNT_RND_CTL_EN 1
    let f := (e.setFld 15 0x004 CNT_RND_CTL [] CNT_RND_CTL_SYNC 1).setFld 15 1 GH_STATUS [] GH_STATUS_SOCKET 3
    let soon := e.setFld 15 0x004 CNT_RND_START [] CNT_RND_START_START 10000
    let r : Round := ⟨3, 8000, 9000, 64, false, 0, [], []⟩
    let l : Round := ⟨3, 8000, 8000, 64, true, 7, [], []⟩
    let b : Round := { l with left := [(1, 1), (0, 1)] }
    let put := fun (s : State) (x : Round) => ({ s with rnd := { s.rnd with rounds := [x] } } : State)
    let t : State := { put s0 l with time := 58000 }
    s0.fld 15 0x004 CNT_RND_CTL [] CNT_RND_CTL_EN = 0 ∧ e.fld 15 0x004 CNT_RND_CTL [] CNT_RND_CTL_EN ≠ 0 ∧ e.fld 15 0x004 CNT_RND_CTL [] CNT_RND_CTL_SYNC = 0 ∧
      f.fld 15 0x004 CNT_RND_CTL [] CNT_RND_CTL_EN ≠ 0 ∧ f.fld 15 0x004 CNT_RND_CTL [] CNT_RND_CTL_SYNC ≠ 0 ∧ f.socketId ≠ 0 ∧
      f.time + 10000 ≤ (20000 + (f.reg 15 3 CLK_TS_OFFSET []).toNat) % 2 ^ 64 ∧
      e.fld 15 0x004 CNT_RND_START [] CNT_RND_START_START + e.rnd.next * e.fld 15 0x004 CNT_RND_CTL [] CNT_RND_CTL_PERIOD_US * 1000 < e.time + 10000 ∧
      soon.time + 10000 ≤ soon.fld 15 0x004 CNT_RND_START [] CNT_RND_START_START ∧
      s0.rnd.rounds = [] ∧ (put s0 r).rnd.rounds.find? (fun r => !r.latched) = some r ∧ s0.time < r.own ∧
      r.own ≤ ({ put s0 r with time := 9000 } : State).time ∧ (put s0 l).rnd.rounds.find? (fun r => !r.latched) = none ∧ l.latched = true ∧
      s0.time < l.own + 50000 ∧ b.left ≠ [] ∧ t.rnd.rounds = [l] ∧ l.own + 50000 ≤ t.time ∧ l.left = [] ∧ (9 : Nat) < 10 := by decide +kernel
theorem test_hyps_UrnOperations :
    let s := q105 s1 0
    let c := q105c s1 0
    let b := qset s1 0x105 [(URN_QCFG_LOG2N, 1), (URN_QCFG_PROD, 7), (URN_QCFG_CLASS, 1)] 5 7
    let o := qset s1 0x105 [(URN_QCFG_LOG2N, 1), (URN_QCFG_PROD, 7), (URN_QCFG_CLASS, 1), (URN_QCFG_POLICY, 1)] 5 7
    let busy := List.replicate 1024 (⟨.core 5, .pop, 77, [], false, false, true⟩ : UrnWait)
    let crowd := fun (x : State) => x.setUrn 0 { x.urnHalf 0 with waiting := busy }
    let noRoom := fun (x : State) => x.setUrn 0 { x.urnHalf 0 with caddy := List.replicate 14336 ⟨0x101, 5, [Word.zero], false⟩ }
    let r := fun (x : State) => x.urnReq (.core 0)
    s1.qEn 0x105 = false ∧ (s 5 5).qEn 0x105 = true ∧ (q105 s1 1 5 5).qEn 0x105 = true ∧ (q105 s1 1 5 5).qAllowed 0x105 (r s1) true = false ∧
      (q105 s1 1 5 5).qAllowed 0x105 (r s1) false = false ∧ (s 5 5).qAllowed 0x105 (r (s 5 5)) true = true ∧ (s 5 5).qAllowed 0x105 (r (s 5 5)) false = true ∧
      (s 5 5).qWords 0x105 = 1 ∧ ((s 5 5).setQf 0x105 URN_QCFG URN_QCFG_ESZ 1).qWords 0x105 ≠ 1 ∧ (s 5 5).qContract 0x105 = none ∧
      (s 5 6).qFull 0x105 = false ∧ (s 5 6).qCount 0x105 ≠ 0 ∧ ((s 5 6).urnHalf 0).caddyRoom false 1 = true ∧
      (s 5 13).qFull 0x105 = true ∧ (s 5 13).qf 0x105 URN_QCFG URN_QCFG_CLASS = 0 ∧ b.qFull 0x105 = true ∧ b.qf 0x105 URN_QCFG URN_QCFG_CLASS ≠ 0 ∧
      b.qf 0x105 URN_QCFG URN_QCFG_POLICY = 0 ∧ o.qFull 0x105 = true ∧ o.qf 0x105 URN_QCFG URN_QCFG_POLICY ≠ 0 ∧ 2 ≤ o.qCap 0x105 ∧
      ((noRoom (s 5 6)).urnHalf 0).caddyRoom false 1 = false ∧ (noRoom (s 5 6)).qFull 0x105 = false ∧ (noRoom (s 5 6)).qCount 0x105 ≠ 0 ∧
      (s 5 5).qCount 0x105 = 0 ∧ (((s 5 5).urnHalf 0).waiting.filter (fun x => !x.caddy)).length < 1024 ∧
      1024 ≤ (((crowd (s 5 5)).urnHalf 0).waiting.filter (fun x => !x.caddy)).length ∧ (crowd (s 5 5)).qCount 0x105 = 0 ∧
      1024 ≤ (((crowd (s 5 13)).urnHalf 0).waiting.filter (fun x => !x.caddy)).length ∧ (crowd (s 5 13)).qFull 0x105 = true ∧
      (c.urnHalf 0).caddyFind 0x105 (c.qHead 0x105) = some [Word.system 5 1] ∧ (c.urnHalf 0).waiting = [] ∧ (c.urnHalf 0).hold = [] ∧
      iqOwner 0x105 = none ∧ (c.urnHalf 0).caddy = [⟨0x105, 5, [Word.system 5 1], false⟩] ∧ (s1.urnHalf 0).caddy = [] ∧ (65535 : Nat) < 65536 := by
  decide +kernel
theorem test_hyps_UrnDevicesAndDescriptors :
    let r : QReq := ⟨.function 0x100, false, 3, none⟩
    let s := q105 s1 0
    let b := qset s1 0x105 [(URN_QCFG_LOG2N, 1), (URN_QCFG_PROD, 7), (URN_QCFG_CLASS, 1)] 5 7
    let m := iqNum 0
    let i := qset s1 m [(URN_QCFG_LOG2N, 3), (URN_QCFG_ESZ, 1)] 5 6
    let tight := qset s1 m [(URN_QCFG_LOG2N, 1), (URN_QCFG_ESZ, 1)] 5 7
    let late : HoldEnt := ⟨0x105, [Word.data 5], false, false, 0⟩
    let h := s1.setUrn 0 { s1.urnHalf 0 with hold := [late] }
    let past : State := { h with time := 10 ^ 12 }
    let full := fun (x : State) => x.setUrn 0 { x.urnHalf 0 with hold := List.replicate 256 late }
    let queued := s1.setUrn 0 { s1.urnHalf 0 with ports := [.doorbell 0x100 false 0x105 [7] true false] }
    let all := (List.range 64).foldl (fun (s : State) n => s.setFld 8 0x31 TSV_CCFG [n] TSV_CCFG_VALID 1) s1
    (s 5 6).qEn 0x105 = true ∧ [(7 : BitVec 64)].length = (s 5 6).qWords 0x105 ∧ (s 5 6).qAllowed 0x105 r true = true ∧ (s 5 6).qContract 0x105 = none ∧
      (s 5 6).qFull 0x105 = false ∧ (s 5 6).qCount 0x105 ≠ 0 ∧ ((s 5 6).urnHalf 0).caddyRoom false 1 = true ∧ (s 5 13).qFull 0x105 = true ∧
      ((s 5 13).urnHalf 0).ports = [] ∧ ((s 5 13).urnHalf 0).hold.length < 256 ∧ ((full (s 5 13)).urnHalf 0).hold.length = 256 ∧
      (full (s 5 13)).qFull 0x105 = true ∧ (queued.urnHalf 0).ports ≠ [] ∧
      b.qFull 0x105 = true ∧ b.qf 0x105 URN_QCFG URN_QCFG_POLICY = 0 ∧ b.qf 0x105 URN_QCFG URN_QCFG_CLASS ≠ 0 ∧ s1.coreExists 0 = true ∧ qHalf m = 0 ∧
      i.qEn m = true ∧ i.iqRoom m 4 = true ∧ (i.urnHalf 0).caddyRoom false 2 = true ∧ i.qCount m ≠ 0 ∧ (i.urnHalf 0).waiting = [] ∧
      tight.qEn m = true ∧ tight.iqRoom m 4 = false ∧ (full tight).iqRoom m 4 = false ∧ (full tight).qEn m = true ∧
      (h.urnHalf 0).hold = [late] ∧ (h.urnHalf 0).ports = [] ∧ h.time - 0 ≤ h.fld 8 0x030 URN_CTL [] URN_CTL_HOLD_US * 1000 ∧
      past.fld 8 0x030 URN_CTL [] URN_CTL_HOLD_US * 1000 < past.time - late.since ∧ (past.urnHalf 0).hold = [late] ∧
      s1.reg 8 0x030 URN_QCFG [qIdx 0x105] &&& 1 = 0 ∧ (s1.urnHalf 0).hold = [] ∧
      (s1.enableFail 0 (s1.reg 8 0x030 URN_QBASE [qIdx 0x105])).isSome = true ∧ (s1.setReg 8 0 MEM_RANGE [0] (BitVec.ofNat 64 (2 ^ 44 + 9 * 2 ^ 22))).enableFail 0x101 0 = none ∧
      (0x80 : BitVec 64).toNat / 2 ^ 7 % 2 ^ 45 ≠ (s 5 6).qf 0x105 URN_QBASE URN_QBASE_BASE ∧
      (s 5 6).reg 8 0x030 URN_QCFG [qIdx 0x105] &&& 0xFF000000 = 0 ∧ [0, 31, 63].all (fun k => all.cf k TSV_CCFG TSV_CCFG_VALID == 1) = true ∧
      s1.tsvReq.skind ≠ 3 ∧ s1.cf 63 TSV_CCFG TSV_CCFG_VALID = 0 ∧ all.cf 63 TSV_CCFG TSV_CCFG_VALID = 1 := by decide +kernel
/-- The registers of a kiosk context: 5, 3, poison 4, a pointer, system, the least integer, -1, an aligned and an odd address. -/
def kregs (b : Nat) : Tbl Word :=
  [(b + 1, Word.data 5), (b + 2, Word.data 3), (b + 3, Word.poison 4), (b + 4, Word.pointer 0x0C00000000002000), (b + 5, Word.system 9 1),
   (b + 6, Word.data 0x8000000000000000), (b + 7, Word.data 0xFFFFFFFFFFFFFFFF), (b + 8, Word.data 0x2000), (b + 9, Word.data 0x2001)]
/-- A kiosk whose context 1 runs at 0x100, among ADDI k3, k3, -1. -/
def kiosk1 : Kiosk :=
  { Kiosk.reset with
    running := some 1, regs := kregs 16, pos := [(1, ⟨0x100, 0x104, false⟩)], dsram := [(0x400, Word.data 7)], dbad := [(0x402, 2)],
    isram := [(0x20, Word.data 0x08CFFFFF08CFFFFF), (0x40, Word.data 0x08CFFFFF08CFFFFF)] }
/-- Kiosk k enabled in that state, its context at a privilege. -/
def krun (k : Nat) (q : Kiosk) (priv : Nat) : State :=
  (((({ State.reset with mode := .m5 } : State).setKsk k q).setKf k KSK_CTL KSK_CTL_H [] KSK_CTL_EN 1).setKf k KSK_CTX KSK_CTX_H [1] KSK_CTX_STATE 3).setKf k
    KSK_CTX KSK_CTX_H [1] KSK_CTX_PRIV priv
/-- A division of a context in progress. -/
def divOf (d : Nat) : KLong := ⟨.div, 1, d, 0, Word.data 7, Word.data 3, Word.zero, 0, false, 0⟩
/-- The same context in a delay slot, in its handler, with a division in progress. -/
def kslot : Kiosk := { kiosk1 with pos := [(1, ⟨0x100, 0x104, true⟩)] }
def khandler : Kiosk :=
  { kiosk1 with handler := true, regs := kregs 16 ++ kregs 64, pos := [(1, ⟨0x100, 0x104, false⟩), (4, ⟨0x200, 0x204, false⟩)], kcr := [(1, 0x404), (2, 0x40C)] }
def kdiv : Kiosk := { kiosk1 with longs := [divOf 26] }
/-- State.kReady but for the scoreboard. -/
def kReadyB (s : State) (k : Nat) : Bool :=
  decide (k < 512) && s.kRuns k && decide ((s.ksk k).lfault = none) && (s.ksk k).irq.isNone && (tfind (s.ksk k).waits (s.ksk k).cur).isNone &&
    (s.ksk k).stopping.isEmpty && tget (s.ksk k).ibad 0 (s.kPc k / 8) == 0 && (decodeKiosk ((s.ksk k).wordAt (s.kPc k))).isSome
theorem kReady_of {s : State} {k : Nat} {uses : List (BitVec 4)} {unit : Option Nat} (h : kReadyB s k = true) (b : (s.ksk k).busy k uses unit = false) :
    s.kReady k uses unit := by
  simp only [kReadyB, Bool.and_eq_true, decide_eq_true_eq, Option.isNone_iff_eq_none, List.isEmpty_iff, beq_iff_eq] at h
  exact ⟨h.1.1.1.1.1.1.1, h.1.1.1.1.1.1.2, h.1.1.1.1.1.2, h.1.1.1.1.2, b, h.1.1.1.2, h.1.1.2, h.1.2, h.2⟩
theorem test_kReady (uses : List (BitVec 4)) (unit : Option Nat) : (krun 0 kiosk1 0).kReady 0 uses unit ∧ (krun 300 kiosk1 1).kReady 300 uses unit := by
  refine ⟨kReady_of (by decide +kernel) ?_, kReady_of (by decide +kernel) ?_⟩ <;> cases unit <;> rfl
theorem test_hyps_KioskResults : (krun 0 kiosk1 0).kReady 0 [10, 1, 2] none ∧ (krun 0 kiosk1 0).kReady 0 [10, 1, 2] (some 0) ∧
    (let s := krun 0 kiosk1 0
     let d := krun 0 kdiv 0
     (63 : BitVec 14).toNat < 64 ∧ 64 ≤ (64 : BitVec 14).toNat ∧ s.kp1 0 = false ∧ (krun 300 kiosk1 1).kp1 300 = true ∧ (511 : Nat) < 512 ∧
       State.reset.kRuns 511 = false ∧ d.kOn 0 = true ∧ d.kStat 0 KSK_STATUS_INTERR = false ∧ (d.ksk 0).stopping = [] ∧
       (d.ksk 0).longs.find? (fun l => l.kind.unit == 0) = some (divOf 26)) :=
  ⟨(test_kReady _ _).1, (test_kReady _ _).1, by decide +kernel⟩
theorem test_hyps_KioskControlFlow : (krun 0 kiosk1 0).kReady 0 [1, 2] none ∧ (krun 300 kiosk1 1).kReady 300 [1, 2] none ∧
    (krun 0 kslot 0).kReady 0 [1, 2] none ∧ (krun 300 khandler 1).kReady 300 [] none ∧ (krun 0 kdiv 0).kReady 0 [] none ∧
    (let s := krun 0 kiosk1 0
     let q := s.ksk 0
     let h := (krun 300 khandler 1).ksk 300
     ((krun 0 kslot 0).ksk 0 |>.at 1).slot = true ∧ (q.at q.cur).slot = false ∧ (s.kr 0 3).isPoison = true ∧ (s.kr 0 1).isPoison = false ∧
       condHolds 0 (s.kr 0 1).val (s.kr 0 1).val = true ∧ condHolds 0 (s.kr 0 1).val (s.kr 0 2).val = false ∧ (s.kr 0 9).val.toNat % 4 ≠ 0 ∧
       (s.kr 0 8).val.toNat % 4 = 0 ∧ kcrRead 10 = some false ∧ kcrRead 1 = some true ∧ kcrRead 31 = none ∧ s.kp1 0 = false ∧
       (krun 300 kiosk1 1).kp1 300 = true ∧ q.handler = false ∧ h.handler = true ∧ h.running = some 1 ∧ h.savedIe = false ∧ q.running = some 1 ∧
       s.kBegun 0 = false ∧ s.kStoresOut 0 = false ∧ q.longs = [] ∧ s.kCtxState 0 1 ≠ 0 ∧ ((krun 0 kdiv 0).ksk 0).longs = [divOf 26] ∧ (divOf 26).ctx = 1 ∧
       ({ s with net := [{ msg0 with kind := .wrInv, src := kskAgent 0 }] } : State).kStoresOut 0 = true) :=
  ⟨(test_kReady _ _).1, (test_kReady _ _).2, kReady_of (by decide +kernel) rfl, kReady_of (by decide +kernel) rfl, kReady_of (by decide +kernel) rfl,
   by decide +kernel⟩
/-- A kiosk for which the data of line 64 has come, with a window of memory where it is a tile kiosk, and a queue that answers it. -/
def kmem (k : Nat) : State :=
  let s := (krun k kiosk1 0).setReg 0 (kskUnit 0) KSK_TWIN [1] (0x40 + 0x80 + 0xF00 + 20)
  let s := s.setReg 8 0 MEM_RANGE [0] (BitVec.ofNat 64 (2 ^ 44 + 0 + 9 * 2 ^ 22))
  let s := ((q105 s 0 5 6).setQf 0x105 URN_QCFG URN_QCFG_CONS 2).setQf 0x105 URN_QCFG URN_QCFG_OWNID k
  { s.setUrn 0 { s.urnHalf 0 with caddy := [⟨0x105, 5, [Word.system 5 1], false⟩] } with
    net := [{ msg0 with kind := .data, src := .home 0, dst := kskAgent k, line := 64, core := none, mask := 0, data := words }] }
theorem test_hyps_KioskMemoryAndQueues : (krun 0 kiosk1 0).kReady 0 [10, 8] none ∧ (krun 0 kiosk1 0).kReady 0 [10, 8, 8] (some 1) ∧
    (krun 0 kiosk1 0).kReady 0 [10, 8, 8] (some 2) ∧ (kmem 0).kReady 0 [10, 8, 2] none ∧ (kmem 300).kReady 300 [10, 8, 8] none ∧
    (kmem 0).kReady 0 [10, 8] none ∧
    (let s := krun 0 kiosk1 0
     let r := (kmem 0).kReq 0
     let isDone := fun (x : QRes) => match x with
       | .done _ _ => true
       | .waits => false
     let isOk := fun (x : Except KStop Word × State) => match x.1 with
       | .ok _ => true
       | .error _ => false
     let put := (kmem 0).kPutPart 0 1 1 0x2000 8 8 (Word.data 7)
     (s.kr 0 3).isPoison = true ∧ (s.kr 0 8).isPoison = false ∧ ((s.kr 0 9).val).toNat % 65536 % 8 ≠ 0 ∧ ((s.kr 0 8).val).toNat % 65536 % 8 = 0 ∧
       tget kiosk1.dbad 0 0x400 = 0 ∧ (s.kr 0 5).isSystem = true ∧ s.kp1 0 = false ∧ s.qEn 5 = false ∧ (3 : BitVec 14).toNat < 4 ∧
       s.kStoresOut 0 = false ∧ (4092 : BitVec 14).toNat % 4 = 0 ∧ (4092 : BitVec 14).toNat < 4096 ∧ 65536 < (s.kr 0 7).val.toNat ∧
       (s.kr 0 8).val.toNat ≤ 65536 ∧ (s.kr 0 8).val.toNat % 8 = 0 ∧ (s.kr 0 2).val.toNat % 8 ≠ 0 ∧ (15 : BitVec 14).toNat < 16 ∧
       (s.ksk 0).longs = [] ∧ isDone ((kmem 0).urnPop r 0x105 false true).1 = true ∧
       isDone ((kmem 0).urnPush r 0x105 [Word.data 3] false true).1 = true ∧ isDone ((kmem 0).urnWaitOp r 0x105).1 = true ∧
       (isOk ((kmem 0).kGetPart 0 1 1 0x2000 8 8) = true ∧ isOk (Prod.map (fun x => x.map (fun _ => Word.zero)) id put) = true ∧
         ((kmem 0).kr 0 8).val.toNat % 2 ^ 58 = 0x2000 ∧ ((kmem 0).ksk 0).cur = 1 ∧ (kmem 0).walledMem 0x2000 = false ∧
         ((kmem 0).classify 0x2000).isDevice = false ∧ twinHas ((kmem 0).reg 0 (kskUnit 0) KSK_TWIN [1]) true 1 0x2000 8 = true ∧
         twinHas ((kmem 0).reg 0 (kskUnit 0) KSK_TWIN [1]) false 1 0x2000 8 = true ∧ (kmem 0).kStores 0 = [] ∧ ((kmem 0).ksk 0).stale = [] ∧
         ((kmem 0).net.find? (fun m => m.dst == kskAgent 0 && m.line == 0x2000 / 128 && m.kind == .data)).isSome = true) ∧
       ((kmem 0).qEn 0x105 = true ∧ (kmem 0).qAllowed 0x105 r true = true ∧ (kmem 0).qAllowed 0x105 r false = true ∧ (kmem 0).qWords 0x105 = 1 ∧
         (kmem 0).qContract 0x105 = none ∧ (kmem 0).qFull 0x105 = false ∧ (kmem 0).qCount 0x105 ≠ 0 ∧ ((kmem 0).urnHalf 0).caddyRoom false 1 = true ∧
         ((kmem 0).urnHalf 0).caddyFind 0x105 ((kmem 0).qHead 0x105) = some [Word.system 5 1] ∧ ((kmem 0).urnHalf 0).waiting = [] ∧
         ((kmem 0).urnHalf 0).hold = [] ∧ iqOwner 0x105 = none ∧ (kmem 300).qEn 0x105 = true ∧
         (kmem 300).qAllowed 0x105 ((kmem 300).kReq 300) false = true ∧ (kmem 300).qCount 0x105 ≠ 0)) :=
  ⟨(test_kReady _ _).1, (test_kReady _ _).1, (test_kReady _ _).1, kReady_of (by decide +kernel) rfl, kReady_of (by decide +kernel) rfl,
   kReady_of (by decide +kernel) rfl, by decide +kernel⟩
theorem test_hyps_KioskEvents :
    let s := krun 0 kiosk1 0
    let q := fun (x : Kiosk) => krun 0 x 0
    let i := q { kiosk1 with kcr := [(0, 1), (5, 0x1200), (8, 0x703), (7, 50)] }
    let n := q { kiosk1 with kcr := [(0, 1), (8, 0x703)], running := none }
    let f : KFault := ⟨1, 0x40, 4, 1, none⟩
    let l := q { kiosk1 with lfaults := [f] }
    let d := (q { kiosk1 with running := none }).setKf 0 KSK_CTX KSK_CTX_H [2] KSK_CTX_STATE 1
    let idle := (q { kiosk1 with running := none }).setKf 0 KSK_CTX KSK_CTX_H [1] KSK_CTX_STATE 2
    let w : KWait := ⟨.wait, 5, 26, 0, false, 0, none⟩
    let a : UrnAns := ⟨.kiosk 0 1, 3, [], none⟩
    let t : State := { (q { kiosk1 with waits := [(1, w)], running := none }).setKf 0 KSK_CTX KSK_CTX_H [1] KSK_CTX_STATE 2 with urnAns := [a] }
    let m := krun 300 { kiosk1 with waits := [(1, w)], kcr := [(0, 1), (8, 0x703)] } 1
    let late : State := { s with urnAns := [a] }
    let going := q { kiosk1 with stopping := [(1, 0)] }
    let off := s.setKf 0 KSK_CTL KSK_CTL_H [] KSK_CTL_EN 0
    s.kReady 0 [10, 1, 2] none ∧ (kiosk1.handler = false ∧ kiosk1.running ≠ none ∧ 64 ≤ (64 : BitVec 14).toNat ∧ kiosk1.irq = none ∧ (i.ksk 0).irq = some 0 ∧
      (n.ksk 0).irq = some 0 ∧ (n.ksk 0).running = none ∧ i.kEn 0 = true ∧ i.kOn 0 = true ∧ i.kStat 0 KSK_STATUS_DFAULT = false ∧
      i.kStat 0 KSK_STATUS_INTERR = false ∧ i.kStat 0 KSK_STATUS_SRAM_CLR = false ∧
      (m.kRuns 300 = true ∧ m.kBegun 300 = true ∧ (m.ksk 300).irq.isSome = true ∧ (m.ksk 300).running = some 1 ∧ (m.ksk 300).handler = false ∧
        m.kCtxState 300 1 = 3 ∧ m.kEn 300 = true ∧ tfind (m.ksk 300).stopping 1 = none) ∧
      l.kRuns 0 = true ∧ l.kBegun 0 = false ∧ (l.ksk 0).lfault = some f ∧ 0x100 ≠ (f.pc + 4) % 65536 ∧
      (s.setFld 15 1 GH_TILE_FATAL [0] GH_TILE_FATAL_FATAL 1).kGone 0 = true ∧ s.kGone 0 = false) ∧ (
      kiosk1.longs = [] ∧ s.kStoresOut 0 = false ∧ s.kCtxState 0 1 ≠ 0 ∧ s.kCtxState 0 0 = 0 ∧ (d.ksk 0).running = none ∧ d.kCtxState 0 (((d.ksk 0).last + 1 + 2) % 4) = 1 ∧
      d.kCtxState 0 (((d.ksk 0).last + 1 + 0) % 4) ≠ 1 ∧ d.kCtxState 0 (((d.ksk 0).last + 1 + 1) % 4) ≠ 1 ∧ [0, 1, 2, 3].all (fun c => idle.kCtxState 0 c != 1) = true ∧
      kiosk1.running = some 1 ∧ s.kBegun 0 = false ∧ s.tileOpen 0 = true ∧ tfind kiosk1.waits 1 = none ∧ late.urnAns = [a] ∧ (late.ksk 0).running = some 1 ∧
      t.kOn 0 = true ∧ (t.ksk 0).running ≠ some 1 ∧
      tfind (t.ksk 0).waits 1 = some w ∧ t.urnAns.find? (fun a => a.who == .kiosk 0 1) = some a ∧ a.words = [] ∧ t.kCtxState 0 1 = 2 ∧
      tfind (t.ksk 0).stopping 1 = none ∧ s.kWalled 0 = false ∧
      [0, 1, 2, 3].all (fun c => s.kCtxState 0 c != 2) = true ∧ kiosk1.stopping = [] ∧ tfind (going.ksk 0).stopping 1 = some 0 ∧
      s.part = .a1 ∧ off.kEn 0 = false ∧ ((q kdiv).ksk 0).longs = [divOf 26] ∧ (divOf 26).ctx = 1 ∧ (q kdiv).kBegun 0 = false) := by
  intro s q i n f l d idle w a t m late going off
  exact ⟨(test_kReady _ _).1, by decide +kernel, by decide +kernel⟩

/-! A package whose cores all wait and whose tiles are all at one state. -/

/-- A core that waits in a QPOP. -/
def waiting : Core := { core 0 with wait := some ⟨.wait, 0, 0, 0, false, [], none⟩ }
/-- Where the status register of tile k lies, and whether a number is such a place. -/
def tileAt (k : Nat) : Nat := k / 32 * 2 ^ 32 + 0x14001010 + 0x20 * (k % 32)
def tileKey (n : Nat) : Bool := within 0x14001010 (n % 2 ^ 32) 0x140013F0 && n % 0x20 == 0x10
/-- The status registers of every tile. -/
def tileRegs (n : Nat) : Tbl (BitVec 64) := (List.range 256).map (fun k => (tileAt k, BitVec.ofNat 64 n))
/-- Every core waiting. -/
@[irreducible] def waitCores : Tbl Core := (List.range 512).map (fun k => (k, waiting))
/-- Every core waits, every tile is at state n, and PWR_PKG_CTL holds v. -/
def idle (n : Nat) (v : BitVec 64) : State :=
  { s0 with cores := waitCores, regs := tileRegs n ++ [(regKey 15 5 PWR_PKG_CTL [], v)] }
/-- The same without the tiles' registers. -/
def idle0 (v : BitVec 64) : State := { s0 with cores := [], regs := [(regKey 15 5 PWR_PKG_CTL [], v)] }
theorem tget_append {α : Type} (a b : Tbl α) (d : α) (k : Nat) : tget (a ++ b) d k = tget a (tget b d k) k := by
  induction a with
  | nil => rfl
  | cons p r ih => simp only [List.cons_append, tget]; split <;> simp_all
theorem tget_const {α : Type} (t : Tbl α) (d v : α) (k : Nat) (h : ∀ p ∈ t, p.2 = v) (hm : ∃ p ∈ t, p.1 = k) : tget t d k = v := by
  induction t with
  | nil => obtain ⟨p, hp, -⟩ := hm; cases hp
  | cons p r ih =>
    simp only [tget]
    split
    · exact h p List.mem_cons_self
    · obtain ⟨q, hq, rfl⟩ := hm
      refine ih (fun x hx => h x (List.mem_cons_of_mem _ hx)) ⟨q, ?_, rfl⟩
      cases hq with
      | head => contradiction
      | tail _ hq => exact hq
theorem tget_miss {α : Type} (t : Tbl α) (d : α) (k : Nat) (h : ∀ p ∈ t, p.1 ≠ k) : tget t d k = d := by
  induction t with
  | nil => rfl
  | cons p r ih =>
    simp only [tget]
    rw [if_neg (h p List.mem_cons_self), ih (fun x hx => h x (List.mem_cons_of_mem _ hx))]
theorem tileAt_key : ∀ k < 256, tileKey (tileAt k) = true := by decide +kernel
/-- A register that is no tile's status register. -/
theorem idle_reg (n : Nat) (v : BitVec 64) (die unit : Nat) (r : RegDef) (idx : List Nat) (h : tileKey (regKey die unit r idx) = false) :
    (idle n v).reg die unit r idx = (idle0 v).reg die unit r idx := by
  show tget (tileRegs n ++ _) _ _ = _
  rw [tget_append, tget_miss]
  · rfl
  · intro p hp
    simp only [tileRegs, List.mem_map, List.mem_range] at hp
    obtain ⟨k, hk, rfl⟩ := hp
    intro e
    rw [← e, tileAt_key k hk] at h
    cases h
theorem idle_tile (n : Nat) (v : BitVec 64) (k : Nat) (h : k < 256) :
    (idle n v).reg (domLoc (tileDom k)).1 (domLoc (tileDom k)).2.1 (domReg (tileDom k) PWR_DOM_STATUS PWR_DOM_STATUS_I) [(domLoc (tileDom k)).2.2] =
      BitVec.ofNat 64 n := by
  have e : ∀ k < 256, regKey (domLoc (tileDom k)).1 (domLoc (tileDom k)).2.1 (domReg (tileDom k) PWR_DOM_STATUS PWR_DOM_STATUS_I)
      [(domLoc (tileDom k)).2.2] = tileAt k := by decide +kernel
  show tget (tileRegs n ++ _) _ _ = _
  rw [tget_append, e k h]
  refine tget_const _ _ _ _ (fun p hp => ?_) ⟨(tileAt k, BitVec.ofNat 64 n), List.mem_map.2 ⟨k, List.mem_range.2 h, rfl⟩, rfl⟩
  simp only [tileRegs, List.mem_map] at hp
  obtain ⟨j, -, rfl⟩ := hp
  rfl
theorem waitCores_hit (d : Core) (k : Nat) (h : k < 512) : tget waitCores d k = waiting := by
  unfold waitCores
  refine tget_const _ _ _ _ (fun p hp => ?_) ⟨(k, waiting), List.mem_map.2 ⟨k, List.mem_range.2 h, rfl⟩, rfl⟩
  simp only [List.mem_map] at hp
  obtain ⟨j, -, rfl⟩ := hp
  rfl
theorem idle_core (n : Nat) (v : BitVec 64) (k : Nat) (h : k < 512) : (idle n v).core k = waiting := by
  unfold State.core idle
  exact waitCores_hit _ k h
theorem idle_allIdle (n : Nat) (v : BitVec 64) : (idle n v).allIdle = true := by
  rw [State.allIdle, List.all_eq_true]
  intro k hk
  rw [List.mem_range] at hk
  simp only [State.tileIdle, List.all_cons, List.all_nil, idle_core n v (2 * k) (by omega), idle_core n v (2 * k + 1) (by omega)]
  simp [waiting]
theorem any_same (l : List Nat) (p q : Nat → Bool) (h : ∀ k ∈ l, p k = q k) : l.any p = l.any q := by
  induction l with
  | nil => rfl
  | cons x r ih => rw [List.any_cons, List.any_cons, h x List.mem_cons_self, ih (fun k hk => h k (List.mem_cons_of_mem _ hk))]
theorem find_same (l : List Nat) (p q : Nat → Bool) (h : ∀ k ∈ l, p k = q k) : l.find? p = l.find? q := by
  induction l with
  | nil => rfl
  | cons x r ih => rw [List.find?_cons, List.find?_cons, h x List.mem_cons_self, ih (fun k hk => h k (List.mem_cons_of_mem _ hk))]
theorem idle_contracts (n : Nat) (v : BitVec 64) : (idle n v).contracts = (idle0 v).contracts := by
  have e : ∀ k < 64, tileKey (regKey 8 0x031 TSV_CCFG [k]) = false := by decide +kernel
  unfold State.contracts
  refine any_same _ _ _ fun k hk => ?_
  simp only [State.cf, State.fld, idle_reg n v 8 0x031 TSV_CCFG [k] (e k (List.mem_range.1 hk))]
theorem idle_kEn (n : Nat) (v : BitVec 64) : (List.range 256).any (idle n v).kEn = (List.range 256).any (idle0 v).kEn := by
  have e : ∀ k < 256, tileKey (regKey (kskDie k) (kskUnit k) KSK_CTL []) = false := by decide +kernel
  refine any_same _ _ _ fun k hk => ?_
  have hk := List.mem_range.1 hk
  simp only [State.kEn, State.kf, if_pos hk, State.fld, idle_reg n v _ _ KSK_CTL [] (e k hk)]
theorem idle_held (n : Nat) (v : BitVec 64) : (idle n v).heldDomain = (idle0 v).heldDomain := by
  have e : ∀ d < 0x280, tileKey (regKey (domLoc d).1 (domLoc d).2.1 (domReg d PWR_DOM_VOTE PWR_DOM_VOTE_I) [(domLoc d).2.2]) = false := by
    decide +kernel
  refine find_same _ _ _ fun d hd => ?_
  simp only [State.wHeld, State.domVote, State.domF, State.fld, idle_reg n v _ _ _ _ (e d (List.mem_range.1 hd))]
  rfl
theorem idle_m7Bar (n : Nat) (v : BitVec 64) : (idle n v).m7Bar = (idle0 v).m7Bar := by
  simp only [State.m7Bar, idle_kEn, idle_contracts, idle_held]
theorem idle_domSt (n : Nat) (v : BitVec 64) (k : Nat) (h : k < 256) (f : RField) : (idle n v).domSt (tileDom k) f = field (BitVec.ofNat 64 n) f.lo f.n := by
  simp only [State.domSt, State.domF, State.fld, idle_tile n v k h]
theorem idle_tileSt (n : Nat) (v : BitVec 64) (k : Nat) (h : k < 256) : (idle n v).tileSt k = field (BitVec.ofNat 64 n) 0 3 := by
  have e : ∀ k < 256, (domLoc (tileDom k)).1 = ltDie k ∧ (domLoc (tileDom k)).2.1 = 0x50 ∧ (domLoc (tileDom k)).2.2 = ltIdx k ∧
      domReg (tileDom k) PWR_DOM_STATUS PWR_DOM_STATUS_I = PWR_DOM_STATUS := by decide +kernel
  have t := idle_tile n v k h
  rw [(e k h).1, (e k h).2.1, (e k h).2.2.1, (e k h).2.2.2] at t
  simp only [State.tileSt, State.fld, t]
  rfl
/-- M6 is entered from there, and M7 when it was asked for. -/
theorem test_hyps_PowerLevelsAndSleep_m6 :
    let s := idle 2 0x10578
    s.mode = .m5 ∧ (∀ k < 256, s.domSt (tileDom k) PWR_DOM_STATUS_STATE ≥ 2 ∧ s.domSt (tileDom k) PWR_DOM_STATUS_BUSY = 0) ∧
      s.flag 15 5 PWR_PKG_CTL [] PWR_PKG_CTL_M6_EN = true ∧ s.contracts = false := by
  refine ⟨rfl, fun k h => ?_, by decide +kernel, by rw [idle_contracts]; decide +kernel⟩
  rw [idle_domSt _ _ k h, idle_domSt _ _ k h]
  decide
theorem test_hyps_PowerLevelsAndSleep_m7 :
    let s := idle 3 0x20578
    s.mode = .m5 ∧ s.flag 15 5 PWR_PKG_CTL [] PWR_PKG_CTL_M7_REQ = true ∧ s.m7Bar = none ∧ s.allIdle = true ∧ ∀ k < 256, s.tileSt k ≥ 3 := by
  refine ⟨rfl, by decide +kernel, by rw [idle_m7Bar]; decide +kernel, idle_allIdle _ _, fun k h => ?_⟩
  rw [idle_tileSt _ _ k h]
  decide

/-- Normal memory behind channel window 0. -/
def mem0 (s : State) : State := s.setReg 8 0 MEM_RANGE [0] (BitVec.ofNat 64 (2 ^ 44 + 9 * 2 ^ 22))
/-- Port 0 with four root ports, CXL and hot-plug on its last two; links 0, 1, 2 and 20 are up. -/
def ioBase : State :=
  let p : PortCfg := { option := 4, cxl := 2, hp := 4, ssc := 0, power := [0, 0, 0, 0], slot := [0, 0, 0, 0] }
  let s : State := { mem0 s0 with bootCfg := { BootCfg.reset with ports := p :: List.replicate 9 PortCfg.none } }
  { s with io := { s.io with linkUp := [(0, true), (1, true), (2, true), (20, true)] } }
/-- One word of memory written. -/
def mw (s : State) (pa : Nat) (w : Word) : State :=
  match s.classify pa with
  | .dram _ ch l => s.chanWrite ch l ((if (s.chan ch).lineDone l then s.dramLine ch l else zeroLine).set (pa % 128 / 8) w) (2 ^ 128 - 1) false
  | _ => s
/-- A device-table entry. -/
def dt (s : State) (rid : Nat) (w0 : BitVec 64) : State := mw (mw s (0x100000 + 16 * rid) ⟨w0, 0x81⟩) (0x100000 + 16 * rid + 8) ⟨0, 0x81⟩
/-- The IOMMU on, root port 0 a bus master, device 0x155 bypasses with ATS, 0x158 has no ATS page, 0x157 no entry. -/
def ioOn : State :=
  let s := ioBase.setCfgF (rpRid 0) 1 2 1 1
  let s := (s.setFld 8 0x039 IOM_CTL [] IOM_CTL_EN 1).setFld 8 0x039 IOM_DTBASE [] IOM_DTBASE_BASE (0x100000 / 2 ^ 14)
  mw (dt (dt (dt s 0x155 0x13) 0x158 0x15) 0x157 0) 0 ⟨0, 0x81⟩
/-- PF 0 claims its doorbell window. -/
def bell (s : State) : State := ((s.cfgSet (pfRid 0) 4 0xD0000000).setCfgF (pfRid 0) 1 1 1 1).setCfgF (pfRid 0) 1 2 1 1
def tl (w : Bool) (addr size rid : Nat) : Tlp :=
  { rp := 0, rid := rid, pasid := none, addr := addr, write := w, size := size, data := [0x1122334455667788, 3], poison := false }
def mayPass (s : State) (t : Tlp) (ats : Bool) : Bool :=
  let a := s.portTlp t.rp false (if t.write then t.size else 0)
  s.rpRuns t.rp && s.mode != .m6 && s.mode != .m7 && t.size != 0 && decide (t.addr % 4096 + t.size ≤ 4096) && decide (t.write = true → t.size ≤ 512) &&
    !(t.write && t.poison) && a.cfgF (rpRid t.rp) 1 2 1 == 1 && !a.acsBad t ats && a.io.reads.all (fun p => !(p.t.write && (p.t.rp == t.rp || (t.write && p.t.rp / 4 == t.rp / 4))))
/-- What the IOMMU makes of a request: its page, its world, and whether it may write. -/
def comes (s : State) (t : Tlp) : Option (Nat × Bool × Bool × State) :=
  match (s.portTlp t.rp false (if t.write then t.size else 0)).ioTranslate 0 t.rid (t.pasid.getD 0) t.addr with
  | (.ok pa _ _ x w, b) => some (pa, w, x, b)
  | _ => none
def refused (s : State) (t : Tlp) : Bool :=
  match (s.portTlp t.rp false (if t.write then t.size else 0)).ioTranslate 0 t.rid (t.pasid.getD 0) t.addr with
  | (.refused, _) => true
  | _ => false
/-- What the IOMMU makes of a translated request: its world, or its refusal. -/
def atsIs (x : Except IoRes Bool) : Option (Option Bool) :=
  match x with
  | .ok b => some (some b)
  | .error .refused => some none
  | .error _ => none
/-- A CXL window, and a home that waits for a read of it. -/
def cxlUp : State := ioOn.setReg 8 0x039 IOM_CXLWIN [0] (BitVec.ofNat 64 (2 ^ 44 + 1024 + 1024 * 2 ^ 22))
def cxlRead : State := (cxlUp.ncRead (.nca 520) (2 ^ 33 + 3) false).2
theorem test_hyps_IoInbound :
    let s := ioOn
    let walled := s.setReg 15 2 WW_RANGE [0] (BitVec.ofNat 64 (2 ^ 54 + 1 * 2 ^ 27))
    let rd := tl false 0x2004 8 0x155
    let wr := tl true 0x207C 16 0x155
    let msi := tl true 0xFFFE000001004 4 0x155
    let db := tl true 0xD0000040 8 0x155
    let ats := (s.portTlp 0 false 0).atsOk 0 0x155
    let hid : State := (s.setCfgF (clRid 3) 0x83 0 1 1).setCfgF (clRid 3) 0x85 0 1 1
    let poison := mw s 0x2000 (Word.poison 3)
    let far := tl false (0x10000000000 + 384) 8 0x155
    let m : MmioReq := ⟨.config, 0, 0x1000, 4, true, true, none⟩
    let q : State := { s with io := { s.io with mmio := [m] } }
    let below := (s.setCfgF (rpRid 0) 6 8 8 6).setCfgF (rpRid 0) 6 16 8 8
    let line := 2 ^ 33 + 3
    (s.rpRuns 39 = false ∧ s.rpRuns 0 = true ∧ (39 : Nat) < 40 ∧ s.mode ≠ .m6 ∧ s.mode ≠ .m7 ∧ mayPass s rd false = true ∧ mayPass s rd true = true ∧
      mayPass s wr false = true ∧ mayPass s wr true = true ∧ atsIs ats.1 = some (some false) ∧ 0x2004 + 8 < 2 ^ 52 ∧
      (comes s rd).map (fun x => (x.1, x.2.1)) = some (0x2004, false) ∧ (comes s wr).map (fun x => (x.1, x.2.1, x.2.2.1)) = some (0x207C, false, true) ∧
      (s.classify 0x2004).isDevice = false ∧ s.walledMem 0x2004 = false ∧ mayPass walled rd false = true ∧ walled.walledMem 0x2004 = true ∧
      (comes walled rd).isSome = true ∧ linesOf 0x2004 8 = [64] ∧ linesOf 0x207C 16 = [64, 65] ∧ 0x2004 % 512 + 8 ≤ 512) ∧
    (((comes s rd).map (fun x => (x.2.2.2.ncRead (portAgent 0) 64 false).1.isSome)) = some true ∧
      ((comes poison rd).map (fun x => (x.2.2.2.ncRead (portAgent 0) 64 false).1.map (fun ws => (ws.getD 0 Word.zero).isPoison))) = some (some true) ∧
      mayPass poison rd false = true ∧
      (comes cxlUp far).map (fun x => (x.2.2.2.classify x.1).isDevice) = some false ∧ mayPass cxlUp far false = true ∧
      ((comes cxlUp far).map (fun x => (x.2.2.2.ncRead (portAgent 0) (2 ^ 33 + 3) false).1.isNone)) = some true ∧
      s.classify 0xFFFE000001004 = .msi 0x1004 ∧ (comes s msi).isSome = true ∧ mayPass s msi false = true ∧
      ((comes (bell s) db).map (fun x => (x.2.2.2.claimOf 0xD0000040, x.2.2.2.bellQueue (x.2.2.2.claimOf 0xD0000040)))) = some (.pfBell 0 0x40, some (1, pfRid 0))) ∧
    (mayPass (bell s) db false = true ∧ (bell s).cfgF (pfRid 0) 0x85 0 1 = 0 ∧ refused s (tl false 0x2000 8 0x157) = true ∧
      mayPass s (tl false 0x2000 8 0x157) false = true ∧ atsIs (s.atsOk 0 0x157).1 = some none ∧ s.cfgF (rpRid 1) 1 2 1 = 0 ∧ s.rpRuns 1 = true ∧
      refused s (tl false 0x2008 8 0x158) = true ∧ atsIs (s.atsOk 0 0x158).1 = some (some false) ∧
      s.cfgTarget (clRid 3) = .fn ∧ (s.fnOf (clRid 3)).integrated = true ∧ hid.fnWalled (clRid 3) = true ∧ s.fnWalled (clRid 3) = false ∧
      (4 : Nat) ∉ [1, 0x12, 0x16, 0x20, 0x83] ∧ s.cfgTarget 0x0700 = .absent ∧ below.cfgTarget 0x0700 = .below 0 ∧ below.io.mmio = [] ∧
      hid.cfgF (clRid 3) 0x85 0 1 = 1 ∧ s.cfgF (clRid 3) 0x85 0 1 = 0 ∧
      q.io.mmio.find? (fun x => x.port == 0 && x.sent && x.answer.isNone) = some m ∧ q.io.mmio = [m] ∧ m.sent = true ∧ s.io.mmio = [] ∧
      line ∉ (s.home (s.homeOf line)).cxlReads ∧ line ∈ (cxlRead.home (cxlRead.homeOf line)).cxlReads ∧
      ((cxlRead.home (cxlRead.homeOf line)).txn line).map (fun x => x.phase) = some .upper ∧ cxlRead.classify (line * 128) = .cxl 0 0) := by
  intro s walled rd wr msi db ats hid poison far m q below line
  exact ⟨by decide +kernel, by decide +kernel, by decide +kernel⟩
theorem test_hyps_IoControl :
    let s := ioBase
    let going := fun (come : Bool) => (({ s with io := { s.io with inv := [(0, ⟨come, ⟨[], []⟩⟩)] } } : State).setFld 8 0x39 IOM_INV [] IOM_INV_GO 1).setFld 8 0x39
      IOM_INV [] IOM_INV_RID 0x155
    let go := going false
    let sync := go.setFld 8 0x39 IOM_INV [] IOM_INV_KIND 3
    let rd : InReq := { InReq.arrived (tl false 0x2004 8 0x155) true with dest := some (0x2004, false) }
    let held : State := { s with io := { s.io with reads := [rd] } }
    let heldGo : State := { go with io := { go.io with reads := [rd] } }
    let busy : State := { s with net := [{ msg0 with kind := .wrInv, src := kskAgent 256 }] }
    let slot := fun (t : State) (x : Slot) => ({ t with io := { t.io with slots := [(2, x)] } } : State)
    let fb := fun (t : State) (n : Nat) => t.setFld 9 0x19 FB_STATUS [] FB_STATUS_STATE n
    let rt := (fb ((s.setFld 8 0x18 FB_ROUTE [] (FB_ROUTE_VALID 3) 1).setFld 8 0x18 FB_ROUTE [] (FB_ROUTE_LINK 3) 4) 1)
    let p1 := slot s ⟨true, 7, 7, 0, none, false⟩
    let p2 := slot s ⟨false, 2499, 0, 0, none, false⟩
    ((1 : Nat) < 2 ∧ (some 3 : Option Nat) = some 3 ∧ s.fld 8 0x039 IOM_INV [] IOM_INV_GO = 0 ∧ go.fld 8 0x039 IOM_INV [] IOM_INV_GO = 1 ∧
      (0x5000 : Nat) % 4096 = 0 ∧ tfind s.io.inv 0 = none ∧ tfind go.io.inv 0 = some ⟨false, ⟨[], []⟩⟩ ∧ tfind (going true).io.inv 0 = some ⟨true, ⟨[], []⟩⟩ ∧
      go.io.reads = [] ∧ (List.range 8).all (fun k => clRid k != 0x155) = true ∧ go.fld 8 0x039 IOM_INV [] IOM_INV_RID = 0x155 ∧
      go.fld 8 0x039 IOM_INV [] IOM_INV_KIND ≠ 3 ∧ sync.fld 8 0x039 IOM_INV [] IOM_INV_KIND = 3 ∧ tfind sync.io.inv 0 ≠ none ∧
      held.fld 8 0x039 IOM_INV [] IOM_INV_GO = 0 ∧ held.io.reads = [rd] ∧ rd.t.rp / 20 = 0 ∧ rd.dest ≠ none ∧ rd.translated = true ∧ rd.t.rid = 0x155 ∧
      heldGo.io.reads = [rd] ∧ tfind heldGo.io.inv 0 = some ⟨false, ⟨[], []⟩⟩ ∧ s.io.reads = [] ∧ s.io.mmio = [] ∧ s.io.atsWaits = [] ∧
      (List.range 128).all (fun k => (s.kRequests (256 + k)).isEmpty) = true ∧ busy.kRequests 256 ≠ [] ∧ 256 ∈ clKiosks 0) ∧ ( (List.range 4).all (fun r => !s.rpHp (36 + r)) = true ∧
      s.rpHp 2 = true ∧ [0, 1, 3].all (fun r => !s.rpHp r) = true ∧ (p1.slot 2).prsnt = true ∧ (p1.slot 2).unsent = false ∧ (p1.slot 2).pwrSince = none ∧
      (p1.slot 2).attn = 7 ∧ natBit (0x30000 / 2 ^ 16 % 256) 0 = true ∧ natBit (0x30000 / 2 ^ 16 % 256) 1 = true ∧ p1.cfgF (rpRid 2) 0x16 5 1 = 0 ∧
      (p2.slot 2).equal = 2499 ∧ natBit (0 / 2 ^ 16 % 256) 0 = (p2.slot 2).prsnt ∧ (p2.setCfgF (rpRid 2) 0x16 22 1 1).cfgF (rpRid 2) 0x16 22 1 = 1 ∧
      s.rpHp 39 = false ∧ (fb s 2).fld 9 0x19 FB_STATUS [] FB_STATUS_STATE = 2 ∧ (fb s 1).fld 9 0x19 FB_STATUS [] FB_STATUS_STATE = 1 ∧
      s.mode.ioRuns = true ∧ tget s.io.retrain 0 4 < 3 ∧ ({ s with mode := .m2 } : State).mode.ioRuns = false ∧ rt.fbLinkTo 3 = some 4 ∧
      (List.range 8).all (fun k => s.fbLinkTo k != some 4) = true ∧ natBit 0 3 = false ∧ s.rpExists 0 = true ∧ s.rpHp 0 = false ∧
      s.domSt 0x208 PWR_DOM_STATUS_STATE ≠ 3 ∧ s.rpExists 39 = false ∧ tget s.io.linkUp false 2 = true ∧ s.cfgF (rpRid 2) 0x16 5 1 = 0) := by
  intro s going go sync rd held heldGo busy slot fb rt p1 p2
  exact ⟨by decide +kernel, by decide +kernel⟩
/-- A domain's fields set. -/
def ds (s : State) (d : Nat) (l : List (RField × Nat)) : State := l.foldl (fun (s : State) (x : RField × Nat) => s.setDomSt d x.1 x.2) s
def dc (s : State) (d : Nat) (l : List (RField × Nat)) : State := l.foldl (fun (s : State) (x : RField × Nat) => s.setDomF d PWR_DOM_CTL PWR_DOM_CTL_I x.1 x.2) s
def dv (s : State) (d : Nat) (l : List (RField × Nat)) : State := l.foldl (fun (s : State) (x : RField × Nat) => s.setDomF d PWR_DOM_VOTE PWR_DOM_VOTE_I x.1 x.2) s
/-- A boot state changed. -/
def bt (s : State) (f : BootState → BootState) : State := { s with boot := f s.boot }
/-- A fatal error in this Trellis cycle. -/
def fatalAt (s : State) : State := bt s (fun b => { b with event := some (s.trellisCycle, 3) })
theorem test_hyps_PowerDomains :
    let s := s0
    let ow : CtlWho := ⟨0, 0, false⟩
    let held := dv s 0x200 [(PWR_DOM_VOTE_WALLED, 1)]
    let busy := fun (n : Nat) => ds s 0x200 [(PWR_DOM_STATUS_BUSY, 1), (PWR_DOM_STATUS_PROG, n)]
    let pol := fun (n : Nat) => dc s 0x200 [(PWR_DOM_CTL_POLICY, n), (PWR_DOM_CTL_LOWSTATE, 1)]
    let off := ds s 0x250 [(PWR_DOM_STATUS_STATE, 3)]
    let two : State := s.setHeld 0x208 [[], []]
    let st := fun (x : State) (d : Nat) (f : RField) => x.domSt d f
    let ranked := fatalAt s
    let low := ds s 0 [(PWR_DOM_STATUS_BUSY, 1), (PWR_DOM_STATUS_PROG, 2)]
    domCls 0 = some .tile ∧ domCls 0x200 = some .chan ∧ domCls 0x208 = some .port ∧ domCls 0x400 = none ∧
      (s.domRefusal 0 7).isSome = true ∧ s.domRefusal 0 1 = none ∧ st s 0 PWR_DOM_STATUS_STATE = 0 ∧ s.lowerOk 0 1 = false ∧
      (busy 1).domRefusal 0x200 1 = none ∧ st (busy 1) 0x200 PWR_DOM_STATUS_BUSY = 1 ∧ st (busy 1) 0x200 PWR_DOM_STATUS_PROG = 1 ∧
      s.domRefusal 0x200 1 = none ∧ held.part = .a1 ∧ ow.walled = false ∧ (held.wHeld 0x200) = true ∧ s.wHeld 0x200 = false ∧
      st s 0x200 PWR_DOM_STATUS_PEND = 0 ∧ (pol 2).domCtl 0x200 PWR_DOM_CTL_POLICY = 2 ∧ (dv (pol 2) 0x200 [(PWR_DOM_VOTE_OPEN, 5)]).domVote 0x200 PWR_DOM_VOTE_OPEN = 5 ∧
      st (ds (pol 2) 0x200 [(PWR_DOM_STATUS_STATE, 1)]) 0x200 PWR_DOM_STATUS_STATE = 1 ∧ (0x1000000 : Nat) / 2 ^ 24 ≠ s.domVote 0x200 PWR_DOM_VOTE_WALLED ∧
      (pol 1).domCtl 0x200 PWR_DOM_CTL_POLICY = 1 ∧ st (pol 1) 0x200 PWR_DOM_STATUS_STATE < (pol 1).domCtl 0x200 PWR_DOM_CTL_LOWSTATE ∧
      (pol 3).domVote 0x200 PWR_DOM_VOTE_OPEN = 0 ∧ (pol 3).domVote 0x200 PWR_DOM_VOTE_WALLED = 0 ∧ s.mode ≠ .m6 ∧ s.mode ≠ .m7 ∧
      domCls 0x250 = some .cluster ∧ st off 0x250 PWR_DOM_STATUS_STATE = 3 ∧ (off.heldFor 0x250).length < 16 ∧ (dc off 0x250 [(PWR_DOM_CTL_WAKE, 0)]).domCtl 0x250 PWR_DOM_CTL_WAKE = 0 ∧
      (dc off 0x250 [(PWR_DOM_CTL_WAKE, 1)]).domCtl 0x250 PWR_DOM_CTL_WAKE ≠ 0 ∧ two.heldFor 0x208 = [[], []] ∧
      st (ds two 0x208 [(PWR_DOM_STATUS_BUSY, 1)]) 0x208 PWR_DOM_STATUS_PROG = 0 ∧ st (ds two 0x208 [(PWR_DOM_STATUS_BUSY, 1)]) 0x208 PWR_DOM_STATUS_PEND = 0 ∧
      st off 0x250 PWR_DOM_STATUS_BUSY = 0 ∧
      (s.outranked 1 = false ∧ ranked.outranked 1 = true ∧ ranked.mode ≠ .m6 ∧ (dc (fatalAt off) 0x250 [(PWR_DOM_CTL_WAKE, 1)]).outranked 1 = true ∧
        (busy 1).domVote 0x200 PWR_DOM_VOTE_WALLED = 0 ∧ (busy 1).domRefusal 0x200 0 = none ∧ st low 0 PWR_DOM_STATUS_BUSY = 1 ∧
        st low 0 PWR_DOM_STATUS_PROG = 2 ∧ st low 0 PWR_DOM_STATUS_PEND = 0 ∧ domTile 0 = 0 ∧ (low.core 0).sb = [] ∧ (low.core 1).sb = [] ∧
        low.tileBusy 0 = false) := by
  intro s ow held busy pol off two st ranked low
  and_intros <;> decide +kernel
/-- A bit of the package control register set. -/
def pkg (s : State) (f : RField) : State := s.setFld 15 5 PWR_PKG_CTL [] f 1
def p0full : State := (List.range 64).foldl (fun (s : State) k => s.setFld (ltDie (k + 8)) 0x050 PWR_TILE_PERF [ltIdx (k + 8)] PWR_TILE_PERF_GRANT 0) s0
theorem test_hyps_PowerLevelsAndSleep :
    let s := s0
    let capd := s.setFld 15 5 PWR_PKG_STATUS [] PWR_PKG_STATUS_CAP 3
    let lv := fun (l : LevelSt) => ({ s with pwr := { s.pwr with lvl := [(0, l)] } } : State)
    let bound := ((s.setFld 8 49 TSV_CCFG [2] TSV_CCFG_VALID 1).setFld 8 49 TSV_CCFG [2] TSV_CCFG_SKIND 2).setFld 8 49 TSV_CCFG [2] TSV_CCFG_SID 3
    let held := s.setDomF 0x200 PWR_DOM_VOTE PWR_DOM_VOTE_I PWR_DOM_VOTE_WALLED 2
    let m8 : State := { s with mode := .m8 }
    let asked := pkg s PWR_PKG_CTL_M7_REQ
    (255 : Nat) < 256 ∧ (9 : Nat) < 10 ∧ tget s.pwr.tcap 0 0 ≤ 11 ∧ field (12 : BitVec 64) 0 4 > 11 ∧ field (3 : BitVec 64) 0 4 ≤ 11 ∧
      capd.fld 15 5 PWR_PKG_STATUS [] PWR_PKG_STATUS_CAP = 3 ∧ s.wearCap 0 = 0 ∧ s.fld 15 5 PWR_PKG_STATUS [] PWR_PKG_STATUS_CAP = 0 ∧
      s.p0Tiles.length < 64 ∧ 64 ≤ p0full.p0Tiles.length ∧ p0full.perf 0 PWR_TILE_PERF_GRANT ≠ 0 ∧ (s.lvl 0).prog = none ∧
      ((lv ⟨3, some 5, some 2⟩).lvl 0).prog = some 5 ∧ s.pwr.vstop = false ∧ (4100 : Nat) ≤ 4349 ∧ s.mode = .m5 ∧ s.flag 15 5 PWR_PKG_CTL [] PWR_PKG_CTL_M6_EN = false ∧
      (held.m7Bar).isSome = true ∧ s.heldDomain = none ∧ (pkg s PWR_PKG_CTL_M7_REQ).allIdle = false ∧ (pkg s PWR_PKG_CTL_M7_REQ).m7Bar = none ∧
      s.fabricBound 0 = false ∧ bitOf (0x33 : BitVec 64) 37 = false ∧ bound.kioskBound 2 0 15 = true ∧ field (s.reg 8 0x03C CLK_IOD []) 0 36 / 16 % 8 ≠ 4 ∧
      tfind s.pwr.clk 0 = none ∧ tfind [(0, (0x33 : BitVec 64))] 0 = some 0x33 ∧
      (s.mode.m7From = true ∧ m8.mode.m7From = false ∧ m8.heldDomain = none ∧ held.heldDomain ≠ none ∧ m8.outranked 0 = false ∧ (fatalAt m8).outranked 0 = true ∧
        asked.flag 15 5 PWR_PKG_CTL [] PWR_PKG_CTL_M7_REQ = true ∧ asked.mode.m7From = true ∧ (pkg held PWR_PKG_CTL_M7_REQ).m7Bar.isSome = true ∧
        s.flag 15 5 PWR_PKG_CTL [] PWR_PKG_CTL_M7_REQ = false ∧ ({ s with mode := .m6 } : State).mode = .m6 ∧ ({ s with mode := .m7 } : State).mode = .m7) := by
  intro s capd lv bound held m8 asked
  and_intros <;> decide +kernel
def inMode (m : Mode) : State := { s0 with mode := m }
theorem test_hyps_PowerAndResets :
    let ready := fun (s : State) => bt s (fun b => { b with idHeld := true, vinValid := true, powerOn := true })
    let last := fun (n : Nat) => bt (inMode .m1) (fun b => { b with chainLast := some n })
    let id : State := bt s0 (fun b => { b with idHeld := true })
    let sock := id.setFld 15 1 GH_STATUS [] GH_STATUS_SOCKET 3
    let pulses := sock.setFld 15 3 CLK_TS_STATUS [] CLK_TS_STATUS_PULSES 5
    let x1 : State := { (s0.setFld 15 1 GH_STATUS [] GH_STATUS_AUTH_OK 1) with part := .x1 }
    let keys := bt ((inMode .m3).setFld 15 1 GH_STATUS [] GH_STATUS_AUTH_OK 3) (fun b => { b with keysRead := some true })
    let up := (ready (inMode .m1)).boot
    (7 : Nat) < 8 ∧ s0.mode.coldOk = true ∧ (inMode .m1).mode.coldOk = false ∧ (up.idHeld && up.vinValid && !up.held && up.powerOn) = true ∧
      (inMode .m1).boot.idHeld = false ∧ (inMode .m1).boot.held = false ∧ (last 3).boot.chainLast = some 3 ∧ (last 7).boot.chainLast = some 7 ∧
      id.boot.idHeld = true ∧ id.socketId = 0 ∧ sock.socketId ≠ 0 ∧ sock.mode.coldOk = true ∧ sock.fld 15 3 CLK_TS_STATUS [] CLK_TS_STATUS_PULSES = 0 ∧
      pulses.fld 15 3 CLK_TS_STATUS [] CLK_TS_STATUS_PULSES ≠ 0 ∧ pulses.fld 15 3 CLK_TS_STATUS [] CLK_TS_STATUS_RESTART = 0 ∧
      ((Int.ofNat pulses.time - Int.ofNat (0 * 2 ^ 20 + pulses.fld 15 3 CLK_TS_CTL [] CLK_TS_CTL_DELAY_NS)).natAbs ≤ 20) ∧ s0.boot.bringWait = false ∧
      s0.heldDomain = none ∧ s0.mode.warmOk = true ∧ s0.anyWalled = false ∧ s0.boot.powerOn = false ∧ s0.boot.scrub = false ∧ s0.lifeDue = false ∧
      keys.boot.keysRead = some true ∧ keys.gh GH_STATUS GH_STATUS_AUTH_OK ≠ 0 ∧ x1.part = .x1 ∧ x1.mode = .m5 ∧ x1.gh GH_STATUS GH_STATUS_AUTH_OK ≠ 0 ∧
      (inMode .m8).anyWalled = false ∧ (inMode .m8).lifeDue = false ∧ (inMode .m1).mode.warmOk = false ∧ (bt s0 (fun b => { b with scrub := true })).boot.scrub = true ∧
      (pulses.runPins = true ∧ sock.runPins = true ∧ id.runPins = true ∧ (inMode .m1).runPins = false ∧ s0.outranked 0 = false ∧ s0.outranked 2 = false ∧
        (fatalAt s0).outranked 2 = true ∧ (fatalAt s0).heldDomain = none ∧ (inMode .m10).mode = .m10 ∧ (inMode .m0).mode = .m0) := by
  intro ready last id sock pulses x1 keys up
  and_intros <;> decide +kernel

/-- A signing key of the tests (P-384), and its signature of the bundle below. -/
def ekey : List Nat :=
  4 :: (List.range 96).map (fun k => 0x7ae9e1db1160794c70c1ef071be5191f6c66240f4608fbe8a44ecd36c3ed5db97500f2e4d84e3fb45850fd6f4303302bd8ac21444cd80d241538d8034b399a0dee3636eb5cb00b9499d061a571db0f14bb47ed79453948ed63f3a6ccbbf6e74f / 256 ^ (95 - k) % 256)
def er : Nat := 4060946804345316975064001725756655589595751455837783400114689411971731791822545874074268894516639565236518463337799
def es : Nat := 35481387012392606836733112818259715175493194410132119330972901944720660724586487351395342158718561108844645232779624
def parts : List (List Nat) := [[1], [2], [3, 4, 5, 6, 7, 8]]
def conf : BootCfg :=
  { BootCfg.reset with iqLog2n := 6, memRange := [BitVec.ofNat 64 (2 ^ 44 + 1 * 2 ^ 22), 0, 0, 0], loadPa := 0x4000, entryPa := 0x4004, sysqBase := 0x40000000, iqBase := 0x800000 }
def bun : Bundle :=
  { Bundle.none with
    format := true, svn := 2, slot := 1, key := ekey, lengths := [1, 1, 6], digests := parts.map sha384, r := er, s := es, header := [1, 2, 3],
    parts := parts, conf := conf }
def keyed : Fuses := { Fuses.reset with autoOn := true, svn := 2, seed := 9, keyHash := [[0], sha384 ekey, [0], [0]], mfgHash := sha384 ekey }
def bootIn (m : Mode) (f : BootState → BootState) : State := bt (inMode m) (fun b => f { b with fuses := keyed, svn := 2, flashA := bun })
def sp : Spd := ⟨1, false, true, 16, 1, 6400, 77⟩

theorem test_bundle_accepted : bundleCheck keyed 2 bun = 0 ∧ bundleCheck keyed 3 bun ≠ 0 ∧ bundleCheck keyed 2 Bundle.none ≠ 0 := by decide +kernel
theorem test_hyps_SelfTestAndBringUp :
    let m2 := bootIn .m2 id
    let m3 := bootIn .m3 (fun b => { b with testing := true, stage := 2, accepted := some false })
    let wait := bootIn .m3 (fun b => { b with stage := 2, waiting := true })
    let twice := bootIn .m3 (fun b => { b with testing := true, stage := 4, rejected := [.tile 3, .node 5] })
    let m4 := bootIn .m4 (fun b => { b with accepted := some false, trained := 0xFFFF })
    let nx := fun (o : Host.Outcome State Fault Refusal) (s : State) => match o with
      | .next t => t
      | _ => s
    let full : State := { ((List.range 16).foldl (fun (s : State) c => nx (execTrainingComplete c [sp] true s) s)
      (bootIn .m4 (fun b => { b with accepted := some false }))) with bootCfg := conf }
    let r := foldN 4 (fun (x : State) n => x.memRangeWrite n (conf.memRange.getD n 0)) full
    let sock := full.setFld 15 1 GH_STATUS [] GH_STATUS_SOCKET 2
    m2.boot.held = false ∧ m2.mode = .m2 ∧ m2.boot.resetLow = false ∧ (bt m2 (fun b => { b with resetLow := true })).boot.resetLow = true ∧
      (bt m2 (fun b => { b with step := 4 })).boot.step = 4 ∧ conf.ok (parts.getD 2 []).length = true ∧ ({ conf with entryPa := 3 } : BootCfg).ok 6 = false ∧
      m3.mode = .m3 ∧ m3.untested (.tile 3) = false ∧ m3.boot.testing = true ∧ m3.boot.rejected.contains (.tile 3) = false ∧ m3.boot.stage = 2 ∧
      wait.boot.waiting = true ∧ wait.boot.testing = false ∧ twice.boot.rejected.contains (.node 5) = true ∧ twice.untested (.node 5) = false ∧
      twice.untested (.tile 3) = false ∧ m4.mode = .m4 ∧ trainRate [sp] = some 2 ∧ trainRate [{ sp with rate := 99 }] = none ∧ m4.boot.trained % 2 ^ 16 = 0xFFFF ∧
      m4.boot.bringWait = false ∧ full.boot.trained % 2 ^ 16 = 0xFFFF ∧ r.bringSpans = true ∧ full.bootCfg = conf ∧
      (foldN 4 (fun (x : State) n => x.memRangeWrite n (m4.bootCfg.memRange.getD n 0)) m4).bringSpans = false ∧
      sha384 (full.bundle.parts.getD 2 []) = full.bundle.digests.getD 2 [] ∧ full.socketId = 0 ∧ sock.socketId ≠ 0 ∧
      sock.flag 15 3 CLK_TS_STATUS [] CLK_TS_STATUS_LOCKED = false ∧ (bootIn .m5 (fun b => { b with coresDue := true })).boot.coresDue = true ∧
      s0.coreExists 511 = true ∧ s0.part = .a1 ∧
      ((bt m2 (fun b => { b with step := 1 })).boot.step = 1 ∧ (bt m2 (fun b => { b with step := 5 })).boot.lifeA.ok = false ∧ (bt m2 (fun b => { b with step := 5 })).boot.lifeB.ok = false ∧
        (bt m3 (fun b => { b with step := 7 })).boot.step = 7 ∧ bundleCheck m2.boot.fuses m2.boot.svn m2.boot.flashA = 0 ∧
        bundleCheck m2.boot.fuses m2.boot.svn m2.boot.flashB ≠ 0 ∧ (bt m2 (fun b => { b with flashA := b.flashB })).boot.flashA = Bundle.none) := by
  intro m2 m3 wait twice m4 nx full r sock
  and_intros <;> decide +kernel
theorem test_hyps_ManagementPinsAndLife :
    let s := bt s0 (fun b => { b with accepted := some false, idHeld := true, fuses := keyed })
    let gp := ((s.setReg 15 1 GH_GPIO_EDGE [] 0xFFFFFFFF0000FFFF).setFld 15 1 GH_GPIO_Q [] GH_GPIO_Q_QUEUE 7).setFld 15 1 GH_GPIO_Q [] GH_GPIO_Q_EN 1
    let q7 := (gp.setQf 7 URN_QCFG URN_QCFG_EN 1).setQf 7 URN_QCFG URN_QCFG_LOG2N 6
    let walled := gp.setFld 15 2 WW_GPIO_WORLD [] WW_GPIO_WORLD_PINS 0xFFFF
    let gk := fun (t : State) (n : Nat) => (t.setFld (gkDie 3) 0x03A GK_TILE [3] GK_TILE_SLOW n).setFld (gkDie 3) 0x03A GK_AGE_CTL [] GK_AGE_CTL_EN 1
    let ag : State := { gk s 20 with life := { s.life with offset := [(3, 10)], runs := [(3, [300, 500])] } }
    let rich := s.setFld (gkDie 3) 0x03A GK_WEAR [3] GK_WEAR_BALANCE 3600
    let m8 : State := { s with mode := .m8 }
    let none_ : State := { m8 with life := { m8.life with quar := [32, 33] } }
    let go := s.setFld 8 0x03A GK_RETIRE_CMD [] GK_RETIRE_CMD_GO 1
    let copy : LifeCopy := ⟨5, true, LifeRec.reset⟩
    let both := bt s (fun b => { b with lifeA := copy, lifeB := { copy with seq := 6 } })
    (31 : Nat) < 32 ∧ (127 : Nat) < 128 ∧ s.mode ≠ .m0 ∧ s0.boot.accepted = none ∧ s.boot.accepted ≠ none ∧ sha384 ekey = s.boot.fuses.mfgHash ∧
      ecdsaOk ekey [1, 2, 3] er es = true ∧ sha384 [] ≠ s.boot.fuses.mfgHash ∧ gp.mode.coldOk = true ∧ natBit gp.boot.gpioPins 0 ≠ true ∧
      bitOf (gp.reg 15 1 GH_GPIO_EDGE []) 0 = true ∧ bitOf (gp.reg 15 1 GH_GPIO_EDGE []) 16 = false ∧ gp.part = .a1 ∧
      natBit (walled.ww WW_GPIO_WORLD WW_GPIO_WORLD_PINS) 0 = true ∧ natBit (gp.ww WW_GPIO_WORLD WW_GPIO_WORLD_PINS) 0 = false ∧
      gp.gh GH_GPIO_Q GH_GPIO_Q_EN = 1 ∧ s.gh GH_GPIO_Q GH_GPIO_Q_EN ≠ 1 ∧ qSystem 7 = false ∧ q7.qf 7 URN_QCFG URN_QCFG_WORLD = 0 ∧ q7.qWords 7 = 1 ∧
      qSystem 65535 = true ∧ (q7.hwPush 7 [Word.zero]).2 = true ∧ (gp.hwPush 7 [Word.zero]).2 = false ∧ s.boot.idHeld = true ∧ 0x30 + s.socketId = 0x30 ∧
      s.mode.fatalLeaves = true ∧ ag.flag (gkDie 3) 0x03A GK_AGE_CTL [] GK_AGE_CTL_EN = true ∧ ag.tileSt 3 ≤ 1 ∧ tfind ag.life.offset 3 = some 10 ∧
      tfind s.life.offset 3 = none ∧ ag.gkTile 3 GK_TILE_SLOW < min (700 - 10) (min 300 500) ∧ (gk s 20).gkTile 3 GK_TILE_SLOW = 20 ∧
      12 < (255 * 25 + 49) / 50 ∧ rich.gkWear 3 GK_WEAR_BALANCE = 3600 ∧ s.fld 8 0x03A GK_RETIRE_CMD [] GK_RETIRE_CMD_GO = 0 ∧
      go.fld 8 0x03A GK_RETIRE_CMD [] GK_RETIRE_CMD_GO = 1 ∧ bitOf (0x103 : BitVec 64) 8 = true ∧ bitOf (0x103 : BitVec 64) 9 = false ∧
      bitOf (0x303 : BitVec 64) 9 = true ∧ m8.spares 0 ≠ [] ∧ none_.spares 0 = [] ∧ both.lifeTarget = false ∧ both.boot.lifeA.ok = true ∧
      (gp.runPins = true ∧ (bt s0 (fun b => { b with accepted := none })).boot.accepted = none ∧ m8.lifeDue = false ∧ m8.gkTile 3 GK_TILE_PROPOSE ≠ 4 ∧
        s.gkTile 3 GK_TILE_SLOW < 300 ∧ 12 < (min (min (700 - 10) (min 300 500)) 255 * 25 + 49) / 50 ∧ (gk s 20).flag (gkDie 3) 0x03A GK_AGE_CTL [] GK_AGE_CTL_EN = true ∧
        (inMode .m11).mode = .m11 ∧ (inMode .m0).mode = .m0 ∧ (inMode .m2).mode ∈ [Mode.m0, .m1, .m2, .m3, .m11]) := by
  intro s gp q7 walled gk ag rich m8 none_ go copy both
  and_intros <;> decide +kernel

/-! Worked examples of the spec, and single results that its tables give. -/

/-- What a step answers, asked of its next state. -/
def nextIs (o : Host.Outcome State Fault Refusal) (p : State → Bool) : Bool :=
  match o with
  | .next t => p t
  | .fault _ => false
  | .refused _ => false
/-- R64 and the example after R114: ADDI g6, g6, 0x10 on 0xABFFFFFFFFFFFFF8. -/
theorem test_addi_pointer :
    let s := s0.setCore 0 { core 0 with g := [(6, Word.pointer 0xABFFFFFFFFFFFFF8)] }
    nextIs (exec (.addi 0 ⟨6, 6, 0x10⟩) s) (fun t => (t.core 0).getG 6 == Word.pointer 0xA800000000000008) = true := by decide +kernel
/-- R111: division by zero gives all ones; R110 and R109: a poison operand's code goes to the result. -/
theorem test_div_by_zero : nextIs (exec (.div 0 ⟨10, 1, 0, 0⟩) s0) (fun t => (t.core 0).getG 10 == Word.data 0xFFFFFFFFFFFFFFFF) = true := by decide +kernel
theorem test_add_data : nextIs (exec (.add 0 ⟨10, 1, 2, 0⟩) s0) (fun t => (t.core 0).getG 10 == Word.data 8 && (t.core 0).pc == 0x1004) = true := by
  decide +kernel
theorem test_add_poison : nextIs (exec (.add 0 ⟨10, 1, 3, 0⟩) s0) (fun t => (t.core 0).getG 10 == Word.poison 4) = true := by decide +kernel
/-- The lines of a tile: each in a way of its own, with the words listed. -/
def linesWith (l : List (Nat × List (Nat × Word))) : Tbl CacheLine :=
  ((List.range l.length).zip l).map (fun p =>
    (16 * (p.2.1 / 128 % 1024) + p.1, lineOf (p.2.1 / 128) .m false (p.2.2.foldl (fun (ws : List Word) x => ws.set x.1 x.2) zeroLine)))
/-- The walk of the example after R206 at PL0 with colour checks on, its page with TD = 1, and a page of code before it. -/
def walkState : State :=
  let pte := fun (x : BitVec 64) => (⟨x, 0x81⟩ : Word)
  let c : Core := { core 0 with
    pc := 0x1234560000, l1i := [], l1d := [], sys := [(0, 0), (0x028, 0x08000001), (0x02C, 0x0042), (0x030, 1)],
    g := [(6, Word.pointer 0xA800001234567800), (7, Word.pointer 0xA800001234567820)] }
  { run c with
    tiles := [(0, { TileCache.reset with l2 := linesWith [
      (0x08000000, [(0, pte 0x08004003)]), (0x08004000, [(1, pte 0x08008003)]), (0x080088D0, [(0x11A % 16, pte 0x0800C003)]),
      (0x0800CAC8, [(0x158 % 16, pte 0x203), (0x159 % 16, pte 0x4001014C3)]), (0, (List.range 16).map (fun n => (n, code.headD Word.zero))), (0x400103820, [(4, ⟨77, 0x15⟩)])] })] }
/-- The example after R76: the load goes on and s.tagerr keeps the first mismatch; a later store sets MORE. -/
theorem test_deferred_colour :
    nextIs (exec (.ldD 0 (.imm ⟨5, 6, 0x20⟩)) walkState) (fun t =>
      (t.core 0).getG 5 == Word.data 77 && (t.core 0).sysr 0x031 == 0x95000002468ACF04 &&
        nextIs (exec (.stD 0 (.imm ⟨5, 7, 0⟩)) t) (fun u => (u.core 0).sysr 0x031 == 0xD5000002468ACF04)) = true := by decide +kernel
/-- The example of the chapter on caches: the slice of the line of PA 0x400103820 is die index 31. -/
theorem test_slice : sliceOf (0x400103820 / 128) = 31 := by decide +kernel
/-- The example after R353: the line of PA 0x400103800 lies in channel 5 of IOD1, at channel line 0x800207. -/
theorem test_channel :
    let s := s0.setReg 8 0 MEM_RANGE [0] (BitVec.ofNat 64 (2 ^ 44 + 0xFFFFF * 2 ^ 22))
    s.classify 0x400103800 = .dram 0 13 0x800207 ∧ s.homeOf (0x400103800 / 128) = 1 := by decide +kernel
/-- The example of the control space chapter: the ARB_ block of die index 26 of CD3. -/
theorem test_control_address :
    (match s3.ctlFind ⟨0, 0, true⟩ 0x306810000 8 false with
     | .ok a => a.die == 3 && a.unit == 26 && a.off == 0x10000
     | .error _ => false) = true := by decide +kernel
/-- The example after R464: sizing BAR0 of kiosk cluster 2 of IOD0. -/
theorem test_bar_sizing :
    nextIs (exec (.configurationRequest 0xD0 4 (some 0xFFFFFFFF) 15 false) ioOn) (fun t => t.cfgGet 0xD0 4 == 0xFFC00004 &&
      nextIs (exec (.configurationRequest 0xD0 5 (some 0xFFFFFFFF) 15 false) t) (fun u => u.cfgGet 0xD0 5 == 0x000FFFFF)) = true := by decide +kernel
/-- The example after R446: the branch with A = 1 is not taken, and its delay slot is annulled. -/
theorem test_kiosk_slot :
    let s := krun 0 { kiosk1 with regs := [(16 + 3, Word.data 0), (16 + 4, Word.data 0x800)] } 0
    nextIs (exec (.bCc 0 ⟨true, true, 1, 3, 0, 0x1FFF⟩) s) (fun t => ((t.ksk 0).at 1).pc == 0x108) = true := by decide +kernel
/-- A tile that measured the same slowdown twice already, against an offset of 0. -/
def aged (n : Nat) : State :=
  { s0.setFld (gkDie 3) 0x03A GK_AGE_CTL [] GK_AGE_CTL_EN 1 with life := { s0.life with offset := [(3, 0)], runs := [(3, [n, n])] } }
/-- The example after R599: SLOW 14 gives 25, 30 and 35 mV; SLOW 25 is held at 60 mV with AGE_LIMIT. -/
theorem test_guardbands :
    nextIs (exec (.ageMeasurement 3 14) (aged 14)) (fun t =>
      t.gkTile 3 GK_TILE_GB0 == 5 && t.gkTile 3 GK_TILE_GB1 == 6 && t.gkTile 3 GK_TILE_GB2 == 7 && t.gkTile 3 GK_TILE_AGE_LIMIT == 0) = true ∧
    nextIs (exec (.ageMeasurement 3 25) (aged 25)) (fun t => t.gkTile 3 GK_TILE_GB2 == 12 && t.gkTile 3 GK_TILE_AGE_LIMIT == 1) = true := by
  decide +kernel
/-- Rounds of 1,000 µs from 1,000,000,000 ns in eight buffers. -/
def rounds : State :=
  (((((inMode .m5).setRf CNT_RND_CTL CNT_RND_CTL_EN 1).setRf CNT_RND_CTL CNT_RND_CTL_PERIOD_US 1000).setRf CNT_RND_CTL CNT_RND_CTL_LOG2B 3).setReg
    15 4 CNT_RND_START [] 1000000000).setReg 15 4 CNT_RND_BASE [] 0x100000000
/-- The example after R555: the tick and the buffer of round 37. -/
theorem test_round : rounds.rndTick 37 = 0x3DCF5D40 ∧ rounds.rndBuffer 37 = 0x1000A0000 := by decide +kernel
/-- The example after R424: LC244 asks for two entries/µs within 400 ns to a queue bound to LC224. -/
def contract : State :=
  let s := qset s0 0x200 [(URN_QCFG_LOG2N, 3), (URN_QCFG_ESZ, 1), (URN_QCFG_PROD, 7), (URN_QCFG_IBEN, 1)] 0 0
  let s := s.setQf 0x200 URN_QBASE URN_QBASE_ITARGET 224
  let s := (s.setFld 3 0x040 MESH_TILEMAP [0, 26 / 8] (MESH_TILEMAP_STOP 2) 34).setFld 3 0x040 MESH_TILEMAP [0, 2] (MESH_TILEMAP_STOP 0) 20
  (s.setReg 8 0x031 TSV_REQ0 [] (BitVec.ofNat 64 (244 * 2 ^ 8))).setReg 8 0x031 TSV_REQ1 []
    (BitVec.ofNat 64 (0x200 + 2 ^ 16 + 0x200 * 2 ^ 24 + 8 * 2 ^ 40))
/-- Table 13-9: its push segment on CD3, and the worst cases of 410 ns with m = 1 and 226 ns with m = 2. -/
theorem test_admission :
    let push := contract.pushSegs 0 0 244 0x200
    let note := contract.noteSegs 0 0x200
    push.head? = some ⟨3, [(34, 1, 0), (33, 1, 2), (32, 2, 5), (40, 5, 8)], 8, true⟩ ∧
      contract.worstCase contract.tsvReq 1 2 push note = 410 ∧ contract.worstCase contract.tsvReq 2 2 push note = 226 := by decide +kernel

/-- The words of the example of the encoding chapter: ADDI g5, g0, 3; ADDI g5, g5, -1; CMPPI.NE p2, g5, 0; BT p2 with its hint, two back. -/
theorem test_decode_scalar : decodeEcyen 0 0x200A0003 = some (.addi 0 ⟨5, 0, 3⟩) ∧ decodeEcyen 0 0x200A5FFF = some (.addi 0 ⟨5, 5, -1⟩) ∧
    decodeEcyen 0 0x46445000 = some (.cmppiCc 0 1 ⟨2, 5, 0⟩) ∧ decodeEcyen 0 0x517FFFFE = some (.bt 0 2 true (-2)) := ⟨rfl, rfl, rfl, rfl⟩
/-- The words of the queue example, and VFMA v4, v1, v2 under p3. -/
theorem test_decode_queue_vector : decodeEcyen 8 0xB0126383 = some (.qpush 8 ⟨9, 6, 7, 3⟩) ∧ decodeEcyen 40 0xB04A6383 = some (.qpop 40 ⟨5, 6, 7, 3⟩) ∧
    decodeEcyen 0 0xD1481130 = some (.vfma 0 ⟨4, 1, 2, 0x30⟩) := ⟨rfl, rfl, rfl⟩
/-- R102: the word 0, an OP that its class does not list, and CLASS 0xF spell no instruction. -/
theorem test_decode_none : decodeEcyen 0 0 = none ∧ decodeEcyen 0 0x13C00000 = none ∧ decodeEcyen 0 0xF0000000 = none ∧ decodeKiosk 0 = none :=
  ⟨rfl, rfl, rfl, rfl⟩
/-- The words of the kiosk example: ADDI k3, k3, -1; B.NE k3, k0 with A = 1 and H = 1; STL k3, 0(k4). -/
theorem test_decode_kiosk : decodeKiosk 0x08CFFFFF = some .addi ∧ kioskI 0x08CFFFFF = ⟨3, 3, -1⟩ ∧ decodeKiosk 0x83261FFF = some .bCc ∧
    kioskB 0x83261FFF = ⟨true, true, 1, 3, 0, -1⟩ ∧ decodeKiosk 0x44D00000 = some .stl ∧ kioskI 0x44D00000 = ⟨3, 4, 0⟩ := by decide
/-- The example after R355, and a line with two bad symbols, which the code of R342 gives back (Table 11-5). -/
theorem test_dram_address : dramAddr 7 2 0x800207 = ⟨7, 0, 1024, 0, 0x400⟩ := by decide
theorem test_line_code : eccDecode false false none [(3, 1), (77, 200)] = .corrected [(3, 1), (77, 200)] := by decide +kernel

end Sys2Proof.Tests
end

section
/-! Bit fields of control-space registers: a read of a field after a write to the same register. -/
set_option autoImplicit false
namespace Sys2Proof.Machine

theorem testBit_field (w : BitVec 64) (lo n i : Nat) : (field w lo n).testBit i = (decide (i < n) && w.getLsbD (lo + i)) := by
  simp [field, Nat.testBit_mod_two_pow, Nat.testBit_shiftRight, BitVec.testBit_toNat]

theorem getLsbD_setField (w : BitVec 64) (lo n x i : Nat) (hi : i < 64) :
    (setField w lo n x).getLsbD i = if lo ≤ i ∧ i < lo + n then x.testBit (i - lo) else w.getLsbD i := by
  have hn : lo ≤ i → (i - lo < n ↔ i < lo + n) := by omega
  simp only [setField, BitVec.getLsbD_or, BitVec.getLsbD_and, BitVec.getLsbD_not, BitVec.getLsbD_ofNat, Nat.testBit_shiftLeft,
    Nat.testBit_two_pow_sub_one, Nat.testBit_mod_two_pow, hi]
  by_cases hl : lo ≤ i
  · by_cases h : i < lo + n <;> simp [hl, h, hn hl]
  · simp [hl]

theorem field_setField_same (w : BitVec 64) (lo n x : Nat) (h : lo + n ≤ 64) : field (setField w lo n x) lo n = x % 2 ^ n := by
  apply Nat.eq_of_testBit_eq
  intro i
  rw [testBit_field, Nat.testBit_mod_two_pow]
  by_cases hi : i < n
  · rw [getLsbD_setField _ _ _ _ _ (by omega), if_pos (by omega), Nat.add_sub_cancel_left]
  · simp [hi]

theorem field_setField_disjoint (w : BitVec 64) (lo n x lo' n' : Nat) (h : lo' + n' ≤ 64) (hd : lo' + n' ≤ lo ∨ lo + n ≤ lo') :
    field (setField w lo n x) lo' n' = field w lo' n' := by
  apply Nat.eq_of_testBit_eq
  intro i
  rw [testBit_field, testBit_field]
  by_cases hi : i < n'
  · rw [getLsbD_setField _ _ _ _ _ (by omega), if_neg (by omega)]
  · simp [hi]

@[simp] theorem State.reg_setReg_same (s : State) (die unit : Nat) (r : RegDef) (idx : List Nat) (v : BitVec 64) :
    (s.setReg die unit r idx v).reg die unit r idx = v :=
  tget_tset_same _ _ _ _

theorem State.fld_setFld_same (s : State) (die unit : Nat) (r : RegDef) (idx : List Nat) (f : RField) (x : Nat) (h : f.lo + f.n ≤ 64) :
    (s.setFld die unit r idx f x).fld die unit r idx f = x % 2 ^ f.n := by
  simp [State.fld, State.setFld, field_setField_same _ _ _ _ h]

theorem State.fld_setFld_disjoint (s : State) (die unit : Nat) (r : RegDef) (idx : List Nat) (f g : RField) (x : Nat) (h : g.lo + g.n ≤ 64)
    (hd : g.lo + g.n ≤ f.lo ∨ f.lo + f.n ≤ g.lo) : (s.setFld die unit r idx f x).fld die unit r idx g = s.fld die unit r idx g := by
  simp [State.fld, State.setFld, field_setField_disjoint _ _ _ _ _ _ h hd]

end Sys2Proof.Machine
end

section
/-! Route banks and flips (12_mesh_trellis.md, R390 and R391): which bank writes are accepted, and the phases of a flip. -/
set_option autoImplicit false
namespace Sys2Proof.Machine

/-! ### Bank writes -/

theorem State.bankOpen_iff (s : State) (bank : Nat) :
    s.bankOpen bank = true ↔
      s.injEn = false ∨ (bank ≠ s.epoch % 2 ∧ s.fld 8 0x03B MESH_FLIP_STATUS [] MESH_FLIP_STATUS_BUSY = 0) := by
  simp [State.bankOpen]

theorem State.writeBank_open (s : State) (die bank : Nat) (r : RegDef) (idx : List Nat) (v : BitVec 64) (h : s.bankOpen bank = true) :
    s.writeBank die bank r idx v = s.setReg die 0x040 r idx (v &&& bankMask r) := if_pos h

theorem State.writeBank_closed (s : State) (die bank : Nat) (r : RegDef) (idx : List Nat) (v : BitVec 64) (h : ¬ s.bankOpen bank = true) :
    s.writeBank die bank r idx v = s.setFld die 0x040 MESH_DIE_STATUS [] MESH_DIE_STATUS_REFUSED 1 := if_neg h

theorem bankMask_route : bankMask MESH_ROUTE = 0xFF := rfl
theorem bankMask_tilemap : bankMask MESH_TILEMAP = 0x3F3F3F3F3F3F3F3F := rfl

theorem exec_meshRouteWrite_tilemap (s : State) (die bank idx : Nat) (v : BitVec 64) (hd : die < 8) (hb : bank < 2) (hi : idx < 4) :
    exec (.meshRouteWrite die bank true idx v) s = .next (s.writeBank die bank MESH_TILEMAP [bank, idx] v) := by
  show execMeshRouteWrite die bank true idx v s = _
  simp [execMeshRouteWrite, State.bankWrite, onUnit, hd, hb, hi]

theorem exec_meshRouteWrite_route (s : State) (die bank : Nat) (v : BitVec 64) (hd : die < 8) (hb : bank < 2) :
    exec (.meshRouteWrite die bank false 0 v) s = .next (s.writeBank die bank MESH_ROUTE [bank] v) := by
  show execMeshRouteWrite die bank false 0 v s = _
  simp [execMeshRouteWrite, State.bankWrite, onUnit, hd, hb]

theorem exec_meshRouteWrite_open (s : State) (die bank idx : Nat) (v : BitVec 64) (hd : die < 8) (hb : bank < 2) (hi : idx < 4)
    (h : s.bankOpen bank = true) :
    exec (.meshRouteWrite die bank true idx v) s = .next (s.setReg die 0x040 MESH_TILEMAP [bank, idx] (v &&& 0x3F3F3F3F3F3F3F3F)) ∧
      exec (.meshRouteWrite die bank false 0 v) s = .next (s.setReg die 0x040 MESH_ROUTE [bank] (v &&& 0xFF)) := by
  rw [exec_meshRouteWrite_tilemap s die bank idx v hd hb hi, exec_meshRouteWrite_route s die bank v hd hb,
    s.writeBank_open _ _ _ _ _ h, s.writeBank_open _ _ _ _ _ h, bankMask_tilemap, bankMask_route]
  exact ⟨rfl, rfl⟩

theorem exec_meshRouteWrite_closed (s : State) (die bank idx : Nat) (v : BitVec 64) (hd : die < 8) (hb : bank < 2) (hi : idx < 4)
    (h : ¬ s.bankOpen bank = true) :
    exec (.meshRouteWrite die bank true idx v) s = .next (s.setFld die 0x040 MESH_DIE_STATUS [] MESH_DIE_STATUS_REFUSED 1) ∧
      exec (.meshRouteWrite die bank false 0 v) s = .next (s.setFld die 0x040 MESH_DIE_STATUS [] MESH_DIE_STATUS_REFUSED 1) := by
  rw [exec_meshRouteWrite_tilemap s die bank idx v hd hb hi, exec_meshRouteWrite_route s die bank v hd hb,
    s.writeBank_closed _ _ _ _ _ h, s.writeBank_closed _ _ _ _ _ h]
  exact ⟨rfl, rfl⟩

/-! ### MESH_FLIP_STATUS -/

theorem State.flipFld_setFlip_same (s : State) (f : RField) (x : Nat) (h : f.lo + f.n ≤ 64) :
    (s.setFlip f x).fld 8 0x03B MESH_FLIP_STATUS [] f = x % 2 ^ f.n :=
  s.fld_setFld_same 8 0x03B MESH_FLIP_STATUS [] f x h

theorem State.flipFld_setFlip_disjoint (s : State) (f g : RField) (x : Nat) (h : g.lo + g.n ≤ 64)
    (hd : g.lo + g.n ≤ f.lo ∨ f.lo + f.n ≤ g.lo) :
    (s.setFlip f x).fld 8 0x03B MESH_FLIP_STATUS [] g = s.fld 8 0x03B MESH_FLIP_STATUS [] g :=
  s.fld_setFld_disjoint 8 0x03B MESH_FLIP_STATUS [] f g x h hd

@[simp] theorem State.epoch_setFlip_epoch (s : State) (x : Nat) : (s.setFlip MESH_FLIP_STATUS_EPOCH x).epoch = x % 4 :=
  s.flipFld_setFlip_same MESH_FLIP_STATUS_EPOCH x (by decide)

theorem State.epoch_setFlip_above (s : State) (f : RField) (x : Nat) (h : 2 ≤ f.lo) : (s.setFlip f x).epoch = s.epoch :=
  s.flipFld_setFlip_disjoint f MESH_FLIP_STATUS_EPOCH x (by decide) (.inl h)

/-! ### The phase -/

/-- The state in another phase of a flip. -/
def State.setPhase (s : State) (p : FlipPhase) : State := { s with flip := p }

@[simp] theorem State.setPhase_flip (s : State) (p : FlipPhase) : (s.setPhase p).flip = p := rfl
@[simp] theorem State.setPhase_epoch (s : State) (p : FlipPhase) : (s.setPhase p).epoch = s.epoch := rfl
@[simp] theorem State.setPhase_fld (s : State) (p : FlipPhase) (die unit : Nat) (r : RegDef) (idx : List Nat) (f : RField) :
    (s.setPhase p).fld die unit r idx f = s.fld die unit r idx f := rfl

/-! ### The start of a flip -/

theorem State.flipGo_busy (s : State) (h : s.fld 8 0x03B MESH_FLIP_STATUS [] MESH_FLIP_STATUS_BUSY ≠ 0) : s.flipGo = s := if_pos h

theorem State.flipMode_allowed (s : State) (hm : s.mode = .m4 ∨ s.mode = .m5 ∨ s.mode = .m8) :
    ¬ (s.mode ≠ .m4 ∧ s.mode ≠ .m5 ∧ s.mode ≠ .m8) :=
  fun ⟨h4, h5, h8⟩ => hm.elim h4 (·.elim h5 h8)

section
variable (s : State) (h0 : s.fld 8 0x03B MESH_FLIP_STATUS [] MESH_FLIP_STATUS_BUSY = 0)
include h0

theorem State.flipGo_mode (hm : ¬ (s.mode = .m4 ∨ s.mode = .m5 ∨ s.mode = .m8)) : s.flipGo = s.setFlip MESH_FLIP_STATUS_REFUSED 1 := by
  simp only [not_or] at hm
  rw [State.flipGo, if_neg (not_not_intro h0), if_pos hm]

variable (hm : s.mode = .m4 ∨ s.mode = .m5 ∨ s.mode = .m8)
include hm

theorem State.flipGo_contract (hc : s.admitted.any (fun n => s.contractPath 0 n != s.contractPath 1 n) = true) :
    s.flipGo = s.setFlip MESH_FLIP_STATUS_CONTRACT 1 := by
  rw [State.flipGo, if_neg (not_not_intro h0), if_neg (s.flipMode_allowed hm), if_pos hc]

theorem State.flipGo_hold (hc : s.admitted.any (fun n => s.contractPath 0 n != s.contractPath 1 n) = false) :
    s.flipGo = { s.setFlip MESH_FLIP_STATUS_BUSY 1 with flip := .hold } := by
  rw [State.flipGo, if_neg (not_not_intro h0), if_neg (s.flipMode_allowed hm), if_neg (by simp [hc])]

end

/-! ### The end of a phase -/

theorem State.flipDrained_next (s : State) (hf : s.flip = .hold) (hh : s.heldFlits = []) :
    s.flipDrained = (s.setFlip MESH_FLIP_STATUS_EPOCH ((s.epoch + 1) % 4)).setPhase .flipped := if_pos ⟨hf, hh⟩

theorem State.flipDrained_stay (s : State) (h : s.flip ≠ .hold ∨ s.heldFlits ≠ []) : s.flipDrained = s :=
  if_neg fun ⟨hf, hh⟩ => h.elim (· hf) (· hh)

theorem State.flipTimeout_next (s : State) (hf : s.flip = .hold) :
    s.flipTimeout = ((s.setFlip MESH_FLIP_STATUS_TIMEOUT 1).setFlip MESH_FLIP_STATUS_BUSY 0).setPhase .none := if_pos hf

theorem State.flipTimeout_stay (s : State) (h : s.flip ≠ .hold) : s.flipTimeout = s := if_neg h

theorem State.flipDone_next (s : State) (hf : s.flip = .flipped) (hh : s.meshFlits.all (fun x => x.flit.epoch == s.epoch) = true) :
    ∃ flips, s.flipDone =
      (((s.setFlip MESH_FLIP_STATUS_BUSY 0).setFlip MESH_FLIP_STATUS_DONE 1).setFlip MESH_FLIP_STATUS_FLIPS flips).setPhase .none :=
  ⟨_, if_pos ⟨hf, hh⟩⟩

theorem State.flipDone_stay (s : State) (h : s.flip ≠ .flipped ∨ s.meshFlits.all (fun x => x.flit.epoch == s.epoch) = false) :
    s.flipDone = s := by
  refine if_neg fun ⟨hf, hh⟩ => ?_
  rcases h with h | h
  · exact h hf
  · exact Bool.false_ne_true (h.symm.trans hh)

theorem exec_flipDrainDone_next (s : State) (hf : s.flip = .hold) (hh : s.heldFlits = []) :
    ∃ t, exec .flipDrainDone s = .next t ∧ t.flip = .flipped ∧ t.epoch = (s.epoch + 1) % 4 ∧ t = { s with regs := t.regs, flip := t.flip } := by
  refine ⟨_, congrArg Host.Outcome.next (s.flipDrained_next hf hh), s.setPhase_flip _, ?_, rfl⟩
  rw [State.setPhase_epoch, State.epoch_setFlip_epoch, Nat.mod_mod]

theorem exec_flipTimeout_next (s : State) (hf : s.flip = .hold) :
    ∃ t, exec .flipTimeout s = .next t ∧ t.flip = .none ∧ t.epoch = s.epoch ∧
      t.fld 8 0x03B MESH_FLIP_STATUS [] MESH_FLIP_STATUS_TIMEOUT = 1 ∧ t.fld 8 0x03B MESH_FLIP_STATUS [] MESH_FLIP_STATUS_BUSY = 0 := by
  refine ⟨_, congrArg Host.Outcome.next (s.flipTimeout_next hf), State.setPhase_flip _ _, ?_, ?_, ?_⟩
  · rw [State.setPhase_epoch, State.epoch_setFlip_above, State.epoch_setFlip_above] <;> decide
  · rw [State.setPhase_fld, State.flipFld_setFlip_disjoint, State.flipFld_setFlip_same] <;> decide
  · rw [State.setPhase_fld, State.flipFld_setFlip_same] <;> decide

theorem exec_flipDone_next (s : State) (hf : s.flip = .flipped) (hh : s.meshFlits.all (fun x => x.flit.epoch == s.epoch) = true) :
    ∃ t, exec .flipDone s = .next t ∧ t.flip = .none ∧ t.epoch = s.epoch ∧ t.fld 8 0x03B MESH_FLIP_STATUS [] MESH_FLIP_STATUS_DONE = 1 ∧
      t.fld 8 0x03B MESH_FLIP_STATUS [] MESH_FLIP_STATUS_BUSY = 0 := by
  obtain ⟨flips, h⟩ := s.flipDone_next hf hh
  refine ⟨_, congrArg Host.Outcome.next h, State.setPhase_flip _ _, ?_, ?_, ?_⟩
  · rw [State.setPhase_epoch, State.epoch_setFlip_above, State.epoch_setFlip_above, State.epoch_setFlip_above] <;> decide
  · rw [State.setPhase_fld, State.flipFld_setFlip_disjoint, State.flipFld_setFlip_same] <;> decide
  · rw [State.setPhase_fld, State.flipFld_setFlip_disjoint, State.flipFld_setFlip_disjoint, State.flipFld_setFlip_same] <;> decide

/-- Settles O43: a bank write by whether the bank is open, the start of a flip by the guards of R391 in their order, and
the end of each phase by what it leaves in the fields of MESH_FLIP_STATUS. No guard tests AGREE, which always reads 1 by
the model's choice (log entry 58). -/
theorem routeBanksAndFlips : Obligations.RouteBanksAndFlips := by
  unfold Obligations.RouteBanksAndFlips
  intro s die bank idx v hd hb hi
  dsimp only
  rw [← s.bankOpen_iff bank]
  refine ⟨exec_meshRouteWrite_open s die bank idx v hd hb hi, exec_meshRouteWrite_closed s die bank idx v hd hb hi, ?busy, ?mode,
    ?contract, ?hold, exec_flipDrainDone_next s, ?drainStay, exec_flipTimeout_next s, ?timeoutStay, exec_flipDone_next s, ?doneStay⟩
  case busy => exact fun h => congrArg Host.Outcome.next (s.flipGo_busy h)
  case mode => exact fun h hm => congrArg Host.Outcome.next (s.flipGo_mode h hm)
  case contract => exact fun h hm hc => congrArg Host.Outcome.next (s.flipGo_contract h hm hc)
  case hold => exact fun h hm hc => congrArg Host.Outcome.next (s.flipGo_hold h hm hc)
  case drainStay => exact fun h => congrArg Host.Outcome.next (s.flipDrained_stay h)
  case timeoutStay => exact fun h => congrArg Host.Outcome.next (s.flipTimeout_stay h)
  case doneStay => exact fun h => congrArg Host.Outcome.next (s.flipDone_stay h)

end Sys2Proof.Machine
end
